-- ==== Sys2Proof/Word.lean ====
section
/-! DEFINITION. Word types of the W480 and their plainest arithmetic (R3, R9, R10). -/

namespace Sys2Proof

/-- One 32-bit register word of a page (R437). -/
abbrev Word := BitVec 32

/-- A byte of memory. -/
abbrev Byte := BitVec 8

/-- An angle stamp: the cycle count in bits 47:16, the angle in bits 15:0 (R9). -/
abbrev Stamp := BitVec 48

namespace Stamp

/-- Stamp `a` is later than stamp `b` under R10: the difference modulo `2^48` lies in 1 to `2^47 - 1`. -/
def later (a b : Stamp) : Bool :=
  let d := (a - b).toNat
  decide (1 ≤ d) && decide (d ≤ 2 ^ 47 - 1)

/-- Stamp `a` is at or later than stamp `b` under R10. -/
def reached (a b : Stamp) : Bool := a == b || later a b

/-- The angle of a stamp, in bins of 1/65,536 turn (R9). -/
def angle (a : Stamp) : Nat := a.toNat % 65536

/-- The cycle count of a stamp (R9). -/
def cycle (a : Stamp) : Nat := a.toNat / 65536

end Stamp
end Sys2Proof
end

