-- ==== Sys2Proof/Forms.lean ====
section
/-! DEFINITION. What the commands carry, beside numbers: frames, replies, readings, images. -/

namespace Sys2Proof

/-- The host interface that an access comes in on (R436, R448). -/
inductive Iface where
  | pcie
  | spi
  deriving DecidableEq, Repr

/-- What a wire test meets: the levels of CFGA, CFGB and CL in mV at the end of T0, T1 and T2 (R239). -/
structure WireTest where
  a0 : Nat
  b0 : Nat
  cl0 : Nat
  a1 : Nat
  b1 : Nat
  cl1 : Nat
  a2 : Nat
  b2 : Nat
  cl2 : Nat
  deriving DecidableEq, Repr

/-- What the supervisor does up to a service, or up to the tick that closes its window (R402, R403, R450): its program counter
there; the WDG ticks since its last service in which the debug port has asked to hold it halted; the characters of its log
lines, and the characters that UART_RX has brought, each as ten bits with the start bit lowest. -/
structure SupRun where
  pc     : Word
  halted : Nat
  log    : List Byte
  rx     : List (BitVec 10)
  deriving DecidableEq, Repr

/-- A rail as its monitor has seen it for 2 µs: its level in mV; `gone`: the rail is lost (R464, R466). -/
structure RailSeen where
  mv   : Nat
  gone : Bool
  deriving DecidableEq, Repr

/-- A rail, by the supply code of R464, and its level in mV; code 0 stands for a first power-on. -/
structure RailLevel where
  code : BitVec 4
  mv   : Nat
  deriving DecidableEq, Repr

/-- The voltage across IWKP–IWKN in mV, without its sign, and how long every sample has been at least that (R479). -/
structure IbatSeen where
  mv : Nat
  ms : Nat
  deriving DecidableEq, Repr

/-- What a consist-network MAC sees of its line: it is in synchrony, and auto-negotiation has ended (R444). -/
structure LinkSeen where
  sync       : Bool
  negotiated : Bool
  deriving DecidableEq, Repr

/-- A segment that is found down; `dark`: its receive pair shows no valid differential level (R306). -/
structure SegSeen where
  n    : Fin 2
  dark : Bool
  deriving DecidableEq, Repr

/-- A comparator of CMP and what stands at its fast input: the voltage in µV, and for how many ticks every sample of it has been
on the side of the threshold where it is now (R71). -/
structure CmpSeen where
  n    : Fin 24
  pin  : Int
  held : Nat
  deriving DecidableEq, Repr

/-- A level change of the MOTION input: the new level and how long it has held, in ms (R430). -/
structure MotionEdge where
  level : Bool
  ms    : Nat
  deriving DecidableEq, Repr

/-- A frame of the shelf link (R296): class, type, context, sequence number, broadcast, node, payload words; `copied`: the
standby has acknowledged its copy (R366). -/
structure Frame where
  cls   : Nat
  ty    : Nat
  ctx   : Nat := 0
  seq   : Nat := 0
  bc    : Bool := false
  node  : Nat := 0
  words : List Nat := []
  copied : Bool := false
  deriving DecidableEq, Repr

/-- A received frame: the segment, whether the line shows its start, valid Manchester code and a whole
number of words up to its end (checks 1–3 of R298), the CRC it carries, its header fields and its payload. -/
structure RxFrame where
  seg   : Nat
  clean : Bool
  crc   : Word
  pos   : Nat
  ctx   : Nat
  seq   : Nat
  bc    : Bool
  node  : Nat
  evt   : Bool
  words : List Nat
  deriving DecidableEq, Repr

/-- How a PMBus device answers a transaction (R310): it does not acknowledge its address, or a byte, or the transaction is whole,
with the packet error code of a device that sends one. -/
inductive PmbReply where
  | addressNak
  | dataNak
  | whole (pec : Byte)
  deriving DecidableEq, Repr

/-- What an IDLE frame of PAIR tells (R363): state, position, SYNCED, whether the sender drives GUY and reads it low, ACT_N,
STAKEGEN, whether it acts in the Bivouac (R371), the last frame it has acknowledged, and the range of PAIR protocols of its SUP,
which the manual has reported over PAIR in no frame it names (R424, R432; log 24). -/
structure PairIdle where
  lane    : Nat
  state   : Nat
  pos     : Nat
  synced  : Bool
  guyDrv  : Bool
  guyLow  : Bool
  act     : Bool
  gen     : Nat
  biv     : Bool
  ack     : Nat
  ppMin   : Nat
  ppMax   : Nat
  deriving DecidableEq, Repr

/-- A binding of an identity (R24, R313). -/
structure Binding where
  id     : Nat := 0
  module : Nat := 0
  ctx    : Nat := 0
  safe   : Bool := false
  valid  : Bool := false
  deriving DecidableEq, Repr

/-- What the configuration section of a SUP image holds (R417): shelf number, car identity, bindings by entry, and the register
words by BAR0 offset that the supervisor writes and commits. -/
structure ConfigSection where
  shelf    : Nat
  carId    : Nat
  bindings : List (Nat × Binding)
  words    : List (Nat × Nat)
  deriving DecidableEq, Repr

end Sys2Proof
end

