-- ==== Sys2Proof/Machine/Tab.lean ====
section
/-! DEFINITION. Sparse tables in one canonical form: keys strictly rising, and no entry that equals what an
unlisted key reads as. Registers, memories and per-unit records are kept in them. -/

namespace Sys2Proof

/-- A sparse table: (key, value) pairs with strictly rising keys. -/
abbrev Tab (α : Type) := List (Nat × α)

namespace Tab

/-- What the table holds at a key; an unlisted key reads as `d`. -/
def get {α : Type} (d : α) : Tab α → Nat → α
  | [], _ => d
  | (k, v) :: l, n => if n = k then v else get d l n

/-- Put `v` at key `n`, keeping the keys strictly rising. -/
def insert {α : Type} : Tab α → Nat → α → Tab α
  | [], n, v => [(n, v)]
  | (k, w) :: l, n, v =>
    if n = k then (n, v) :: l else if n < k then (n, v) :: (k, w) :: l else (k, w) :: insert l n v

/-- Remove key `n`. -/
def erase {α : Type} (l : Tab α) (n : Nat) : Tab α := l.filter fun e => e.1 != n

/-- Write `v` at key `n`: writing what an unlisted key reads as removes the entry. -/
def set {α : Type} [DecidableEq α] (d : α) (l : Tab α) (n : Nat) (v : α) : Tab α :=
  if v = d then erase l n else insert l n v

/-- Change the value at key `n` by `f`. -/
def upd {α : Type} [DecidableEq α] (d : α) (l : Tab α) (n : Nat) (f : α → α) : Tab α :=
  set d l n (f (get d l n))

/-- Write a list of values at consecutive keys from `n` on. -/
def setMany {α : Type} [DecidableEq α] (d : α) (l : Tab α) (n : Nat) : List α → Tab α
  | [] => l
  | v :: vs => setMany d (set d l n v) (n + 1) vs

/-- `n` consecutive values from key `k` on. -/
def getMany {α : Type} (d : α) (l : Tab α) (k : Nat) : Nat → List α
  | 0 => []
  | n + 1 => get d l k :: getMany d l (k + 1) n

/-- Remove every key in the range `lo` to `hi - 1`. -/
def eraseRange {α : Type} (l : Tab α) (lo hi : Nat) : Tab α :=
  l.filter fun e => decide (e.1 < lo) || decide (hi ≤ e.1)

/-- The canonical form: keys strictly rising, and no entry equal to what an unlisted key reads as. -/
def wf {α : Type} [DecidableEq α] (d : α) (l : Tab α) : Bool :=
  go d 0 l
where
  /-- The form from key `n` on. -/
  go {α : Type} [DecidableEq α] (d : α) (n : Nat) : Tab α → Bool
    | [] => true
    | (k, v) :: l => decide (n ≤ k) && decide (v ≠ d) && go d (k + 1) l

end Tab
end Sys2Proof
end

