-- ==== Sys2Proof/Machine/Parts.lean ====
section
/-! DEFINITION. The hidden state of the blocks: plain data throughout. The default value of a field is its value after reset (R5,
R470; log 4 where the manual states none). -/

namespace Sys2Proof.Machine

/-- The angle stamp and the nanosecond time of one tick (R11, R375); `noang`: the angle clock was not running, and
the stamp reads 0∠0x0000 (R37). -/
structure Stamps where
  stamp : Stamp := 0
  ns    : BitVec 64 := 0
  noang : Bool := false
  deriving DecidableEq, Repr

/-! ### Time (02) -/

/-- The time base: the 400 MHz tick (R35), the 80-bit accumulator of the oscillator (R39), the nanosecond time with
its carried fraction in units of 1/131,072,000,000 ns (R53). -/
structure Time where
  tick    : Nat := 0
  acc     : BitVec 80 := BitVec.ofNat 80 (2 ^ 48)
  running : Bool := true
  ns      : BitVec 64 := 0
  nsFrac  : Nat := 0
  deriving DecidableEq, Repr

/-- What a command asks of the time base beside the chip's own state (R37, R47, R53, R55). -/
inductive TimeReq where
  /-- The angle moves forward by this many bins in one tick (R47). -/
  | jump (bins : BitVec 16)
  /-- The signed step of the nanosecond time (R53). -/
  | nsStep (d : Int)
  /-- The stamp follows another stamp forward (R55). -/
  | follow (s : Stamp)
  /-- The stamp starts anew at 1∠0x0000 (R37). -/
  | restart
  /-- The stamp stops: ANG is unpowered (R37, R55). -/
  | stop
  deriving DecidableEq, Repr

/-! ### Faults (14) -/

/-- The reaction lane of a source: its open incident, the TAKEN set of that incident (R376, R384), the kinds so far,
and whether TRAP handling of this incident is in progress (R385). -/
structure Lane where
  isOpen : Bool := false
  taken  : Nat := 0
  kinds  : Nat := 0
  trap   : Bool := false
  /-- The tick of the last message, and that of a close by ACLOSE (R385, R397). -/
  lastAt : Nat := 0
  autoAt : Option Nat := none
  deriving DecidableEq, Repr

/-- An entry of the incident table (R386). -/
structure Incident where
  firstk : Nat := 0
  kinds  : Nat := 0
  taken  : Nat := 0
  inj    : Bool := false
  qmrg   : Bool := false
  number : Nat := 0
  mcount : Nat := 0
  addr   : Nat := 0
  laddr  : Nat := 0
  first  : Stamps := {}
  last   : Stamps := {}
  deriving DecidableEq, Repr

/-- A coded message in the bookkeeping queue (R375) with what the reaction stage decided (R376): whether it opened an
incident, the reactions it started, and the messages merged into it while it waits. -/
structure Msg where
  source : Nat
  kind   : Nat
  addr   : Nat
  at_    : Stamps
  opened : Bool
  react  : Nat
  inj    : Bool := false
  merged : Nat := 0
  laddr  : Nat
  last   : Stamps
  /-- The kind of the message before any merged into it (FIRSTK of R383). -/
  firstk : Nat := 0
  /-- The detection tick (R376). -/
  tick   : Nat := 0
  deriving DecidableEq, Repr

/-- The hidden state of the fault collector. -/
structure Flt where
  lanes     : Tab Lane := []
  table     : Tab Incident := []
  queue     : List Msg := []
  latch     : List Nat := []
  /-- FLT_CTL.EN has not been written 1 since the last power-on or chip reset (R387). -/
  startErr  : Bool := true
  /-- MINW runs (R387). -/
  minRun    : Bool := true
  /-- The tick in which ERR_N was last asserted (R387). -/
  errAt     : Nat := 0
  /-- HNMI_N is low, and the tick from which its width runs (R388). -/
  hnmi      : Bool := false
  hnmiAt    : Nat := 0
  biv       : Bool := false
  bivCause  : Nat := 0
  /-- The tick of the entry into the Bivouac (R397). -/
  bivAt     : Nat := 0
  /-- The start hold of R396, and the sticky copy that the always-on domain keeps for the next start. -/
  held      : Bool := false
  sticky    : Bool := false
  deriving DecidableEq, Repr

/-! ### Page headers (17) -/

/-- A pending commit: its point and its tag (R454). -/
structure Commit where
  mode  : Nat
  group : Nat := 0
  point : Stamp := 0
  tag   : Nat := 0
  /-- The tick of its write, and the group and tag of a commit at a boundary that it has replaced (R462). -/
  since : Nat := 0
  prev  : Option (Nat × Nat) := none
  deriving DecidableEq, Repr

/-! ### Rings and recorder (12) -/

/-- The hidden state of a ring: bytes written to and taken from on-chip memory (R325), the record counter (R331), the
drops not yet told by a LOST record (R326), the episode marks (R326, R328), and the oldest history byte kept (R330). -/
structure Ring where
  inW      : Nat := 0
  outW     : Nat := 0
  rseq     : Nat := 0
  lost     : Nat := 0
  /-- All drops so far, for the NLOST of a window (R341). -/
  drops    : Nat := 0
  lostA    : Stamps := {}
  lostZ    : Stamps := {}
  fullEp   : Bool := false
  stallEp  : Bool := false
  /-- The tick of the last drain, or of the entry that came into an empty ring (R328). -/
  waitAt   : Nat := 0
  old      : Nat := 0
  /-- Of a ring that the host reads: for each unread entry, oldest first, the index past it and the tick of its write (R439). -/
  wrote    : List (Nat × Nat) := []
  deriving DecidableEq, Repr

/-- A window of the recorder (R337–R339): the firing entry, its tag, the bounds as checkpoint numbers, the ring spans
from the two checkpoints, and its flags. -/
structure Window where
  entry   : Nat
  tag     : Nat
  rings   : Nat
  fromMs  : Nat
  toMs    : Nat
  /-- Ring, first and end history index. -/
  spans   : List (Nat × Nat × Nat) := []
  ready   : Bool := false
  merged  : Bool := false
  short   : Bool := false
  trunc   : Bool := false
  lastGasp : Bool := false
  at_     : Stamps := {}
  fault   : Nat := 0
  faultAddr : Nat := 0
  /-- Records dropped within the window, by ring (R341). -/
  lost    : Tab Nat := []
  deriving DecidableEq, Repr

/-- A waveform stream (R332): the sample sets taken since the record began and the stamps of the first set. -/
structure Wave where
  sets  : Nat := 0
  data  : List Nat := []
  first : Stamps := {}
  /-- Sum and count of the readings completed in the interval, by source (MEAN). -/
  acc   : Tab (Int × Nat) := []
  /-- The tick in which the last interval ended; the intervals count from the commit that enables the stream. -/
  at_   : Nat := 0
  deriving DecidableEq, Repr

/-- The hidden state of the recorder. -/
structure Rec where
  /-- Checkpoint number: 1 ms periods since reset (R330). -/
  ms       : Nat := 0
  /-- Checkpoints kept: number, and each history ring's write index and drops so far (R330, R341). -/
  checks   : List (Nat × List (Nat × Nat × Nat)) := []
  windows  : List Window := []
  sealing  : Option Window := none
  nextTag  : Nat := 0
  /-- Write point and erased bytes ahead of it (R340). -/
  wpoint   : Nat := 0
  erased   : Nat := 0
  /-- Bytes of the area that hold complete or broken windows. -/
  used     : Nat := 0
  gapPrev  : Bool := false
  lastGasp : Bool := false
  lgBytes  : Nat := 0
  lgWin    : Nat := 0
  erasing  : Bool := false
  formatting : Bool := false
  waves    : Tab Wave := []
  /-- The bytes of the window being sealed: those programmed, and those not yet programmed (R341). -/
  done     : List Byte := []
  image    : List Byte := []
  /-- The chain value of the window being sealed (R342). -/
  chain    : List Nat := []
  /-- The ticks of the last checkpoint and of the last CTXSTATE records (R330, R333), and that in which the present program or
  erase began (R340). -/
  cpAt     : Option Nat := none
  ctxAt    : Option Nat := none
  opAt     : Nat := 0
  deriving DecidableEq, Repr

/-! ### Partner contexts (11) -/

/-- A context slot (R315). Sequence numbers and counters as the slot lays them out; `lastrep` the payload of the
last REPORT, `data` the bytes 128–191, both as little-endian numbers. -/
structure Ctx where
  id      : Nat := 0
  state   : Nat := 0
  bound   : Bool := false
  safe    : Bool := false
  path    : Nat := 0
  pclass  : Nat := 0
  loc     : Nat := 0
  caps    : Nat := 0
  base    : Nat := 0
  irated  : Nat := 0
  prated  : Nat := 0
  nelem   : Nat := 0
  vnom    : Nat := 0
  respt   : Nat := 0
  /-- Partner mode: POLLPER of the ASSIGN. -/
  pollper : Nat := 0
  capab   : Nat := 0
  tx1     : Nat := 0
  tx2     : Nat := 0
  tx3     : Nat := 0
  rx1     : Nat := 0
  rx2     : Nat := 0
  rx3     : Nat := 0
  rxv     : Nat := 0
  att     : Stamps := {}
  last    : Stamps := {}
  /-- The tick at which JOINING or LINGER ends; TLEFT counts down to it. -/
  tEnd    : Nat := 0
  missrun : Nat := 0
  reatt   : Nat := 0
  rxok    : Nat := 0
  rxdisc  : Nat := 0
  dup     : Nat := 0
  txok    : Nat := 0
  cut     : Nat := 0
  miss    : Nat := 0
  lastrep : Nat := 0
  data    : Nat := 0
  /-- Length of the last grant in ns (R303). -/
  grantNs : Nat := 0
  deriving DecidableEq, Repr

/-! ### Angle clock (02) -/

/-- One write held while BUSY is 1: the register's offset and the word (R512). -/
structure HeldWrite where
  off  : Nat
  word : Nat
  deriving DecidableEq, Repr

/-- A schedule entry: four words (R50), and whether the host has written it in the shadow bank since the last
swap (R54). -/
structure SchedEntry where
  w0 : Nat := 0
  w1 : Nat := 0
  w2 : Nat := 0
  w3 : Nat := 0
  hostWritten : Bool := false
  deriving DecidableEq, Repr

/-- How the oscillator of ANG is steered (R43, R44, R47, R48). -/
inductive Steer where
  /-- At the nominal frequency (R44). -/
  | fnom
  /-- By the filter of R39. -/
  | pll
  /-- At a held frequency (R43, R45). -/
  | held
  /-- At the virtual frequency (R48). -/
  | virt
  /-- By the filter within the slew limit (R47). -/
  | slew
  deriving DecidableEq, Repr

/-- A criterion over complete cycles (R42): those in a row in which every sample has met it, whether it has held in the present
one, and whether that has had a sample. -/
structure CycleRun where
  cycles : Nat := 0
  holds  : Bool := false
  seen   : Bool := false
  deriving DecidableEq, Repr

/-- The hidden state of ANG. Frequencies in units of 2^−48 turn per tick (R39). -/
structure Ang where
  inc      : Nat := 35184372
  steer    : Steer := .fnom
  mag      : Nat := 0
  below    : Bool := false
  /-- Phase difference of the last sample set, in bins, −32,767 to 32,768 (R47). -/
  phi      : Int := 0
  /-- The integral term Σe, in 2^−30 (R39, R43, R47). -/
  sumE     : Int := 0
  /-- The phase error e of the last sample set, in 2^−30 (R39). -/
  err      : Int := 0
  /-- Which of the three inputs have a sample of the present set, by bit (R39). -/
  got      : Nat := 0
  /-- f̂ of the last sample at or above level (R39, R43). -/
  fLast    : Nat := 35184372
  /-- Per-cycle frequencies of the last complete cycles, newest first (R45). -/
  cycles   : List Nat := []
  /-- Sum and count of the estimates of the present cycle (R45). -/
  cycSum   : Nat := 0
  cycN     : Nat := 0
  fh       : Nat := 35184372
  /-- 2Δf: the largest less the smallest per-cycle frequency of the window (R45). -/
  df       : Nat := 0
  /-- The supply has been present since reset or since VIRT was left (R44). -/
  present  : Bool := false
  /-- A loss episode of ACQ runs (R44). -/
  lossEp   : Bool := false
  /-- The supply angle that a pause waits for: the stamp stays still (R47). -/
  paused   : Bool := false
  /-- A sample below level has come since the planned start (R49). -/
  belowSince : Bool := false
  /-- A loss in a masked window has been written as an event only (R49). -/
  maskLoss : Bool := false
  /-- Windows passed by BUS whose start lies ahead: start stamp and duration in ms (R49). -/
  planned  : List (Stamp × Nat) := []
  /-- The masked windows that run: start stamp, duration in ms, and the tick of the start (R49). -/
  opened   : List (Stamp × Nat × Nat) := []
  /-- ANG commits of the queue that a state event of the same tick has let take effect before it (R54). -/
  early    : Nat := 0
  /-- The tick of the last cycle start, and its cycle (R53, R54). -/
  cycAt    : Option Nat := none
  /-- The tick of the entry into LOCK (R142). -/
  lockAt   : Nat := 0
  cycOf    : Option Nat := none
  /-- Over every sample: within LOCKERR, at level in band, at a band limit (R42). -/
  good     : CycleRun := {}
  level    : CycleRun := {}
  limit    : CycleRun := {}
  /-- Every sample since this tick: above UNLKERR, below level, at or above level (R42). -/
  badAt    : Option Nat := none
  belowAt  : Option Nat := none
  aboveAt  : Option Nat := none
  /-- The tick of the entry into HOLD, and the end of a pause (R44, R46, R47). -/
  holdAt   : Nat := 0
  pauseTo  : Nat := 0
  /-- The due stamp with which each entry of the active bank last fired or was missed (R32, R51). -/
  fired    : Tab (Option Stamp) := []
  /-- The entries whose last firing was late (R51). -/
  late     : List Nat := []
  /-- Recorder markers that wait for the loop iterations of their bin: entry, action, code and due stamp (R32, step 4). -/
  markers  : List (Nat × Nat × Nat × Stamp) := []
  active   : Tab SchedEntry := []
  shadow   : Tab SchedEntry := []
  /-- The shadow bank has been written since the last swap (R52). -/
  written  : Bool := false
  held     : List HeldWrite := []
  deriving DecidableEq, Repr

/-! ### What is still to be carried out within the present command -/

/-- A reaction, record or notification that the present command has set off in another block; carried out before
the command ends (R380, R334, R336, R29). -/
inductive Due where
  /-- An EVENT record of a rising IRQRAW bit (R334): page, bit, IRQRAW after it, and its stamps. -/
  | event (page bit raw : Nat) (at_ : Stamps)
  /-- Trigger entry `j` fires (R336): with the fault message that fired it, source and kind in bits 15:0, address. -/
  | fire (j : Nat) (fault addr : Nat)
  /-- A BRST reaction (R380, R455). -/
  | blockReset (page : Nat)
  /-- A CRST reaction of a source (R380, R470). -/
  | chipReset (source kinds : Nat)
  /-- Bivouac entry (R393, R394): cause, source and kind. -/
  | bivouac (cause source kind : Nat)
  /-- A SHEDALL in the C0 queue of each controller-mode segment (R301, R390). -/
  | shedAll
  /-- A schedule bank has become active: ONCE entries already past are missed (R51). -/
  | bankSwap
  deriving DecidableEq, Repr

/-! ### Legs, inputs, comparators (03) -/

/-- An instant of sampling: its tick and the accumulator of the angle clock in it (R9, R39). -/
structure Samp where
  tick : Nat := 0
  acc  : BitVec 80 := 0
  deriving DecidableEq, Repr

/-- The hidden state of a converter group (R61–R66, R76–R81). -/
structure Group where
  /-- Delivered duties in 2^−24 per-unit: one per leg of an active front end, one for the group otherwise (R62). -/
  duty      : List Int := []
  /-- Delivered phase shift of a dual active bridge in 2^−24 per-unit (R65). -/
  phi       : Int := 0
  delivered : Bool := false
  /-- The tick of the last period boundary, where the counter is 0 (R61). -/
  periodAt  : Nat := 0
  /-- The period in force, in steps: a commit of PER acts at the boundary (R84). -/
  per       : Nat := 0
  /-- The number of active phases has changed since the last boundary (R80). -/
  fresh     : Bool := false
  /-- Periods since the group was enabled (R96). -/
  periods   : Nat := 0
  /-- Sum of the phase currents over the periods of the average, and their number (R79). -/
  acc       : Int := 0
  accN      : Nat := 0
  /-- Phases to be added at the next boundary (R81). -/
  addPend   : Nat := 0
  /-- Tick of the announcement that stands, and of the end of the last catch (R78, R80). -/
  annAt     : Nat := 0
  endAt     : Nat := 0
  /-- Schedule action 0x03 has fired for the announced drop (R80). -/
  dropFired : Bool := false
  /-- Both conditions coincided: Step Catch fires in the next tick (R76). -/
  armed     : Bool := false
  /-- Kind 0x04 of CMP has been raised for this catch and holdoff (R76). -/
  holdEp    : Bool := false
  depthOn   : Bool := false
  depthEnd  : Option Nat := none
  slopeOn   : Bool := false
  slopeEnd  : Option Nat := none
  deriving DecidableEq, Repr

/-- A pulse of GH: the start of the leg's own period it belongs to, its turn-on and turn-off points, all in steps of
156.25 ps of the time base (R59, R61); no pulse where `off ≤ on`. -/
structure Pulse where
  base  : Nat := 0
  on    : Nat := 0
  off   : Nat := 0
  /-- The leg's period has begun. -/
  begun : Bool := false
  /-- No further turn-on edge is issued in this period (R63, R73, R78). -/
  done  : Bool := false
  deriving DecidableEq, Repr

/-- A comparator that asserts a cycle-by-cycle limit on a gate: its number, its blanking and the time of its assertion, in
steps (R71, R72). -/
structure Limiter where
  cmp   : Nat
  blank : Nat
  since : Nat
  deriving DecidableEq, Repr

/-- What drives the gates of a leg since the last change of it: whether the leg may switch at all (R58, R66), its dead times,
minimum pulse, catch time, period and end of the present period in steps, its catch switch, and the comparators that limit
GH and GL (R59, R62, R64, R72, R77). -/
structure LegDrive where
  live   : Bool := false
  dth    : Nat := 0
  dtl    : Nat := 0
  minpw  : Nat := 0
  tcatch : Nat := 0
  bound  : Nat := 0
  per    : Nat := 0
  low    : Bool := false
  limH   : List Limiter := []
  limL   : List Limiter := []
  deriving DecidableEq, Repr

/-- The hidden state of a leg. Times are in steps of the time base; an edge time of 0 tells that there was none yet. -/
structure LegSt where
  /-- The pulses of the present period and of the next, oldest first, and the turn-on point foreseen after them (R61, R65). -/
  pulses  : List Pulse := []
  next    : Nat := 0
  shift   : Nat := 0
  /-- The balance trim in 2^−24 per-unit (R82). -/
  trim    : Int := 0
  /-- Held off by BUS or CPT (R59, R135). -/
  heldBy  : Nat := 0
  drive   : LegDrive := {}
  /-- The time up to which the leg has run, its gates then, and their last edges (R58, R59). -/
  ranTo   : Nat := 0
  gh      : Bool := false
  gl      : Bool := false
  ghOn    : Nat := 0
  ghOff   : Nat := 0
  glOn    : Nat := 0
  glOff   : Nat := 0
  /-- A limit keeps the gate low for the rest of the period (R73). -/
  ghLim   : Bool := false
  glLim   : Bool := false
  /-- The comparators whose limit has acted since the last boundary of the group, one bit each (R73). -/
  limBy   : Nat := 0
  /-- The leg takes part in a catch, and the end of it, 0 until the catch switch is on (R77). -/
  catchOn : Bool := false
  catchTo : Nat := 0
  deriving DecidableEq, Repr

/-- The hidden state of a fast input (R67, R68, R70, R76). -/
structure Fin16 where
  /-- The sampling instants of the conversions in progress, oldest first (R67). -/
  flight : List Samp := []
  lastAt : Nat := 0
  sum    : Int := 0
  n      : Nat := 0
  anyEp  : Bool := false
  run    : Nat := 0
  ep     : Bool := false
  hist   : List Int := []
  owFail : Nat := 0
  owPass : Nat := 0
  /-- Tick of the last open-wire test (R70). -/
  owAt   : Nat := 0
  /-- The ticks of the trigger points of its group that have come, of which none has been sampled yet (R67). -/
  points : List Nat := []
  /-- First sampling instant of the averaging run, and the instant of the reading (R67). -/
  first  : Samp := {}
  smp    : Samp := {}
  deriving DecidableEq, Repr

/-- The hidden state of a slow input (R69, R70, R86). -/
structure Sin32 where
  sum    : Nat := 0
  n      : Nat := 0
  run    : Nat := 0
  ep     : Bool := false
  anyEp  : Bool := false
  owFail : Nat := 0
  owPass : Nat := 0
  /-- Tick of the last open-wire test (R70). -/
  owAt   : Nat := 0
  first  : Samp := {}
  smp    : Samp := {}
  deriving DecidableEq, Repr

/-- A slow-input converter in its frame of 20 slots: the slot, the angle-clock inputs and the other inputs it serves in
this frame, and the place of the round (R69). -/
structure SlowConv where
  slot : Nat := 0
  ang  : List Nat := []
  rest : List Nat := []
  pos  : Nat := 0
  /-- The tick in which the last slot ended. -/
  at_  : Option Nat := none
  deriving DecidableEq, Repr

/-- The hidden state of a comparator (R71–R74). -/
structure CmpSt where
  /-- Ticks of the last assertion and of the last release. -/
  outAt     : Nat := 0
  relAt     : Nat := 0
  /-- Tick at which the chatter window began. -/
  winAt     : Nat := 0
  /-- The legs that the latched trip has taken, one bit each (R74). -/
  legs      : Nat := 0
  heldClear : Bool := false
  stuckEp   : Bool := false
  limEp     : Bool := false
  deriving DecidableEq, Repr


/-! ### Control engine (04) -/

/-- An iteration in progress (R94, R95): its slot, its dispatch and its end in half nanoseconds, the actuators it has still to
give a value, and the state it will leave, x̂ and uprev. -/
structure EngineRun where
  slot  : Nat
  disp  : Nat
  fin   : Nat
  outs  : List (Nat × Int)
  x     : List Int
  uprev : List Int
  deriving DecidableEq, Repr

/-- The hidden state of a loop slot (R96, R97, R107, R111). -/
structure Slot where
  /-- The tick of the waiting trigger (R97). -/
  waiting  : Option Nat := none
  seedDue  : Bool := false
  /-- Outputs produced since the slot was enabled, and since enable or seeding, by bit (R102, R107). -/
  produced : Nat := 0
  heldSet  : Nat := 0
  /-- Kind 0x40 has been raised since the enable (R102). -/
  absentEp : Bool := false
  /-- The tick of the last host trigger, and whether one is deferred (R96). -/
  hostAt   : Option Nat := none
  deferred : Bool := false
  deriving DecidableEq, Repr

/-- A queued load intent: slot, step as a signal word, due stamp (R110). -/
structure Intent where
  slot  : Nat
  delta : Int
  due   : Stamp
  /-- The endpoint, the step in W after bounding, and the power base of its route in 10 W (R33, R163). -/
  ep    : Nat
  watts : Int
  base  : Nat
  deriving DecidableEq, Repr

/-! ### Shelf link (11) -/

/-- The grant in progress on a response pair (R302). -/
structure Grant where
  ctx   : Nat
  win   : Nat
  used  : Nat := 0
  lenNs : Nat := 0
  /-- The tick of the POLL's last bit, and that of the last frame that has come in under the grant. -/
  sentAt  : Option Nat := none
  frameAt : Option Nat := none
  deriving DecidableEq, Repr

/-- The hidden state of a segment (R299–R309). -/
structure Seg where
  c0      : List Frame := []
  /-- Frames that go before the rings: cut frames, and on a standby the mirrored ones (R299, R300). -/
  front   : List Frame := []
  sending : Option Frame := none
  /-- A frame that waits for the standby to acknowledge its copy, sent with this sequence number (R366). -/
  copy    : Option (Frame × Nat) := none
  /-- Broadcast counters of C1–C3, sent and accepted (R299). -/
  tx      : List Nat := [0, 0, 0]
  rx      : List (Option Nat) := [none, none, none]
  grant   : Option Grant := none
  /-- Contexts whose POLL is due, ascending, and the tick at which the HELLO slots of the last DISCOVER end (R302, R304). -/
  polls   : List Nat := []
  slotsEnd : Nat := 0
  /-- Partner mode: context of the controller, words left in the grant, HELLO slot chosen. -/
  ctl     : Option Nat := none
  /-- Partner mode: the context number that the controller gave this chip. -/
  ownCtx  : Nat := 0
  left    : Nat := 0
  hello   : Option Nat := none
  /-- Partner mode: words of the last TIME frame and the tick of its receipt (R307). -/
  ref     : Option (List Nat × Nat) := none
  /-- The tick of the first start bit of the frame that is being sent, that from which the next one may start, and that of the
  last bit of the own last frame in a grant (R295, R300, R302). -/
  txAt    : Nat := 0
  freeAt  : Nat := 0
  ownEnd  : Option Nat := none
  /-- The ticks of the last DISCOVER and TIME, and of the last POLL that was due for each context (R302, R304, R307). -/
  discAt  : Option Nat := none
  timeAt  : Option Nat := none
  polled  : Tab (Option Nat) := []
  /-- The tick of the last frame that passed R298, or in partner mode of the last command frame; the controller is lost (R306,
  R309). -/
  heardAt : Nat := 0
  lost    : Bool := false
  /-- Partner mode: the tick in which the HELLO slot chosen begins (R304). -/
  helloAt : Nat := 0
  /-- HELLOs of SL1 that are judged at the end of their tick, after those of SL0 (R317). -/
  hellos  : List RxFrame := []
  deriving DecidableEq, Repr

/-! ### PMBus (11) -/

/-- A transaction on PMBus (R310): of a device's poll cycle or cap write, or of the host. -/
structure Xact where
  dev  : Option Nat
  op   : Nat
  code : Nat
  addr : Nat
  pec  : Bool
  data : Nat := 0
  /-- The last transaction of a poll cycle. -/
  last : Bool := false
  deriving DecidableEq, Repr

/-- The hidden state of a PMBus entry (R311, R312). -/
structure PmbDev where
  okRun    : Nat := 0
  missRun  : Nat := 0
  voutMode : Option Nat := none
  rawV     : Nat := 0
  rawI     : Nat := 0
  rawP     : Nat := 0
  statusEp : Bool := false
  formatEp : Bool := false
  /-- The limit to be in force, as the current in LINEAR11, and whether it is still to be written and confirmed. -/
  cap      : Option Nat := none
  capDue   : Bool := false
  /-- The power cap in W that the limit follows, and the VOUT in 10 mV that its binding gives. -/
  capW     : Nat := 0
  capV     : Nat := 0
  respSet  : Bool := false
  /-- The tick of the last poll cycle (R311). -/
  cycAt    : Option Nat := none
  deriving DecidableEq, Repr

/-! ### Bus regulation (05) -/

/-- A queued gap notice (R139, R140); `state` as in BUS_GNk_A: 1 queued, 2 PREP, 3 RAMP, 4 window. -/
structure Notice where
  id      : Nat
  coupler : Bool
  start   : Stamp
  dur     : Nat
  state   : Nat := 1
  merged  : Bool := false
  step    : Bool := false
  /-- The next cycle start after its acceptance: no ramp begins before it (R141). -/
  first   : Stamp := 0
  deriving DecidableEq, Repr

/-- A set-point channel that moves to its value at BUS_RET.SLEW: its value in 2^−20 per-unit / 40,000,000, and the tick
it was formed in (R133). -/
structure ChanSlew where
  v   : Int := 0
  /-- The first set-point after a droop has not yet been made (R133). -/
  first : Bool := false
  at_ : Nat := 0
  on  : Bool := false
  deriving DecidableEq, Repr

/-- The hidden state of BUS. Shares, demand and limits in 2^−20 per-unit of IBASE (R127). -/
structure Bus where
  /-- V* without and with droop in 10 mV / 400,000, and the tick they were formed in (R122, R133). -/
  vRaw    : Nat := 4400000000
  uRaw    : Nat := 4400000000
  vAt     : Nat := 0
  /-- The line factor as a fraction (R125). -/
  rhoK    : Nat := 1
  rhoN    : Nat := 1
  share   : Tab Int := []
  demand  : Int := 0
  unmet   : Int := 0
  unmetEp : Bool := false
  shareEp : Nat := 0
  dHold   : Int := 0
  /-- The tick of detection of a take-over not yet complete (R137). -/
  takeAt  : Option Nat := none
  takeLate : Bool := false
  /-- The limit of that take-over in ticks, as it stood at detection (R137). -/
  takeLim : Nat := 0
  /-- A notice was cancelled in RAMP: RETURN at the next cycle start (R140). -/
  retPend : Bool := false
  /-- The front-end legs are held off, and released at the group's next boundary (R136, R142). -/
  feHold  : Bool := false
  relPend : Bool := false
  notices : List Notice := []
  /-- Channels in droop, by bit (R132). -/
  droop   : Nat := 0
  armed   : Bool := false
  /-- BUS_EXPORT has been written since the export stopped (R143). -/
  written : Bool := false
  /-- The tick in which the export last stopped (R143, R144). -/
  stopAt  : Option Nat := none
  /-- The battery reference in 2^−20 / 40,000,000 and its tick; it moves at SLEW while `batSlew` (R141, R142). -/
  batRef  : Int := 0
  batAt   : Nat := 0
  batSlew : Bool := false
  /-- What BAT hands over: charge command, charge and discharge limits (R216). -/
  batCmd  : Int := 0
  batChg  : Int := 0
  batDis  : Int := 0
  /-- The contract range of a coupler group, set by CPT (R125). -/
  ports   : Tab (Option (Int × Int)) := []
  chans   : Tab ChanSlew := []
  /-- A reading of the bus input has been taken since it was named (R216). -/
  seen    : Bool := false
  /-- Every reading since this tick: below UV, above OV, below VDIP (R123, R135). -/
  uvAt    : Option Nat := none
  ovAt    : Option Nat := none
  dipAt   : Option Nat := none
  /-- Since this tick: UNMET is not zero; the current of a source differs from its share (R127, R128). -/
  unmetAt : Option Nat := none
  offAt   : Tab (Option Nat) := []
  /-- The tick of the last period of the set-point channels, and of the last report of each channel's context (R129, R132). -/
  sentAt  : Nat := 0
  repAt   : Tab Nat := []
  /-- The tick in which the line factor last moved, and the end of the ramp (R125, R141). -/
  rhoAt   : Nat := 0
  rampTo  : Nat := 0
  /-- The tick since which a return waits for ANG and the next cycle start alone (R140, R142). -/
  freeAt  : Nat := 0
  deriving DecidableEq, Repr

/-! ### E-fuse channels (07) -/

/-- What an output pin is driven to: low, high, or not at all. -/
inductive Drive where
  | low | high | off
  deriving DecidableEq, Repr, Inhabited

/-- The hidden state of an e-fuse channel (R179–R193). Timers count evaluation ticks of 100 ns. -/
structure EfCh where
  /-- EF_EN is high, and the code on EF_ILIM: 0 until the first commit (R176, R177). -/
  pin      : Bool := false
  ilim     : Nat := 0
  /-- The codes of EF_IS and EF_VO of the last frames, newest first (R178). -/
  is       : List Nat := []
  vo       : List Nat := []
  /-- The stamp of their conversion (R178). -/
  at_      : Stamp := 0
  /-- Frames in a row with, and without, a reversed connection; frames in a row below UVTH; frames cleared in REV. -/
  rev      : Nat := 0
  clean    : Nat := 0
  under    : Nat := 0
  cleared  : Nat := 0
  /-- The gate-rise timer, ticks in a row with the gate asserted, and whether the timer has stopped (R181). -/
  gateT    : Nat := 0
  gateRun  : Nat := 0
  gateDone : Bool := false
  gateLost : Nat := 0
  offI     : Nat := 0
  /-- The fault timer, and the released ticks since it last fell (R183). -/
  ft       : Nat := 0
  ftDiv    : Nat := 0
  short    : Nat := 0
  /-- An overcurrent trip waits for the next tick (R184). -/
  oc       : Bool := false
  /-- Time high in the attempt, the retry wait, the PG delay, and the time PG has stood (R187, R189). -/
  on       : Nat := 0
  wait     : Nat := 0
  pgT      : Nat := 0
  pgOn     : Nat := 0
  /-- Frames and sum of current codes of the cap average, and the cap episode (R193). -/
  capN     : Nat := 0
  capSum   : Nat := 0
  capEp    : Bool := false
  /-- A mean of the cap average, in 10 mA, to be judged in the next tick. -/
  capDue   : Option Nat := none
  /-- The share code, none standing for ILIM (R191). -/
  share    : Option Nat := none
  deriving DecidableEq, Repr

/-- The hidden state of EFU: the channels and the copy of the page that SAFE retains (R194). -/
structure Efu where
  chans : Tab EfCh := []
  /-- How pins PG0–PG7 are driven (R190). -/
  pg    : Tab Drive := []
  copy  : Tab Word := []
  /-- The ticks of the last sense frame and evaluation, and of the last share update of each pair (R178, R191). -/
  frameAt : Option Nat := none
  evalAt  : Option Nat := none
  shareAt : Tab (Option Nat) := []
  deriving DecidableEq, Repr

/-! ### Battery shelf (08) -/

/-- What BAT holds for a module slot (R204–R212) beside its registers. Charge in 2^−20 A·ms, voltages in 2^−20 of 10 µV,
states of charge in 2^−20 of 0.01 %. -/
structure BatMod where
  id      : Nat := 0
  held    : Bool := false
  q       : Nat := 0
  qfull   : Nat := 0
  v1      : Int := 0
  v2      : Int := 0
  vocv    : Int := 0
  anch    : Nat := 0
  anchq   : Int := 0
  /-- Charge passed through ANCHQ since the last anchor, and UNC at that anchor (R206). -/
  passed  : Nat := 0
  unc     : Nat := 50
  socr    : Nat := 0
  /-- Present and not STALE since the last anchor (R207). -/
  steady  : Bool := false
  firstDue : Bool := false
  thru    : Nat := 0
  overq   : Nat := 0
  /-- Last report: voltage in 10 mV, highest cell in mV. -/
  vmod    : Nat := 0
  vcmax   : Nat := 0
  /-- Ticks and voltages of the reports of the last 130 ms, newest first (R211). -/
  reps    : List (Nat × Nat) := []
  /-- The tick of the last report, and of the last charging correction (R201, R206). -/
  repAt   : Nat := 0
  corrAt  : Nat := 0
  /-- Since this tick: the lowest cell at or below VCUT; clear of it with Ib at most IREST (R215). -/
  lowAt   : Option Nat := none
  clearAt : Option Nat := none
  deriving DecidableEq, Repr

/-- An open impedance window (R210): the tick of the crossing that opened it, or of the due stamp that announced it. -/
structure BatWin where
  at_       : Nat
  announced : Bool
  deriving DecidableEq, Repr

/-- The hidden state of a string (R200, R210). Currents in 2^−20 A, voltages in 2^−20 V, times in ticks. -/
structure BatStr where
  sum   : Int := 0
  n     : Nat := 0
  ib    : Int := 0
  v     : Int := 0
  /-- Readings of the last 25 ms, or of the window so far, newest first. -/
  is    : List (Nat × Int) := []
  vs    : List (Nat × Int) := []
  win   : Option BatWin := none
  /-- Time with |Ib| below IREST on every step, in ms (R206). -/
  restMs : Nat := 0
  deriving DecidableEq, Repr

/-- The hidden state of BAT. -/
structure Bat where
  mods    : Tab BatMod := []
  strs    : Tab BatStr := []
  hold    : Bool := false
  /-- Icmd in 2^−20 A (R214). -/
  icmd    : Int := 0
  /-- Stage timer in ms (R213); the highest string mean per cell in BULK and the temperature a minute ago (R202). -/
  stageMs : Nat := 0
  /-- The stage timer is that of PRE. -/
  stagePre : Bool := false
  peak    : Int := 0
  tRef    : Int := 0
  tRefMs  : Nat := 0
  /-- The last whole minute of BULK warmed the cells at DTDT or faster (R202). -/
  warming : Bool := false
  /-- Due stamps of announced steps (R210), and windows abandoned (R211). -/
  dues    : List Stamp := []
  lostWin : Nat := 0
  /-- Estimator time since the modules were last mirrored, in ms (R223). -/
  mirMs   : Nat := 0
  /-- Read and staging buffers, by word (R220, R221). -/
  rbuf    : Tab Word := []
  sbuf    : Tab Word := []
  /-- The tick of the last save, for REST (R218). -/
  savedAt : Option Nat := none
  /-- The ticks of the last estimator step, of the last change between RUN and IDLE, and of the last ABSORPTION_UPDATE (R204,
  R214, R217). -/
  estAt   : Nat := 0
  runAt   : Nat := 0
  absAt   : Nat := 0
  /-- Since this tick: the command of ABS below ITAPER; the conditions of IDLE (R213, R217). -/
  taperAt : Option Nat := none
  calmAt  : Option Nat := none
  deriving DecidableEq, Repr

/-! ### Capping and registry (06) -/

/-- The way an object of CAP comes in or goes out: a coupler port, or the context of a W480 on the shelf link (R149). -/
inductive Via where
  | port (p : Nat)
  | link (i : Nat)
  deriving DecidableEq, Repr

/-- A car-head candidate as it is seen: the tick of its last report, and its context (R164). -/
structure Seen where
  heard : Nat := 0
  ctx   : Option Nat := none
  deriving DecidableEq, Repr

/-- A child of a head (R151): its level (1 shelf, 2 car), figures in 10 W, last report and the way to it. -/
structure CapChild where
  addr  : Nat := 0
  level : Nat := 0
  used  : Bool := false
  floor : Nat := 0
  max   : Nat := 0
  p     : Int := 0
  seq   : Nat := 0
  lastAt : Nat := 0
  /-- The context the reports come through; none for this chip's own shelf or car, and for cars. -/
  ctx   : Option Nat := none
  /-- At a depot, the way to the parked train (R167). -/
  via   : Option Via := none
  /-- Words of the grant in force, for the repeat of R150. -/
  words : List Nat := []
  deriving DecidableEq, Repr

/-- A grant accepted and not yet effective (R158). -/
structure CapGrant where
  level  : Nat
  budget : Nat
  point  : Stamp
  /-- The head it is from, as the last SEQ is kept by it (R150, R172). -/
  head   : Nat
  deriving DecidableEq, Repr

/-- A car head as the election sees it (R165). -/
structure CarHead where
  id    : Nat
  prio  : Nat
  chc   : Bool
  car   : Nat
  claim : Bool
  seq   : Nat
  /-- The way its object arrived by; none through the host. -/
  via   : Option Via
  /-- The tick of its last object. -/
  heard : Nat
  deriving DecidableEq, Repr

/-- An object on its way to another car (R149): kind as in CAP_XINOP, words, AWAY, and the port it came in on. -/
structure CapObj where
  kind  : Nat
  words : List Nat
  away  : Bool
  from_ : Option Via
  /-- The one way it leaves by; none for all others. -/
  dest  : Option Via := none
  hops  : Nat := 0
  deriving DecidableEq, Repr

/-- The hidden state of CAP. -/
structure Cap where
  /-- By level and head the last SEQ accepted (R150); by level the budget in force in 10 W and the loss of the grant (R161). -/
  seqIn   : Tab (Option Nat) := []
  grants  : Tab (Option Nat) := []
  lost    : Nat := 0
  lostEp  : Nat := 0
  pend    : List CapGrant := []
  /-- A division falls due at the next cycle start (R154). -/
  due     : Bool := false
  /-- The same for the children of a head. -/
  headDue : Bool := false
  floorEp : Nat := 0
  children : Tab CapChild := []
  grSeq   : Nat := 0
  repSeq  : Nat := 0
  elSeq   : Nat := 0
  /-- Sum in 0.1 mW and count of the measurements of an endpoint in this period, by module × 1,024 + element; their
  means in W (R157). -/
  acc     : Tab (Int × Nat) := []
  meas    : Tab Int := []
  /-- Unit table, active and shadow (R168). -/
  units   : Tab Word := []
  unitsSh : Tab Word := []
  lookup  : Option Nat := none
  above   : Bool := false
  /-- The tick of the last report period, of the last grant of each level, of the last change of the set of reachable heads, and of
  the last shedding step (R150, R161, R165). -/
  repAt   : Nat := 0
  gotAt   : Tab Nat := []
  electAt : Nat := 0
  shedAt  : Nat := 0
  /-- Over budget at every judgement since this tick (R161). -/
  overAt  : Option Nat := none
  /-- Car-head candidates seen, by shelf (R164). -/
  shelves : Tab Seen := []
  noHeadEp : Bool := false
  cars    : List CarHead := []
  /-- The set of reachable car heads has changed since the last settlement (R165). -/
  elect   : Bool := false
  /-- Identity of the elected consist head. -/
  head    : Option Nat := none
  /-- Car numbers of the consist by identity, and for a car that has left the tick at which its number is free (R166). -/
  numbers : Tab Nat := []
  left    : Tab Nat := []
  /-- The head of the depot grant in force (R150, R167). -/
  depot   : Option Nat := none
  /-- The car numbers held before, but for the present one (R20). -/
  oldCars : List Nat := []
  outbox  : List CapObj := []
  deriving DecidableEq, Repr

/-! ### Coupler ports (09, 10) -/

/-- A packet of the contract wire: type, objects, and whether it comes from the mailbox (R249, R287). -/
structure Pkt where
  ty   : Nat
  objs : List Nat := []
  mail : Bool := false
  deriving DecidableEq, Repr

/-- The ticks from which the times of a coupler port count (R234–R241, R244, R254–R256, R272–R280). -/
structure PortClock where
  /-- The pattern on the configuration wires, and the attach state that judges it, have stood since this tick. -/
  patAt    : Nat := 0
  /-- The role wire has been away from SINK, or the pattern unfit after a swap, since this tick (R236, R238). -/
  leftAt   : Option Nat := none
  phaseAt  : Nat := 0
  /-- A fault result waits for its second test since this tick; the terminations of a forced detach stand (R239, R278). -/
  badAt    : Nat := 0
  forcedAt : Nat := 0
  /-- The send on CL began; its ACK is waited for; a hard reset was commanded; an ACK is owed; the line was last busy. -/
  txAt     : Nat := 0
  waitAt   : Nat := 0
  hrAt     : Nat := 0
  ackAt    : Nat := 0
  lineAt   : Nat := 0
  /-- The policy entered its state; each message that awaits a reply was sent, by type; a transition began; a step of a swap was
  taken; GETCAPS or its like began a wait; the discharge began; a WAIT came. -/
  stAt     : Nat := 0
  replies  : List (Nat × Nat) := []
  transAt  : Option Nat := none
  swapAt   : Nat := 0
  capAt    : Nat := 0
  dischAt  : Nat := 0
  resendAt : Nat := 0
  /-- Every line reading since this tick within VTOL of the target; below VSAFE0. -/
  bandAt   : Option Nat := none
  safeAt   : Option Nat := none
  deriving DecidableEq, Repr

/-- The hidden state of a coupler port: the wires and packets of 09, the policy of 10. -/
structure Port where
  /-- The terminations are those of a source; in TOGGLE, the present phase (R227, R235). -/
  src      : Bool := false
  /-- Wire and tick of the window changes of the last CHATWIN, newest first (R237). -/
  changes  : List (Nat × Nat) := []
  /-- The ticks at which the last wire test began and CL last changed its window (R239, R240). -/
  testAt   : Nat := 0
  clAt     : Nat := 0
  /-- A fault result that waits for its confirmation: kind, cause, wire (R239). -/
  bad      : Option (Nat × Nat × Nat) := none
  /-- The port detaches, and a fault result of its test waits for confirmation (R236). -/
  leaving  : Bool := false
  /-- The tick of the last passing test in FAULT (R241). -/
  passAt   : Option Nat := none
  /-- A detach debounce runs since a release of SWAPHOLD found no fitting pattern (R238). -/
  unfit    : Bool := false
  /-- A forced detach holds the terminations of DISABLED (R278). -/
  forced   : Bool := false
  queue    : List Pkt := []
  sending  : Option Pkt := none
  waiting  : Option Pkt := none
  colls    : Nat := 0
  tries    : Nat := 0
  tx       : Nat := 0
  rx       : Option Nat := none
  ack      : Option Nat := none
  /-- The bits that the port has last put on CL: a packet, an ACK or a hard reset (R247). -/
  out      : List Bool := []
  /-- The packet that waits for its delivery to the policy: the tick of its end, type and objects (R252). -/
  deliver  : Option (Nat × Nat × List Nat) := none
  /-- A hard reset is to be sent, and is being sent (R256). -/
  hr       : Bool := false
  hrSending : Bool := false
  /-- The objects of the IDENT sent last since attach or hard reset (R268, R283). -/
  ident    : Option (List Nat) := none
  offTx    : List Nat := []
  offRx    : List Nat := []
  /-- The REQUEST object sent, and the one agreed and not yet in force, in the layout of CPp_CON. -/
  req      : Nat := 0
  neg      : Option Nat := none
  susp     : Bool := false
  /-- The types whose replies are awaited (R275). -/
  resp     : List Nat := []
  /-- A WAIT has come: the same REQUEST goes out again after 100 ms (R267). -/
  resend   : Bool := false
  /-- The context was refused at this attach (R283). -/
  refused  : Bool := false
  /-- Progress of a swap (R280): 0 none, 1 from the ACCEPT, 2 from the former source's READY, 3 from the new source's. -/
  swapStep : Nat := 0
  capExp   : Nat := 0
  /-- The state that SWAP_WAIT left, and whether the own SWAP is withdrawn (R281). -/
  back     : Nat := 0
  yielded  : Bool := false
  /-- Reference 2p and its target in 10 mV / 400,000, and the tick it was formed in (R272). -/
  vref     : Nat := 0
  vtgt     : Nat := 0
  vAt      : Nat := 0
  srcRun   : Bool := false
  snkRun   : Bool := false
  disch    : Bool := false
  /-- The line has been taken below VSAFE0 since the last hard reset (R277). -/
  lineSafe : Bool := true
  clk      : PortClock := {}
  deriving DecidableEq, Repr

/-- The hidden state of CPT beside its ports: coupler notices by ORIGIN, ID and the ID given here, the pairs passed on with
the nanosecond time at which the window ends (R285), and the ports whose mailbox copy is on its way (R287). -/
structure Cpt where
  ports  : Tab Port := []
  idMap  : List (Nat × Nat × Nat) := []
  passed : List (Nat × Nat × Nat) := []
  mail   : Nat := 0
  deriving DecidableEq, Repr

end Sys2Proof.Machine
end

