-- ==== Sys2Proof/Syntax.lean ====
section
/-! DEFINITION. The commands of the W480: one constructor per row of the opcode table. -/

namespace Sys2Proof

/-- What a MIRROR or BULK frame carries (R363, R369): the mirrored bits of a register word, a coefficient word of CEN, the four
words of a schedule entry in the active or the shadow bank, the 64 words of a context slot, or mirrored state that its block
names. A record of hidden state is mirrored in the fields that R55, R117, R145, R173, R223, R258, R290 and R318 name; the
others hold their values at reset. A tick in one is a tick of the receiving chip (log 25). -/
inductive MirrorItem where
  | reg (off word : Nat)
  | coef (slot set off word : Nat)
  | sched (shadow : Bool) (idx w0 w1 w2 w3 : Nat)
  | slot (i : Nat) (words : List Nat)
  /-- fh, 2Δf and the planned windows (R55). -/
  | ang (a : Machine.Ang)
  /-- The legs that the latched trip of a comparator has taken, and a clear that is held (R85). -/
  | trip (n legs : Nat) (heldClear : Bool)
  | intents (l : List Machine.Intent)
  | bus (b : Machine.Bus)
  | cap (x : Machine.Cap)
  | capUnit (shadow : Bool) (k word : Nat)
  | child (k : Nat) (x : Machine.CapChild)
  | binding (k : Nat) (b : Binding)
  /-- Stage timers and hold (R223). -/
  | charger (b : Machine.Bat)
  /-- What BAT keeps of a module, and its registers SOC, Q, Z, ZD and STAT (R223). -/
  | batMod (m : Nat) (x : Machine.BatMod) (words : List Nat)
  | port (p : Nat) (x : Machine.Port)
  /-- GAP pairs, ID map and mailbox (R290). -/
  | gaps (idMap passed : List (Nat × Nat × Nat)) (mail : Nat)
  /-- Broadcast counters of a segment, sent and accepted, and the number its controller gave this chip (R318). -/
  | seg (n : Nat) (tx : List Nat) (rx : List (Option Nat)) (ownCtx : Nat)
  deriving DecidableEq, Repr

/-- A command: a row of the table. -/
inductive Instr where
  /-- A host write to a register that has no row of its own takes effect according to its access code (R6). -/
  | registerWrite (iface : Iface) (off : BitVec 24) (v : Word) (whole : Bool)
  /-- A read of an RC register returns the current value and clears it (R6). -/
  | rcRegisterRead (iface : Iface) (off : BitVec 24)
  /-- A write to PGKEY unlocks the page for the writing interface, or ends the unlock with HIF kind 0x02 when the
  value is wrong (R453). -/
  | pageUnlock (iface : Iface) (p : Fin 25) (v : Word)
  /-- 1 ms without a write to the page through an interface ends that interface's unlock (R453). -/
  | pageUnlockTimeout (iface : Iface) (p : Fin 25)
  /-- Setting PGCTL.LOCK ends the unlock on both interfaces and refuses every later PGKEY write until chip reset
  (R453). -/
  | pageLock (iface : Iface) (p : Fin 25)
  /-- A write of PGCTL.BRST restores the block registers and block state and discards a pending commit (R455). -/
  | pageBlockReset (iface : Iface) (p : Fin 25)
  /-- A write of 0 to PGCTL.EN restores the block once and holds its logic in reset (R455). -/
  | blockLogicHold (iface : Iface) (p : Fin 25)
  /-- A write of 1 to PGCTL.EN releases the block, which starts from its reset state (R455). -/
  | blockLogicRelease (iface : Iface) (p : Fin 25)
  /-- A COMMIT write with MODE 0b01 applies every RWS register of the page at once, or refuses the commit (R454). -/
  | commitImmediate (iface : Iface) (p : Fin 25)
  /-- A COMMIT write with MODE 0b10 makes the commit pending until the next period boundary of the named group (R454).
  -/
  | commitAtBoundary (iface : Iface) (p : Fin 25) (k : Fin 8)
  /-- A COMMIT write with MODE 0b11 makes the commit pending until the stamp at ANGLE plus CYC cycles (R454). -/
  | commitAtAngle (iface : Iface) (p : Fin 25) (angle : BitVec 16) (cyc : Byte)
  /-- A pending commit reaches its point and applies the shadow values of the page, or is refused (R454). -/
  | pendingCommitApply (p : Fin 25)
  /-- A slow-input converter samples its input at the start of a 1 µs slot of the 20 µs frame and delivers the reading
  at its end (R69). -/
  | slowConversion (j : Fin 4) (code : BitVec 16)
  /-- The phase error stays below LOCKERR for LOCKCYC cycles and ANG enters LOCK (R42). -/
  | lockAcquired
  /-- The phase error stays above UNLKERR for UNLKTIME and ANG enters holdover with kind 0x01 (R42). -/
  | unlockDeclared
  /-- The supply stays below level for ANG_LOSS.TIME and ANG declares supply loss (R42). -/
  | supplyLossDeclared
  /-- The supply stays at or above level for RETDB cycles in band, and ANG enters ACQ and applies reacquisition (R42).
  -/
  | supplyPresent
  /-- The frequency estimate is held at a band limit for one cycle, or a reversed sequence is seen, and ANG leaves
  LOCK (R42). -/
  | outOfBand (reversed : Bool)
  /-- The magnitude stays at level with rotation below 5 Hz for 200 ms and ANG steps to VIRT in auto mode (R42). -/
  | dcDetected
  /-- The supply angle reaches the paused stamp and the stamp advances again (R47). -/
  | pauseEnd
  /-- The holdover time reaches MAXT and ANG enters FREE with kind 0x04 (R44). -/
  | holdoverExpired
  /-- The start stamp of an accepted notice is reached in LOCK and ANG enters planned holdover (R49). -/
  | plannedHoldoverStart
  /-- The masked window of a planned holdover ends, and ANG reacquires or declares supply loss (R49). -/
  | plannedWindowEnd
  /-- Every 10 ms ANG updates the holdover drift bound in ANG_DRIFT (R46). -/
  | driftUpdate
  /-- At angle 0x0000 ANG latches the nanosecond time into ANG_CYCTS (R53). -/
  | cycleStart
  /-- A schedule entry with action 0x00 falls due and does nothing beyond its marker (R51). -/
  | schedNone (k : Fin 1024)
  /-- A schedule entry with action 0x01 triggers the named loop slot (R51). -/
  | schedTriggerSlot (k : Fin 1024)
  /-- A schedule entry with action 0x02 starts conversion of the named fast inputs (R51). -/
  | schedStartConversion (k : Fin 1024)
  /-- A schedule entry with action 0x03 lets an announced shed phase drop at the next boundary (R51). -/
  | schedDropShedPhase (k : Fin 1024)
  /-- A schedule entry with action 0x04 adds phases to a group at the next boundary (R51). -/
  | schedAddPhases (k : Fin 1024)
  /-- A schedule entry with action 0x05 sets the enable command of an e-fuse channel (R51). -/
  | schedEfuseOn (k : Fin 1024)
  /-- A schedule entry with action 0x06 clears the enable command of an e-fuse channel (R51). -/
  | schedEfuseOff (k : Fin 1024)
  /-- A schedule entry with action 0x07 releases staged set-point frames of a partner module (R51). -/
  | schedReleaseFrames (k : Fin 1024)
  /-- A schedule entry with action 0x08 writes a recorder marker (R51). -/
  | schedRecorderMarker (k : Fin 1024)
  /-- A schedule entry with action 0x09 writes a host event entry to the event ring (R443). -/
  | schedHostEvent (k : Fin 1024)
  /-- The copy of the new active bank into the shadow bank ends, BUSY clears and held writes are carried out (R52). -/
  | bankCopyDone
  /-- ANG_SOP operation 0b01 reads the entry at IDX into ANG_SW0–SW3 (R512). -/
  | scheduleReadEntry (auto : Bool)
  /-- ANG_SOP operation 0b10 writes ANG_SW0–SW3 to the shadow entry at IDX (R512). -/
  | scheduleWriteEntry (auto : Bool)
  /-- ANG_SOP operation 0b11 clears the shadow bank (R57). -/
  | scheduleClearBank (auto : Bool)
  /-- A read of ANG_NOWA latches the cycle count and nanosecond time of the same tick (R53). -/
  | angleNowRead
  /-- A write to ANG_NSSTEP_HI adds the signed step to the nanosecond time and sets NSDISC (R53). -/
  | nsTimeStep (hi : Word)
  /-- A write to ANG_NSADJ sets the rate correction of the nanosecond time and sets NSDISC (R53). -/
  | nsRateAdjust (v : Word)
  /-- A group's PWM counter reaches its period boundary and the new period starts with its shifts, drops, adds and
  trims (R61). -/
  | pwmPeriodBoundary (k : Fin 6) (half : Bool)
  /-- No schedule action 0x03 fires within ANNTO and the announcement is withdrawn with kind 0x02 (R80). -/
  | shedAnnounceTimeout (k : Fin 6)
  /-- A write to LEG_OUTCTL holds both outputs of the named legs low or releases them (R66). -/
  | legForceOff (v : Word)
  /-- A fast input samples at its trigger point, deferred to the 100 ns mark if needed (R67). -/
  | fastConversionStart (n : Fin 16)
  /-- A fast-input reading becomes ready 150 ns after sampling, is calibrated and stamped, and passes to CEN (R67). -/
  | fastReadingReady (n : Fin 16) (raw : BitVec 14)
  /-- Once per OWPER ms the bias of each tested input is reversed for one conversion and open inputs are declared
  (R70). -/
  | openWireTest (fast : Bool) (n : Fin 32) (moved : BitVec 16)
  /-- A comparator's output stays asserted for its deglitch time and its trip-matrix action acts (R71). -/
  | comparatorAssert (e : CmpSeen)
  /-- A comparator's output releases at the threshold less hysteresis (R71). -/
  | comparatorRelease (e : CmpSeen)
  /-- A write to CMP_TRIPCLR clears a latched trip, is held, or is refused as stuck with kind 0x20 (R74). -/
  | tripClear (v : Word)
  /-- A held clear is applied once the input has stayed released for the deglitch time (R74). -/
  | heldClearApply (n : Fin 24)
  /-- More than COUNT output edges in WIN µs raise kind 0x10 and hold the comparator in its safe state (R74). -/
  | chatterDetected (n : Fin 24)
  /-- Depth and slope conditions coincide and every leg of the group drives its catch switch on (R77). -/
  | stepCatchFire (k : Fin 6)
  /-- TCATCH ends, the catch switches turn off, CEN is signalled and holdoff and shed freeze start (R78). -/
  | stepCatchEnd (k : Fin 6)
  /-- The Step Catch holdoff of a group runs out (R78). -/
  | catchHoldoffEnd (k : Fin 6)
  /-- The shedding freeze after a catch runs out (R78). -/
  | shedFreezeEnd (k : Fin 6)
  /-- The standby cannot keep its shadow PWM aligned and kind 0x04 (LEG) is raised (R85). -/
  | pwmAlignmentLost
  /-- A write to CEN_HTRIG triggers host-triggered slots, deferred to the 100 µs mark if needed (R96). -/
  | cenHostTrigger (v : Word)
  /-- A deferred host trigger reaches its 100 µs mark and triggers the slot (R96). -/
  | deferredHostTrigger (sl : Fin 32)
  /-- The engine starts the highest-priority waiting slot and runs one iteration through output, selection, dispatch
  and update (R94). -/
  | cenIteration
  /-- A write to CEN_SEED requests seeding of the named slots at their next iteration (R111). -/
  | seedRequest (v : Word)
  /-- A write to CEN_CDATA stores a coefficient or state word, or is refused with kind 0x20 (R116). -/
  | coefficientWrite (v : Word)
  /-- A read of CEN_CDATA returns the word at CEN_CADDR and advances it with AUTOINC (R115). -/
  | coefficientRead
  /-- The bus stays below UV for UVT and undervoltage is declared (R123). -/
  | busUndervoltage
  /-- The bus stays above OV for OVT and overvoltage is declared (R123). -/
  | busOvervoltage
  /-- UNMET stays non-zero for UNMT and kind 0x08 is raised (R127). -/
  | demandUnmet
  /-- A source's current differs from its share beyond SHERR for 100 ms and kind 0x40 is raised (R128). -/
  | sharingError (k : Fin 8)
  /-- Every BUS_SPTIM.PER each enabled channel sends or stages one set-point frame (R129). -/
  | setpointSend
  /-- No report arrives from a channel's context for TOUT and the channel enters droop (R132). -/
  | channelDroopEnter (n : Fin 8)
  /-- The bus stays below VDIP for TDIP with a line source sharing, and loss of the line is detected (R135). -/
  | busDipDetect
  /-- The take-over is not complete within a quarter cycle and kind 0x04 is raised (R137). -/
  | takeoverLate
  /-- A notice reaches S − TLEAD and BUS enters PREP with the battery on bus duty (R141). -/
  | noticePrepStart
  /-- The ramp start of a notice is reached and the line factor begins to fall (R141). -/
  | rampStart
  /-- The line factor reaches 0, BUS enters HOLD and the front-end legs are held off (R141). -/
  | rampEnd
  /-- Every 1 ms the line factor moves one step during RAMP or RETURN (R125). -/
  | lineFactorStep
  /-- ANG stays in LOCK for RETDLY, and at the next cycle start BUS seeds slots, releases the front end and starts
  RETURN (R142). -/
  | returnStart
  /-- A write of BUS_GNOP with OP post judges and queues, merges or refuses a gap notice (R140). -/
  | gapNoticePost (form : Fin 2) (id : BitVec 4) (dur : BitVec 24)
  /-- A write of BUS_GNOP with OP cancel removes a notice or refuses it (R140). -/
  | gapNoticeCancel (id : BitVec 4)
  /-- Every REPPER the shelf and heads send reports and grants and divide again (R150). -/
  | capReportPeriod
  /-- A grant object is accepted or ignored and an accepted grant is divided with its effective point (R150). -/
  | grantReceive (f : RxFrame)
  /-- A report object from a child is taken as its FLOOR, MAX and WANT (R151). -/
  | capReportReceive (f : RxFrame)
  /-- A grant reaches its effective point and the new caps take effect in every enforcer (R158). -/
  | grantEffective (level : Fin 4)
  /-- No grant arrives for GRANTTO and the shelf divides its fallback budget (R161). -/
  | grantLost (level : Fin 4)
  /-- Measured power stays above budget plus margin for OVRT and kind 0x08 is raised (R161). -/
  | overBudget
  /-- Once per OVRT while over budget, CAP switches off the next listed channel (R161). -/
  | capShedStep
  /-- A write of CAP_LIOP POST judges, bounds and routes a load intent (R163). -/
  | loadIntentPost (ns : Bool)
  /-- An election object from a car head updates the set of reachable candidates (R165). -/
  | electionObjectReceive (f : RxFrame)
  /-- ELECTT passes after the last change and the consist head is elected and numbers the cars (R165). -/
  | electionSettle
  /-- The car head's reports stop for GRANTTO and the next candidate takes the role (R164). -/
  | carHeadFailover
  /-- A write to CAP_RLA starts a registry lookup (R171). -/
  | registryLookup (a : Word)
  /-- The lookup completes and the entry appears in CAP_RLD0–RLD3 (R171). -/
  | registryLookupDone
  /-- An entry not refreshed for 4 × REPPER is marked STALE (R170). -/
  | entryStale (a : Word)
  /-- CAP_XINOP kind 0b01 delivers an incoming grant from the host mailbox (R149). -/
  | xinGrantDeliver
  /-- CAP_XINOP kind 0b10 delivers an incoming report from the host mailbox (R149). -/
  | xinReportDeliver
  /-- CAP_XINOP kind 0b11 delivers an incoming election object from the host mailbox (R149). -/
  | xinElectionDeliver
  /-- Each 1 µs frame the EFU converter reads current and output voltage of every channel (R178). -/
  | efuSenseFrame (codes : List (BitVec 12 × BitVec 12))
  /-- Every 100 ns each channel is judged in order on its comparators and latest readings (R180). -/
  | efuEvaluationTick (isV : List Nat) (gsV : List Nat)
  /-- A write to EFU_CHEN sets or clears channel enable commands (R179). -/
  | channelEnableCommand (v : Word)
  /-- A write to EFU_DMGCLR clears the damage mark of a disabled damaged channel (R179). -/
  | damageClear (v : Word)
  /-- The gate-rise timer reaches tGateRise and the channel latches DAMAGED (R181). -/
  | gateRiseTimeout (n : Fin 16)
  /-- In ON the gate comparator stays released for tGateRise and the channel latches DAMAGED (R182). -/
  | gateLostInOn (n : Fin 16)
  /-- Current flows through a commanded-off pass stage for tGateRise and the channel latches DAMAGED (R182). -/
  | offStateCurrent (n : Fin 16)
  /-- The fault timer reaches FT and the channel trips with kind 0x01 (R183). -/
  | faultTimerTrip (n : Fin 16)
  /-- The sense crosses twice the limit and EF_EN goes low within 50 ns (R184). -/
  | overcurrentTrip (n : Fin 16)
  /-- In limit with a low output slope for tShortDetect, the channel trips with kind 0x04 (R185). -/
  | shortDuringRamp (n : Fin 16)
  /-- The output stays below VIN + REVTH/2 for 1 ms and the channel leaves REV (R186). -/
  | reversalCleared (n : Fin 16)
  /-- The retry wait ends and the channel returns to PRECHK (R187). -/
  | retryWaitEnd (n : Fin 16)
  /-- Power-good stays asserted for RCLR and the retry count is reloaded (R187). -/
  | retryReload (n : Fin 16)
  /-- The power-good conditions hold for the PG delay and power-good is asserted (R189). -/
  | powerGoodAssert (n : Fin 16)
  /-- Every 10 µs the share codes of a paired feed are updated (R191). -/
  | pairShareUpdate (k : Fin 8)
  /-- The split of a pair stays outside 45–55 % for 100 ms and kind 0x40 cause 2 is raised (R192). -/
  | pairShareError (k : Fin 8)
  /-- The mean current over CAPT exceeds Icap and the channel reports or switches into CAPOFF (R193). -/
  | capExceeded (n : Fin 16) (mean : Nat)
  /-- Every 1 ms in RUN or 1 s in IDLE BAT steps each module's charge, lags and voltage estimate (R204). -/
  | estimatorStep
  /-- The current stays below IREST for TREST and Q is re-anchored from the curve (R206). -/
  | restAnchor (m : Fin 16)
  /-- Once per second while charging, Q moves 1/64 toward the curve value (R206). -/
  | chargingCorrection (m : Fin 16)
  /-- A module misses four report periods and is marked STALE with kind 0x20 (R201). -/
  | moduleStale (m : Fin 16)
  /-- At t0 + 105 ms the window is accepted and its terms are written, or abandoned (R211). -/
  | impedanceWindowJudge (k : Fin 4)
  /-- TPRE passes in PRE and the charger holds in OFF with kind 0x04 (R213). -/
  | prechargeTimeout
  /-- TBULK passes since BULK and the charger holds in OFF with kind 0x04 (R213). -/
  | bulkTimeout
  /-- The command stays below ITAPER for 60 s and ABS ends with an end-of-charge anchor (R213). -/
  | chargeTaperDone
  /-- Every 10 ms in ABS or FLOAT the charge command moves with the voltage error (R214). -/
  | absorptionUpdate
  /-- The lowest cell stays at VCUT for 1 s and DEEP holds the discharge limit at 0 (R215). -/
  | deepDischarge (m : Fin 16)
  /-- The lowest cell stays above VCUT + VDTAPER for 60 s at rest and DEEP clears (R215). -/
  | deepRelease (m : Fin 16)
  /-- The idle conditions hold for THIB and BAT enters IDLE (R217). -/
  | idleEnter
  /-- BAT_ROP OP save snapshots every slot into the read buffer and updates the always-on items (R220). -/
  | recordSave
  /-- BAT_ROP OP 0b10 clears the staging buffer (R221). -/
  | stagingClear
  /-- A write to BAT_RCW checks the staged record and restores the live values or refuses (R221). -/
  | restoreCommit (cw : Word)
  /-- An access to BAT_RDATA reads the read buffer or writes the staging buffer and advances WORD (R220). -/
  | recordBufferAccess (w : Option Word)
  /-- A coupler wire holds a new window for 1 ms and the filtered window changes (R231). -/
  | wireWindowChange (p : Fin 4) (wire : Fin 3) (mv : BitVec 13)
  /-- A whole CHATWIN passes without change and the port returns to its unattached state (R237). -/
  | chatterHoldEnd (p : Fin 4)
  /-- A waiting pattern holds for CFGDB, the wire test passes and the port attaches (R236). -/
  | attachDebounceEnd (p : Fin 4) (w : WireTest)
  /-- The role wire leaves SINK for DETDB and the port detaches after one wire test (R236). -/
  | detachDebounceEnd (p : Fin 4) (w : WireTest)
  /-- A source sees MARKER, LOW for 2 × CFGDB and maps itself (R234). -/
  | sourceSelfMap (p : Fin 4)
  /-- A dual-role toggle phase ends and the port changes role (R235). -/
  | togglePhaseEnd (p : Fin 4)
  /-- Every PROBEPER the port runs its three-step wire test (R239). -/
  | wireTestPeriodic (p : Fin 4)
  /-- A write of CPn_CMD.TEST runs the wire test (R239). -/
  | wireTestCommand (p : Fin 4)
  /-- The three test steps end and the test is judged (R240). -/
  | wireTestComplete (p : Fin 4) (w : WireTest)
  /-- After a 2–4 ms pause a second test confirms a fault result (R239). -/
  | wireTestConfirm (p : Fin 4) (w : WireTest)
  /-- The contract wire has been idle for IFS and a queued packet starts (R244). -/
  | packetTransmitStart (p : Fin 4)
  /-- The last symbol is sent, the wire is brought low and the ACK wait starts (R243). -/
  | packetTransmitEnd (p : Fin 4)
  /-- The receiver differs from the driver, the port stops and resends after IFS (R244). -/
  | collision (p : Fin 4)
  /-- A packet is judged, discarded or acknowledged and delivered to the policy (R252). -/
  | packetReceive (p : Fin 4) (set : List (BitVec 5)) (body : List (BitVec 5)) (ended : Bool)
  /-- 25–150 µs after a packet's ET the receiver sends its ACK (R254). -/
  | ackSend (p : Fin 4)
  /-- The matching ACK ends the sender's wait and the MSGID increments (R255). -/
  | ackReceived (p : Fin 4) (id : Fin 8)
  /-- ACKWAIT passes without an ACK and the packet is resent or the send fails (R255). -/
  | ackTimeout (p : Fin 4)
  /-- A commanded hard reset goes ahead of every queued packet once the wire is idle (R256). -/
  | hardResetSend (p : Fin 4)
  /-- The wire is not idle within 2 ms and the hard reset is sent regardless (R256). -/
  | hardResetForced (p : Fin 4)
  /-- A hard reset ordered set is recognised and the port ends its contract and returns to its default role (R277). -/
  | hardResetReceive (p : Fin 4)
  /-- An ACCEPT is delivered to the policy (R267). -/
  | acceptReceived (p : Fin 4)
  /-- A REJECT is delivered to the policy (R267). -/
  | rejectReceived (p : Fin 4)
  /-- A READY is delivered and the contract comes into force (R271). -/
  | readyReceived (p : Fin 4)
  /-- A GETCAPS is delivered and the source sends OFFER (R267). -/
  | getcapsReceived (p : Fin 4)
  /-- A SWAP is delivered and answered with ACCEPT, REJECT or WAIT (R279). -/
  | swapReceived (p : Fin 4)
  /-- A WAIT is delivered and the REQUEST is repeated after 100 ms (R267). -/
  | waitReceived (p : Fin 4)
  /-- 100 ms after a WAIT the sink sends the same REQUEST again (R267). -/
  | waitResend (p : Fin 4)
  /-- A soft reset is delivered, answered with ACCEPT and the contract suspended (R276). -/
  | sresetReceived (p : Fin 4)
  /-- A NOTSUPP is delivered to the policy (R267). -/
  | notsuppReceived (p : Fin 4)
  /-- An OFFER is delivered and the sink chooses an object and sends REQUEST (R269). -/
  | offerReceived (p : Fin 4) (objs : List Word)
  /-- A REQUEST is judged and answered with WAIT, REJECT, ACCEPT or a contract error (R270). -/
  | requestReceived (p : Fin 4) (w : Word)
  /-- An IDENT is stored in the context and passed to CAP (R283). -/
  | identReceived (p : Fin 4) (o0 : Word) (o1 : Word) (o2 : Word)
  /-- An INTENT message is recorded and passed to CAP when a contract is in force (R284). -/
  | intentReceived (p : Fin 4) (o0 : Word) (o1 : Word) (o2 : Word) (o3 : Word)
  /-- A GAP message is passed to BUS as a coupler notice and forwarded when allowed (R285). -/
  | gapReceived (p : Fin 4) (o0 : Word) (o1 : Word) (o2 : Word) (o3 : Word)
  /-- A RELAY on a trunk port goes to the car head's CAP, or is dropped (R286). -/
  | relayReceived (p : Fin 4) (objs : List Word)
  /-- A packet of an unlisted TYPE is answered with NOTSUPP (R267). -/
  | unknownTypeReceived (p : Fin 4)
  /-- tSenderResponse runs out on a trunk port and SRESET or a hard reset is sent (R274). -/
  | senderResponseTimeout (p : Fin 4)
  /-- tTransitionMax runs out and a hard reset or forced detach follows (R274). -/
  | transitionTimeout (p : Fin 4)
  /-- tSinkWaitCap runs out and GETCAPS is sent, escalating on the third expiry (R274). -/
  | sinkWaitCapTimeout (p : Fin 4)
  /-- tSwapOff runs out and the swap fails with kind 0x08 (R274). -/
  | swapOffTimeout (p : Fin 4)
  /-- tSwapOn runs out and the swap fails with kind 0x08 (R274). -/
  | swapOnTimeout (p : Fin 4)
  /-- tSafe0 runs out during a discharge and the port enters BLOCKED cause 2 (R274). -/
  | safe0Timeout (p : Fin 4)
  /-- tReqRetry runs out in SNK_NOCON and GETCAPS is sent (R274). -/
  | reqRetryTimeout (p : Fin 4)
  /-- The line stays within VTOL of VREQ for 1 ms and the source sends READY (R272). -/
  | sourceSettled (p : Fin 4)
  /-- The line stays below VSAFE0 for 1 ms and the discharge run stops (R277). -/
  | lineDischarged (p : Fin 4)
  /-- The former source's line current stays below 5 % for 1 ms and it hands over the line with READY (R280). -/
  | swapLineReleased (p : Fin 4)
  /-- DETDB after a forced detach the attach machine restarts in its unattached state (R278). -/
  | forcedDetachRelease (p : Fin 4)
  /-- CPp_PCMD.SWAP requests a role swap (R279). -/
  | swapCommand (p : Fin 4)
  /-- CPp_PCMD.RENEG makes the source send OFFER or the sink send REQUEST (R267). -/
  | renegCommand (p : Fin 4)
  /-- CPp_PCMD.SRESET sends a soft reset (R267). -/
  | sresetCommand (p : Fin 4)
  /-- CPp_PCMD.HRESET sends a hard reset (R256). -/
  | hresetCommand (p : Fin 4)
  /-- CPp_PCMD.UNBLOCK makes a blocked port leave BLOCKED by forced detach (R267). -/
  | unblockCommand (p : Fin 4)
  /-- Within 10 ms of a change of identity fields an attached port sends IDENT again (R283). -/
  | identResend (p : Fin 4)
  /-- CPT_TXOP kind INTENT queues an INTENT on each named port with a contract (R287). -/
  | mailboxSendIntent (ports : BitVec 4)
  /-- CPT_TXOP kind GAP queues a GAP on each named port with a contract (R287). -/
  | mailboxSendGap (ports : BitVec 4)
  /-- The command pair is free after tGAP and the transmitter starts the next frame by class (R300). -/
  | frameTransmitStart (n : Fin 2)
  /-- The last CRC bit is sent and the transmitter releases the pair (R295). -/
  | frameTransmitDone (n : Fin 2)
  /-- A ready C0 frame cuts the frame in progress at the next 32-bit boundary (R300). -/
  | c0FrameCut (n : Fin 2)
  /-- A context's POLLPER comes due and the controller sends a POLL (R302). -/
  | pollDue (k : Byte)
  /-- The response pair idles 400 ns after a frame and the grant ends (R302). -/
  | grantEnd (n : Fin 2)
  /-- No start arrives within 2.5 µs of a POLL and a miss is counted (R302). -/
  | missedPoll (n : Fin 2)
  /-- Every DISCPER a controller-mode segment sends DISCOVER and opens its slots (R304). -/
  | discoverPeriod (n : Fin 2)
  /-- A valid HELLO gets a context and node address and an ASSIGN is sent (R305). -/
  | helloReceived (f : RxFrame)
  /-- A REPORT frame from a partner updates its context and the blocks that use it (R308). -/
  | reportReceive (f : RxFrame)
  /-- An ELEMREP frame updates element powers of a partner (R308). -/
  | elemrepReceived (f : RxFrame)
  /-- An IDLE frame shows the partner has nothing to send (R297). -/
  | idleFrameReceived (f : RxFrame)
  /-- A LEAVE frame detaches the partner into LINGER (R306). -/
  | leaveReceived (f : RxFrame)
  /-- An INTENT frame on the shelf link passes a load intent to CAP (R297). -/
  | slIntentReceived (f : RxFrame)
  /-- A GAPFWD frame carries a GAP message from another shelf (R285). -/
  | gapfwdReceived (f : RxFrame)
  /-- A HOSTMSG frame is delivered to the receive ring as a host entry (R442). -/
  | hostmsgReceived (f : RxFrame)
  /-- In partner mode a POLL grants the response pair and the W480 answers with a REPORT (R302). -/
  | pollReceived (f : RxFrame)
  /-- In partner mode an ASSIGN gives the W480 its node and a context for the controller (R309). -/
  | assignReceived (f : RxFrame) (ctlId : BitVec 64)
  /-- In partner mode an unassigned W480 picks a slot and sends HELLO (R304). -/
  | discoverReceived (f : RxFrame)
  /-- In partner mode a TIME frame gives the angle and time reference (R307). -/
  | timeReceived (f : RxFrame)
  /-- In partner mode a FORGET returns the W480 to unassigned (R308). -/
  | forgetReceived (f : RxFrame)
  /-- A JOINING slot reaches JOINTO and returns to FREE with kind 0x08 (R313). -/
  | joinTimeout (k : Byte)
  /-- No valid frame for SEGTO, or no valid level, declares the segment down (R306). -/
  | segmentDown (g : SegSeen)
  /-- Every TIMEPER a controller-mode segment sends a TIME frame (R307). -/
  | timeFramePeriod (n : Fin 2)
  /-- In partner mode no command frame arrives for SEGTO and kind 0x20 is raised (R309). -/
  | controllerLost (n : Fin 2)
  /-- Every PMB_CTL.PER a device's status and readings are polled (R311). -/
  | pmbPollCycle (k : Fin 8)
  /-- A PMBus transaction completes (R310). -/
  | pmbTransactionDone (reply : PmbReply) (data : BitVec 16)
  /-- A transaction held over 25 ms is aborted and the bus is recovered (R310). -/
  | pmbTransactionTimeout (sdaLow : Bool)
  /-- A write of PMB_HCMD.GO starts a host transaction ahead of the next cycle (R311). -/
  | pmbHostTransaction (addr : BitVec 7) (code : Byte) (op : Fin 8) (pec : Bool)
  /-- The linger time ends and the context is reclaimed (R314). -/
  | lingerEnd (k : Byte)
  /-- A write of CTX_FORGET.GO detaches the named context (R316). -/
  | contextForget (k : Byte)
  /-- A read of word 0 of CTX_SDATA latches the whole slot (R316). -/
  | contextSlotRead
  /-- Once space returns a LOST record is written for a REC ring (R326). -/
  | lostRecordWrite (k : Fin 32)
  /-- The spill engine drains the fullest ring to LPDDR4X or host memory (R328). -/
  | spillDrain
  /-- A ring with entries waiting gets no drain for 100 µs and kind 0x02 is raised (R328). -/
  | spillStall (k : Fin 32)
  /-- A read of RNG_RPDATA returns 4 bytes at RD and advances RD (R329). -/
  | ringPortRead
  /-- A host write of RNG_RGk_RD frees space, or is refused past WR (R329). -/
  | hostReadIndexWrite (k : Fin 32) (v : Word)
  /-- Every 1 ms REC writes a checkpoint of each history ring (R330). -/
  | ringCheckpoint
  /-- Every INT × 100 ns a waveform stream takes a sample set and closes records when full (R332). -/
  | waveSample (m : Fin 16)
  /-- Every CTXPER × 500 µs REC writes CTXSTATE records of selected contexts (R333). -/
  | ctxstatePeriod
  /-- A write of REC_NOTEOP writes a NOTE record from the note registers (R334). -/
  | noteWrite (len : Fin 8)
  /-- A write of REC_HTRIG fires the named entries (R336). -/
  | hostTriggerFire (fire : Byte)
  /-- A window's end checkpoint passes and it becomes ready once its rings have drained (R337). -/
  | windowEnd (tag : Nat)
  /-- The sealer takes the next ready window and assigns its WSEQ (R339). -/
  | sealStart
  /-- A flash page program completes and sealing continues (R340). -/
  | flashPageProgrammed
  /-- A flash block erase completes (R340). -/
  | flashEraseDone
  /-- A program or erase fails or exceeds TOUT and kind 0x10 is raised (R340). -/
  | flashOperationTimeout
  /-- When idle REC erases ahead to keep RESV bytes erased (R340). -/
  | reserveErase
  /-- After start REC scans the seal area for the last complete window (R343). -/
  | areaScan
  /-- A write of REC_FOP.FORMAT erases the area, or is refused while sealing (R346). -/
  | areaFormat
  /-- A read of REC_FRD returns 4 bytes of the area, waiting for a page program (R343). -/
  | flashRead
  /-- The 2 ms listen in START ends and PAR moves by what it heard (R357). -/
  | pairStartListenEnd (highFor : BitVec 32)
  /-- Every 1 µs PAR sends an IDLE frame with its state (R363). -/
  | pairIdleSend (guyLow : Bool)
  /-- An IDLE frame updates the partner's state (R363). -/
  | pairIdleReceived (x : PairIdle)
  /-- Every LEASE/4 the holder sends STAKE (R354). -/
  | stakeSend
  /-- A STAKE frame is answered with STAKE ACK (R354). -/
  | stakeReceived (gen : BitVec 16)
  /-- A STAKE ACK renews the holder's lease (R354). -/
  | stakeAckReceived
  /-- Every LEASE/4 the holder renews its own lease when allowed (R354). -/
  | selfRenew
  /-- The lease expiry passes, GUY is released and ACT_N deasserted (R354). -/
  | leaseLapse
  /-- LEASE + GUARD pass since the last STAKE ACK and the partner's lease is deemed lapsed (R355). -/
  | partnerLeaseLapsed
  /-- GUY reads high for GUYFREE and the chip drives GUY low and starts CLAIM (R356). -/
  | guylineClaim (highFor : BitVec 32)
  /-- CLAIM ends and ACT_N is asserted at the next REFG boundary (R356). -/
  | claimEnd
  /-- The supervisor cores disagree and give-up cause 1 reaches SAFE (R358). -/
  | lockstepMismatch
  /-- An uncorrectable memory error is reported by SUP and is give-up cause 5 (R378). -/
  | uncorrectableError (mem : Fin 3) (addr : Word)
  /-- Correctable errors exceed 16 in 1 s and SUP kind 0x10 is raised (R378). -/
  | correctableErrorBurst (mem : Fin 4) (n : Nat)
  /-- A YIELD is answered with TAKE when the chip may take the Stake (R360). -/
  | yieldReceived
  /-- A TAKE makes the yielding or offering chip release GUY (R360). -/
  | takeReceived
  /-- No TAKE arrives within LEASE of a YIELD and the chip enters the Bivouac keeping the Guyline (R360). -/
  | noTakerTimeout
  /-- A write of PAR_CMD.YIELD is give-up cause 8 (R358). -/
  | yieldCommand (iface : Iface)
  /-- A write of PAR_CMD.HANDOVER sends OFFER with boundary B, or is refused (R361). -/
  | handoverCommand (iface : Iface)
  /-- An OFFER is answered with TAKE by a synchronised standby (R361). -/
  | handoverOfferReceived (b : Nat)
  /-- At boundary B the chips exchange ACT_N and GUY in one tick (R361). -/
  | handoverBoundary
  /-- No TAKE 10 µs before B abandons the handover and sets HOREF (R361). -/
  | handoverAbandon
  /-- An ALIGN frame updates the standby's stamp and PWM alignment (R363). -/
  | alignReceived (stamp : Stamp) (phases : List (Fin 6 × Nat))
  /-- An APPLIED frame gives the standby the applied actuator values (R117). -/
  | appliedReceived (vs : List (Byte × Word))
  /-- An SLFRAME copy is acknowledged and sent on the standby's command pair (R366). -/
  | slframeReceived (n : Fin 2) (q : BitVec 16) (f : Frame)
  /-- A MIRROR frame updates committed values on the standby (R369). -/
  | mirrorReceived (q : BitVec 16) (m : MirrorItem)
  /-- A FIRE frame opens the same recorder window on the partner (R347). -/
  | fireReceived (q : BitVec 16) (j : Fin 8) (fault : BitVec 16) (addr : Word)
  /-- A BULK frame carries part of the resynchronisation copy (R369). -/
  | bulkReceived (q : BitVec 16) (m : MirrorItem)
  /-- An acknowledged frame unanswered for 4 µs is sent again (R363). -/
  | pairFrameResend
  /-- A lane carries no valid frame for LINKTO and is declared down (R363). -/
  | pairLaneDown (lane : Fin 2)
  /-- The copy ends and every slot has settled for SETTLE, and SYNCED is set (R369). -/
  | resyncComplete
  /-- The shelf-link mirror stays invalid over 1.0 s and kind 0x40 cause 2 is raised (R367). -/
  | mirrorOutage
  /-- A block sets a coded message and its lane decides the incident and starts its reactions within 40 ns (R376). -/
  | faultMessage (source : Fin 26) (kind : Byte) (addr : Word)
  /-- The serial stage serves one message, updates the incident table and hands it to REC (R376). -/
  | faultBookkeeping
  /-- A write of FLT_ICLOSE closes the named incidents without BIV (R385). -/
  | incidentClose (iface : Iface) (v : Word)
  /-- The supervisor ends its trap handling and closes the incident its trap handled (R385). -/
  | trapHandledClose (source : Fin 26)
  /-- ACLOSE runs out after an incident's last message and the incident closes (R385). -/
  | incidentAutoClose (source : Fin 26)
  /-- The HNMI pulse width runs out and HNMI_N is released (R388). -/
  | hnmiPulseEnd
  /-- MINW passes and ERR_N is released when no cause remains (R387). -/
  | errMinWidthEnd
  /-- A write of the key to FLT_BIVCMD enters the Bivouac with cause 4 (R393). -/
  | bivouacCommand (iface : Iface) (key : Word)
  /-- A write of FLT_BIVACK clears FLT_BIVST and ends the start hold (R396). -/
  | bivouacAck (iface : Iface)
  /-- A write of FLT_INJ.GO sets a message handled as a real one (R400). -/
  | faultInject (iface : Iface) (source : Byte) (kind : Byte)
  /-- A read of word 0 of FLT_IDATA latches the incident entry (R386). -/
  | incidentRead (iface : Iface)
  /-- The reference clock stops and SAFE enters the Bivouac on its own within 10 µs (R36). -/
  | refclkLost
  /-- The clock monitor finds the reference outside 25 MHz ± 2 % and reports it (R36). -/
  | refclkOutOfRange
  /-- The supervisor serves the watchdog and the service is judged accepted or early (R402). -/
  | supervisorService (run : SupRun)
  /-- No service by s + SCLOSE gives a late failure and give-up cause 4 (R402). -/
  | supervisorServiceLate (run : SupRun)
  /-- A write to WDG_TSk_SVC is judged as accepted, early or stutter (R408). -/
  | taskCheckIn (iface : Iface) (k : Fin 16) (site : Word)
  /-- A host cycle closes, missing slots raise kind 0x04 and a new cycle starts (R409). -/
  | hostCycleClose
  /-- A write of WDG_EVCLR clears an evidence block (R410). -/
  | evidenceClear (iface : Iface) (sup : Bool) (host : Bool)
  /-- T ticks after hibernate entry the wake timer wakes the chip (R411). -/
  | wdgWakeTimer
  /-- The 32.768 kHz crystal stops and AO reports it (R401). -/
  | aoOscillatorStop
  /-- The crystal runs again and WDG returns to it at the next tick boundary (R401). -/
  | crystalReturn
  /-- UPD_OP START opens a session and erases the idle bank (R421). -/
  | updateStart (iface : Iface) (kind : Fin 4)
  /-- The erase of the idle bank completes and the session is ready for blocks (R421). -/
  | bankEraseDone (ok : Bool)
  /-- A write of UPD_BOP.COMMIT judges the staged block and programs it or refuses it (R422). -/
  | blockCommit (iface : Iface)
  /-- A block finishes programming and BUSY clears (R423). -/
  | blockProgrammed (ok : Bool)
  /-- UPD_OP FINISH starts the read-back and checks of the bank (R421). -/
  | updateFinish (iface : Iface)
  /-- The read-back checks end and VERIFIED is written or the finish is refused (R421). -/
  | verificationDone
  /-- UPD_OP ABORT closes the open session (R421). -/
  | updateAbort (iface : Iface)
  /-- UPD_OP ACTIVATE writes GEN to the named verified banks or refuses (R424). -/
  | updateActivate (iface : Iface) (tgt : BitVec 4)
  /-- UPD_OP CONFIRM writes CONFIRMED to trial banks and raises the floor (R427). -/
  | updateConfirm (iface : Iface)
  /-- CONFT minutes pass without Bivouac entry and UPD confirms on its own (R427). -/
  | autoConfirm
  /-- A write to UPD_LOCK sets or clears the owner lock (R429). -/
  | ownerLockWrite (iface : Iface) (code : Word)
  /-- A MOTION level change held for MOTDB changes the filtered level, or counts as chatter (R430). -/
  | motionChange (edge : MotionEdge)
  /-- MOTION stays asserted 10 minutes and kind 0x10 cause 1 is latched (R430). -/
  | motionStuck
  /-- A whole CHATWIN passes without change and the chatter hold of MOTION ends (R430). -/
  | motionChatterEnd
  /-- A due message is sent once its vector and the function are unmasked (R440). -/
  | msixMessageSend (v : Fin 32)
  /-- A write to HIF_EOI clears a vector's latch and may make a new message due (R440). -/
  | endOfInterrupt (iface : Iface) (w : Word)
  /-- An unread entry older than RTO makes the ring's interrupt pending (R439). -/
  | ringInterruptTimeout (k : Fin 32)
  /-- PERST_N, hot reset, link-down, FLR or D3hot reset only the PCIe part of HIF (R438). -/
  | pcieReset (err : Bool)
  /-- A received frame is stamped and written to a receive descriptor, or dropped and counted (R445). -/
  | macFrameReceive (n : Fin 2) (addr : BitVec 64) (frame : List Byte) (fcs : Word)
  /-- A host write of TAIL hands descriptors to the W480 (R445). -/
  | macTailWrite (n : Fin 2) (rx : Bool) (v : Word)
  /-- The MAC sends the next owned transmit frame and writes back its descriptor with stamps (R445). -/
  | macFrameTransmit (n : Fin 2) (len : BitVec 16) (frame : List Byte)
  /-- HIF_PTPOP kind 0b01 gives the servo a Sync alone (R447). -/
  | ptpSyncOnly (iface : Iface)
  /-- HIF_PTPOP kind 0b10 gives the servo a full exchange and it steps or adjusts the time (R447). -/
  | ptpFullExchange (iface : Iface)
  /-- An SPI write frame is applied at SPI_CS_N rise when well formed, or discarded (R449). -/
  | spiWriteFrame (bytes : List Byte)
  /-- An SPI read frame returns n words and a CRC (R449). -/
  | spiReadFrame (addr : BitVec 24) (n : Fin 65)
  /-- An SPI status opcode returns one status byte (R449). -/
  | spiStatusRead
  /-- A rail stays outside its window for 2 µs and PWR kind 0x01 is raised (R464). -/
  | railOutOfWindow (code : BitVec 4) (seen : RailSeen)
  /-- A rail stays 1 ms back in its window and the episode ends (R464). -/
  | railEpisodeEnd (code : BitVec 4)
  /-- A rail falls below its reset level and power-on reset is asserted (R470). -/
  | powerOnReset (rail : RailLevel)
  /-- The core, analog and SAFE-bank rails stay in their windows for tPOR and reset is released (R466). -/
  | powerOnResetRelease (banks33 : Byte)
  /-- VAO falls below 1.80 V and every always-on item is lost (R470). -/
  | aoReset
  /-- VAO falls below AO_VAO.LEVEL and AO kind 0x01 is raised (R485). -/
  | vaoLow (vao : BitVec 9)
  /-- Every 1 ms PWR reads the junction sensors and reports a reading above TLIM (R467). -/
  | temperatureSample (cen : BitVec 9) (sup : BitVec 9) (ana : BitVec 9) (io : BitVec 9) (steady : Bool)
  /-- PFI stays below LEVEL for DB and the early warning of supply failure is raised (R468). -/
  | earlyWarning
  /-- PFI stays above LEVEL + HYST for RET in seal-only mode and EWCLR is set (R469). -/
  | earlyWarningRecovered
  /-- RST_N held low for 1 µs causes a chip reset until it rises (R472). -/
  | rstNAssert
  /-- The chip-reset key in PWR_RSTCMD requests a chip reset (R470). -/
  | chipResetKey (iface : Iface)
  /-- The supervisor-reset key in PWR_RSTCMD reloads the SUP cores (R470). -/
  | supervisorResetKey (iface : Iface)
  /-- 2 µs after a chip-reset request in a pair, PWR applies the reset (R473). -/
  | chipResetApply
  /-- The 10 µs reset hold, or RST_N low, ends and start-up begins (R470). -/
  | chipResetEnd
  /-- Phase 0 ends with banks chosen and the start outcome decided (R474). -/
  | bootRomComplete (recov : Bool) (pos : Fin 2)
  /-- Phase 1 ends with images checked, CE loaded and the SUP cores released (R474). -/
  | imageChecksComplete (sopen : BitVec 16) (sclose : BitVec 16) (coefs : List ((Fin 64 × Fin 2 × Fin 1024) × Word))
  /-- Phase 2 ends with the last configuration page committed and the shelf running (R474). -/
  | configCommitComplete (sec : ConfigSection)
  /-- A write of the hibernate key to PWR_HIB is judged and accepted or refused (R476). -/
  | hibernateRequest (iface : Iface)
  /-- 200 µs after acceptance PSEN falls and the chip hibernates (R477). -/
  | hibernateEntry
  /-- PSEN has been low for 2.0 ms and a waiting wake may raise it (R477). -/
  | psenHoldEnd
  /-- An enabled wake source latches into AO_WAKESRC and PSEN rises (R480). -/
  | wakeEvent (src : BitVec 7)
  /-- The battery-current comparator asserts, sets CURSEEN and may wake the chip (R479). -/
  | ibatComparatorAssert (seen : IbatSeen)
  /-- A queued notice's window, from start to start plus duration, ends and the notice leaves the queue, which can let
  BUS meet its return condition (R142). -/
  | gapNoticeWindowEnd
  /-- The last symbol of a hard reset ordered set that this port sends leaves the wire, and the port ends its
  contract, starts the line discharge and returns to its default role (R277). -/
  | hardResetSent (p : Fin 4)
  /-- The clock monitor finds the safety oscillator outside 20 MHz ± 5 % and reports source 0x19 kind 0x04 (R378). -/
  | safetyOscillatorFault
  /-- The PCIe link returns to L0, HIF_IRQRAW.LINK is raised and latched MSI-X messages and waiting host-memory
  transfers resume (R438). -/
  | pcieLinkUp (speed : Fin 8) (width : Fin 4) (bme : Bool) (msixEn : Bool) (fmask : Bool)
  /-- A consist-network MAC's link goes up or down after auto-negotiation, setting its speed and raising
  HIF_Mn_IRQRAW.LINK (R444). -/
  | macLinkChange (n : Fin 2) (seen : LinkSeen) (speed : Fin 4)
  deriving DecidableEq, Repr

end Sys2Proof
end

