-- ==== Sys2Proof/Decode.lean ====
section
/-! DEFINITION. Commands spelled as words. No row of the opcode table gives its command any bits: the commands of the W480 are
register accesses, frames, and events, and none is an encoded instruction. No word therefore spells a command (log 7). -/

namespace Sys2Proof

/-- The command that a word of `nbits` bits spells by the opcode table: none. -/
def decodeTableWord (_nbits _w : Nat) : Option Instr := none

end Sys2Proof
end

