-- ==== Sys2Proof/Config.lean ====
section
/-! DEFINITION. What the manual leaves open: free values. Each constant has no body, so no proof can see a value of
it; a claim about it holds whatever it is (log 3). The first argument of a constant that is read again and again is
the model's own counter `Chip.free`, which every read advances. -/

namespace Sys2Proof.Config

/-! ### Angle clock: the filters of R39 have no bit-exact form in the manual -/

/-- The magnitude |V| of the positive-sequence pair that the integrator pair extracts from the sample sets up to this one,
u12, u23, u31 (R39, steps 1–3). -/
opaque pllMagnitude : Nat → Nat → Nat → Nat → Nat

/-- The angle θ of that pair, in 2^−48 turn (R39, steps 2 and 3). -/
opaque pllAngle : Nat → Nat → Nat → Nat → Nat

/-- How far the phase error of step 3 lies from the sine nearest to it, in 2^−30; the manual gives it no precision (R39). -/
opaque pllFine : Nat → Int

/-! ### Control engine: the sine and cosine of R102 are exact within 2^−22 only -/

/-- The error of the engine's sine at a phase in 2^−24 turn, in units of 2^−24, before it is held to the bound. -/
opaque sineError : Nat → Int

/-! ### Battery shelf: exponentials of R204 and the open ends of the curve of R203 -/

/-- The last place of an exponential of R204, in 2^−32: 0 or 1 is added to its floor. -/
opaque expTail : Nat → Bool

/-- SoC⁻¹ of a voltage that lies outside the points of R203, in 2^−20 of 0.01 %. -/
opaque socOutside : Nat → Nat

/-! ### Firmware: the keys are not in the manual (R415, R417) -/

/-- The signature of an image header of 256 bytes is valid under the root key fixed in ROM. -/
opaque imageSigned : List Byte → Bool

/-- The configuration section of these bytes, trailer included, is valid under the owner key. -/
opaque sectionSigned : List Byte → Bool

/-! ### PAIR: the layout of a frame's payload and its FLAGS byte are not in the manual (R363) -/

/-- The payload of the frame of this number, before it is held to 1,024 bytes. -/
opaque pairPayload : Nat → List Byte

/-- The FLAGS byte of that frame. -/
opaque pairFlags : Nat → Byte

/-! ### A value that the manual leaves open, where no other constant names it -/

/-- A free value for the reader named by the counter. -/
opaque unstated : Nat → Nat

/-! ### Shelf link: the slot of a HELLO is random, seeded by the identity (R304) -/

/-- The random number that chooses a HELLO slot. -/
opaque helloSlot : Nat → Nat → Nat

end Sys2Proof.Config
end

