-- ==== Sys2Proof/Machine/Regs.lean ====
section
/-! DEFINITION. The registers of every page by name (R4, R456, R458): each at its BAR0 byte offset (R457) with its
value after chip reset (R5), and the fields of each. Repeated registers take the number of their unit, header
registers take the page. -/

namespace Sys2Proof

/-- A register: its byte offset in BAR0 and its value after chip reset. -/
structure Reg where
  addr  : Nat
  reset : Word
  deriving DecidableEq, Repr

/-- A field of a register: bits `hi` down to `lo` (R4). -/
structure Fld where
  reg : Reg
  hi  : Nat
  lo  : Nat
  deriving DecidableEq, Repr

namespace R

/-- ANG_IRQRAW, R57. -/
def ANG_IRQRAW : Reg := ⟨0xa010, 0x0⟩
/-- ANG_CTL, R57. -/
def ANG_CTL : Reg := ⟨0xa040, 0x0⟩
/-- ANG_FNOM, R57. -/
def ANG_FNOM : Reg := ⟨0xa044, 0xc350⟩
/-- ANG_VFREQ, R57. -/
def ANG_VFREQ : Reg := ⟨0xa048, 0xc350⟩
/-- ANG_VNOM, R57. -/
def ANG_VNOM : Reg := ⟨0xa04c, 0x4000⟩
/-- ANG_PLL, R57. -/
def ANG_PLL : Reg := ⟨0xa050, 0x25641414⟩
/-- ANG_LOSS, R57. -/
def ANG_LOSS : Reg := ⟨0xa054, 0x203228⟩
/-- ANG_HOLD, R57. -/
def ANG_HOLD : Reg := ⟨0xa058, 0x3253c864⟩
/-- ANG_STAT, R57. -/
def ANG_STAT : Reg := ⟨0xa05c, 0x1⟩
/-- ANG_FREQ, R57. -/
def ANG_FREQ : Reg := ⟨0xa060, 0xc350⟩
/-- ANG_DRIFT, R57. -/
def ANG_DRIFT : Reg := ⟨0xa064, 0x0⟩
/-- ANG_PHERR, R57. -/
def ANG_PHERR : Reg := ⟨0xa068, 0x0⟩
/-- ANG_NOWA, R57. -/
def ANG_NOWA : Reg := ⟨0xa06c, 0x0⟩
/-- ANG_NOWC, R57. -/
def ANG_NOWC : Reg := ⟨0xa070, 0x1⟩
/-- ANG_NOWT_LO, R57. -/
def ANG_NOWT_LO : Reg := ⟨0xa074, 0x0⟩
/-- ANG_NOWT_HI, R57. -/
def ANG_NOWT_HI : Reg := ⟨0xa078, 0x0⟩
/-- ANG_BINLEN, R57. -/
def ANG_BINLEN : Reg := ⟨0xa07c, 0x7a1⟩
/-- ANG_CYCTS_LO, R57. -/
def ANG_CYCTS_LO : Reg := ⟨0xa080, 0x0⟩
/-- ANG_CYCTS_HI, R57. -/
def ANG_CYCTS_HI : Reg := ⟨0xa084, 0x0⟩
/-- ANG_SIDX, R57. -/
def ANG_SIDX : Reg := ⟨0xa088, 0x0⟩
/-- ANG_SW0, R57. -/
def ANG_SW0 : Reg := ⟨0xa08c, 0x0⟩
/-- ANG_SW1, R57. -/
def ANG_SW1 : Reg := ⟨0xa090, 0x0⟩
/-- ANG_SW2, R57. -/
def ANG_SW2 : Reg := ⟨0xa094, 0x0⟩
/-- ANG_SW3, R57. -/
def ANG_SW3 : Reg := ⟨0xa098, 0x0⟩
/-- ANG_SOP, R57. -/
def ANG_SOP : Reg := ⟨0xa09c, 0x0⟩
/-- ANG_SMISS, R57. -/
def ANG_SMISS : Reg := ⟨0xa0a0, 0x0⟩
/-- ANG_NSADJ, R57. -/
def ANG_NSADJ : Reg := ⟨0xa0a4, 0x0⟩
/-- ANG_NSSTEP_LO, R57. -/
def ANG_NSSTEP_LO : Reg := ⟨0xa0a8, 0x0⟩
/-- ANG_NSSTEP_HI, R57. -/
def ANG_NSSTEP_HI : Reg := ⟨0xa0ac, 0x0⟩
/-- LEG_IRQRAW, R87. -/
def LEG_IRQRAW : Reg := ⟨0xb010, 0x0⟩
/-- LEG_Gk_CFG, R87. -/
def LEG_Gk_CFG (n : Nat) : Reg := ⟨0xb040 + 0x40 * n, 0x0⟩
/-- LEG_Gk_PER, R87. -/
def LEG_Gk_PER (n : Nat) : Reg := ⟨0xb044 + 0x40 * n, 0x7d00⟩
/-- LEG_Gk_DLIM, R87. -/
def LEG_Gk_DLIM (n : Nat) : Reg := ⟨0xb048 + 0x40 * n, 0x8e666⟩
/-- LEG_Gk_BAL, R87. -/
def LEG_Gk_BAL (n : Nat) : Reg := ⟨0xb04c + 0x40 * n, 0x0⟩
/-- LEG_Gk_SHED, R87. -/
def LEG_Gk_SHED (n : Nat) : Reg := ⟨0xb050 + 0x40 * n, 0xa640204⟩
/-- LEG_Gk_SHEDTH, R87. -/
def LEG_Gk_SHEDTH (n : Nat) : Reg := ⟨0xb054 + 0x40 * n, 0x0⟩
/-- LEG_Gk_CATCH, R87. -/
def LEG_Gk_CATCH (n : Nat) : Reg := ⟨0xb058 + 0x40 * n, 0x3200c8⟩
/-- LEG_Gk_VREF, R87. -/
def LEG_Gk_VREF (n : Nat) : Reg := ⟨0xb05c + 0x40 * n, 0x4000⟩
/-- LEG_Gk_THERM, R87. -/
def LEG_Gk_THERM (n : Nat) : Reg := ⟨0xb060 + 0x40 * n, 0x4000⟩
/-- LEG_Gk_STAT, R87. -/
def LEG_Gk_STAT (n : Nat) : Reg := ⟨0xb064 + 0x40 * n, 0x0⟩
/-- LEG_Ln_DT, R87. -/
def LEG_Ln_DT (n : Nat) : Reg := ⟨0xb200 + 0x10 * n, 0xc000c0⟩
/-- LEG_Ln_PHS, R87. -/
def LEG_Ln_PHS (n : Nat) : Reg := ⟨0xb204 + 0x10 * n, 0x0⟩
/-- LEG_Ln_STAT, R87. -/
def LEG_Ln_STAT (n : Nat) : Reg := ⟨0xb208 + 0x10 * n, 0x7⟩
/-- LEG_OUTCTL, R87. -/
def LEG_OUTCTL : Reg := ⟨0xb300, 0x0⟩
/-- AFE_IRQRAW, R88. -/
def AFE_IRQRAW : Reg := ⟨0xc010, 0x0⟩
/-- AFE_CTL, R88. -/
def AFE_CTL : Reg := ⟨0xc040, 0x1000⟩
/-- AFE_OWTHR, R88. -/
def AFE_OWTHR : Reg := ⟨0xc044, 0x8000200⟩
/-- AFE_OWSTAT_F, R88. -/
def AFE_OWSTAT_F : Reg := ⟨0xc048, 0x0⟩
/-- AFE_OWSTAT_S, R88. -/
def AFE_OWSTAT_S : Reg := ⟨0xc04c, 0x0⟩
/-- AFE_FINn_CFG, R88. -/
def AFE_FINn_CFG (n : Nat) : Reg := ⟨0xc100 + 0x10 * n, 0x0⟩
/-- AFE_FINn_CAL, R88. -/
def AFE_FINn_CAL (n : Nat) : Reg := ⟨0xc104 + 0x10 * n, 0x40000000⟩
/-- AFE_FINn_DATA, R88. -/
def AFE_FINn_DATA (n : Nat) : Reg := ⟨0xc108 + 0x10 * n, 0x0⟩
/-- AFE_SINn_CFG, R88. -/
def AFE_SINn_CFG (n : Nat) : Reg := ⟨0xc200 + 0x8 * n, 0x0⟩
/-- AFE_SINn_DATA, R88. -/
def AFE_SINn_DATA (n : Nat) : Reg := ⟨0xc204 + 0x8 * n, 0x0⟩
/-- CMP_IRQRAW, R89. -/
def CMP_IRQRAW : Reg := ⟨0xd010, 0x0⟩
/-- CMP_SCk_CFG, R89. -/
def CMP_SCk_CFG (n : Nat) : Reg := ⟨0xd040 + 0x8 * n, 0x6450000⟩
/-- CMP_SCk_SLOPE, R89. -/
def CMP_SCk_SLOPE (n : Nat) : Reg := ⟨0xd044 + 0x8 * n, 0x40⟩
/-- CMP_LATCH, R89. -/
def CMP_LATCH : Reg := ⟨0xd070, 0x0⟩
/-- CMP_TRIPCLR, R89. -/
def CMP_TRIPCLR : Reg := ⟨0xd074, 0x0⟩
/-- CMP_CHAT, R89. -/
def CMP_CHAT : Reg := ⟨0xd078, 0x641003e8⟩
/-- CMP_Cn_CFG, R89. -/
def CMP_Cn_CFG (n : Nat) : Reg := ⟨0xd100 + 0x10 * n, 0x0⟩
/-- CMP_Cn_THR, R89. -/
def CMP_Cn_THR (n : Nat) : Reg := ⟨0xd104 + 0x10 * n, 0x3ff⟩
/-- CMP_Cn_TM, R89. -/
def CMP_Cn_TM (n : Nat) : Reg := ⟨0xd108 + 0x10 * n, 0x0⟩
/-- CMP_Cn_STAT, R89. -/
def CMP_Cn_STAT (n : Nat) : Reg := ⟨0xd10c + 0x10 * n, 0x0⟩
/-- CEN_IRQRAW, R120. -/
def CEN_IRQRAW : Reg := ⟨0xe010, 0x0⟩
/-- CEN_CTL, R120. -/
def CEN_CTL : Reg := ⟨0xe040, 0x3⟩
/-- CEN_LOAD, R120. -/
def CEN_LOAD : Reg := ⟨0xe044, 0x0⟩
/-- CEN_OVR, R120. -/
def CEN_OVR : Reg := ⟨0xe048, 0x0⟩
/-- CEN_HTRIG, R120. -/
def CEN_HTRIG : Reg := ⟨0xe04c, 0x0⟩
/-- CEN_SEED, R120. -/
def CEN_SEED : Reg := ⟨0xe050, 0x0⟩
/-- CEN_CADDR, R120. -/
def CEN_CADDR : Reg := ⟨0xe054, 0x0⟩
/-- CEN_CDATA, R120. -/
def CEN_CDATA : Reg := ⟨0xe058, 0x0⟩
/-- CEN_INTSTAT, R120. -/
def CEN_INTSTAT : Reg := ⟨0xe05c, 0x0⟩
/-- CEN_LPs_CFG, R120. -/
def CEN_LPs_CFG (n : Nat) : Reg := ⟨0xe100 + 0x20 * n, 0x11100⟩
/-- CEN_LPs_TRG, R120. -/
def CEN_LPs_TRG (n : Nat) : Reg := ⟨0xe104 + 0x20 * n, 0x0⟩
/-- CEN_LPs_YSRC0, R120. -/
def CEN_LPs_YSRC0 (n : Nat) : Reg := ⟨0xe108 + 0x20 * n, 0xffffffff⟩
/-- CEN_LPs_YSRC1, R120. -/
def CEN_LPs_YSRC1 (n : Nat) : Reg := ⟨0xe10c + 0x20 * n, 0xffffffff⟩
/-- CEN_LPs_RSRC, R120. -/
def CEN_LPs_RSRC (n : Nat) : Reg := ⟨0xe110 + 0x20 * n, 0x0⟩
/-- CEN_LPs_ODST, R120. -/
def CEN_LPs_ODST (n : Nat) : Reg := ⟨0xe114 + 0x20 * n, 0x0⟩
/-- CEN_LPs_TIM, R120. -/
def CEN_LPs_TIM (n : Nat) : Reg := ⟨0xe118 + 0x20 * n, 0xff000000⟩
/-- CEN_LPs_KEEP, R120. -/
def CEN_LPs_KEEP (n : Nat) : Reg := ⟨0xe11c + 0x20 * n, 0x0⟩
/-- CEN_LPs_STAT, R120. -/
def CEN_LPs_STAT (n : Nat) : Reg := ⟨0xe500 + 0x10 * n, 0x0⟩
/-- CEN_LPs_DLY, R120. -/
def CEN_LPs_DLY (n : Nat) : Reg := ⟨0xe504 + 0x10 * n, 0x0⟩
/-- CEN_LPs_DLYMAX, R120. -/
def CEN_LPs_DLYMAX (n : Nat) : Reg := ⟨0xe508 + 0x10 * n, 0x0⟩
/-- CEN_LPs_CNT, R120. -/
def CEN_LPs_CNT (n : Nat) : Reg := ⟨0xe50c + 0x10 * n, 0x0⟩
/-- BUS_IRQRAW, R147. -/
def BUS_IRQRAW : Reg := ⟨0xf010, 0x0⟩
/-- BUS_CTL, R147. -/
def BUS_CTL : Reg := ⟨0xf040, 0x0⟩
/-- BUS_BASE, R147. -/
def BUS_BASE : Reg := ⟨0xf044, 0x7d02af8⟩
/-- BUS_VREF, R147. -/
def BUS_VREF : Reg := ⟨0xf048, 0xa2af8⟩
/-- BUS_VMON, R147. -/
def BUS_VMON : Reg := ⟨0xf04c, 0xff⟩
/-- BUS_UVOV, R147. -/
def BUS_UVOV : Reg := ⟨0xf050, 0x35b61e14⟩
/-- BUS_MONT, R147. -/
def BUS_MONT : Reg := ⟨0xf054, 0xa0a640a⟩
/-- BUS_DEM, R147. -/
def BUS_DEM : Reg := ⟨0xf058, 0xff⟩
/-- BUS_DROOP, R147. -/
def BUS_DROOP : Reg := ⟨0xf05c, 0x12c2b5c⟩
/-- BUS_SPTIM, R147. -/
def BUS_SPTIM : Reg := ⟨0xf060, 0x464⟩
/-- BUS_HU, R147. -/
def BUS_HU : Reg := ⟨0xf064, 0x32142904⟩
/-- BUS_GAP, R147. -/
def BUS_GAP : Reg := ⟨0xf068, 0x320a140a⟩
/-- BUS_RET, R147. -/
def BUS_RET : Reg := ⟨0xf06c, 0x50a⟩
/-- BUS_AFESEED, R147. -/
def BUS_AFESEED : Reg := ⟨0xf070, 0x0⟩
/-- BUS_EXPORT, R147. -/
def BUS_EXPORT : Reg := ⟨0xf074, 0x0⟩
/-- BUS_STAT, R147. -/
def BUS_STAT : Reg := ⟨0xf078, 0x0⟩
/-- BUS_DEMAND, R147. -/
def BUS_DEMAND : Reg := ⟨0xf07c, 0x0⟩
/-- BUS_AVAIL, R147. -/
def BUS_AVAIL : Reg := ⟨0xf080, 0x0⟩
/-- BUS_TAKE, R147. -/
def BUS_TAKE : Reg := ⟨0xf084, 0x0⟩
/-- BUS_GNC, R147. -/
def BUS_GNC : Reg := ⟨0xf090, 0x0⟩
/-- BUS_GNA, R147. -/
def BUS_GNA : Reg := ⟨0xf094, 0x0⟩
/-- BUS_GNOP, R147. -/
def BUS_GNOP : Reg := ⟨0xf098, 0x0⟩
/-- BUS_GNRES, R147. -/
def BUS_GNRES : Reg := ⟨0xf09c, 0x0⟩
/-- BUS_GNk_C, R147. -/
def BUS_GNk_C (n : Nat) : Reg := ⟨0xf0a0 + 0x10 * n, 0x0⟩
/-- BUS_GNk_A, R147. -/
def BUS_GNk_A (n : Nat) : Reg := ⟨0xf0a4 + 0x10 * n, 0x0⟩
/-- BUS_GNk_D, R147. -/
def BUS_GNk_D (n : Nat) : Reg := ⟨0xf0a8 + 0x10 * n, 0x0⟩
/-- BUS_Si_CFG, R147. -/
def BUS_Si_CFG (n : Nat) : Reg := ⟨0xf100 + 0x10 * n, 0xff000000⟩
/-- BUS_Si_LIM, R147. -/
def BUS_Si_LIM (n : Nat) : Reg := ⟨0xf104 + 0x10 * n, 0x0⟩
/-- BUS_Si_SHARE, R147. -/
def BUS_Si_SHARE (n : Nat) : Reg := ⟨0xf108 + 0x10 * n, 0x0⟩
/-- BUS_Si_MEAS, R147. -/
def BUS_Si_MEAS (n : Nat) : Reg := ⟨0xf10c + 0x10 * n, 0x0⟩
/-- BUS_SPn_CFG, R147. -/
def BUS_SPn_CFG (n : Nat) : Reg := ⟨0xf200 + 0x8 * n, 0x0⟩
/-- BUS_SPn_DR, R147. -/
def BUS_SPn_DR (n : Nat) : Reg := ⟨0xf204 + 0x8 * n, 0x12c2b5c⟩
/-- CAP_IRQRAW, R175. -/
def CAP_IRQRAW : Reg := ⟨0x10010, 0x0⟩
/-- CAP_CTL, R175. -/
def CAP_CTL : Reg := ⟨0x10040, 0x0⟩
/-- CAP_ID_LO, R175. -/
def CAP_ID_LO : Reg := ⟨0x10044, 0x0⟩
/-- CAP_ID_HI, R175. -/
def CAP_ID_HI : Reg := ⟨0x10048, 0x0⟩
/-- CAP_NUM, R175. -/
def CAP_NUM : Reg := ⟨0x1004c, 0x0⟩
/-- CAP_CAR, R175. -/
def CAP_CAR : Reg := ⟨0x10050, 0x0⟩
/-- CAP_TIM, R175. -/
def CAP_TIM : Reg := ⟨0x10054, 0xa0a780a⟩
/-- CAP_HEADT, R175. -/
def CAP_HEADT : Reg := ⟨0x10058, 0x53232⟩
/-- CAP_FB, R175. -/
def CAP_FB : Reg := ⟨0x1005c, 0x0⟩
/-- CAP_TOP, R175. -/
def CAP_TOP : Reg := ⟨0x10060, 0x0⟩
/-- CAP_GRANT, R175. -/
def CAP_GRANT : Reg := ⟨0x10064, 0x0⟩
/-- CAP_GPEND, R175. -/
def CAP_GPEND : Reg := ⟨0x10068, 0x0⟩
/-- CAP_PSHELF, R175. -/
def CAP_PSHELF : Reg := ⟨0x1006c, 0x0⟩
/-- CAP_PUNB, R175. -/
def CAP_PUNB : Reg := ⟨0x10070, 0x0⟩
/-- CAP_RESV, R175. -/
def CAP_RESV : Reg := ⟨0x10074, 0x0⟩
/-- CAP_RBASE_LO, R175. -/
def CAP_RBASE_LO : Reg := ⟨0x10078, 0x0⟩
/-- CAP_RBASE_HI, R175. -/
def CAP_RBASE_HI : Reg := ⟨0x1007c, 0x0⟩
/-- CAP_RUIDX, R175. -/
def CAP_RUIDX : Reg := ⟨0x10080, 0x0⟩
/-- CAP_RUDAT, R175. -/
def CAP_RUDAT : Reg := ⟨0x10084, 0x0⟩
/-- CAP_RSTAT, R175. -/
def CAP_RSTAT : Reg := ⟨0x10088, 0x0⟩
/-- CAP_RDISC, R175. -/
def CAP_RDISC : Reg := ⟨0x1008c, 0x0⟩
/-- CAP_RLA, R175. -/
def CAP_RLA : Reg := ⟨0x10090, 0x0⟩
/-- CAP_RLD0, R175. -/
def CAP_RLD0 : Reg := ⟨0x10094, 0x0⟩
/-- CAP_RLD1, R175. -/
def CAP_RLD1 : Reg := ⟨0x10098, 0x0⟩
/-- CAP_RLD2, R175. -/
def CAP_RLD2 : Reg := ⟨0x1009c, 0x0⟩
/-- CAP_RLD3, R175. -/
def CAP_RLD3 : Reg := ⟨0x100a0, 0x0⟩
/-- CAP_RLST, R175. -/
def CAP_RLST : Reg := ⟨0x100a4, 0x0⟩
/-- CAP_LIEP, R175. -/
def CAP_LIEP : Reg := ⟨0x100a8, 0x0⟩
/-- CAP_LIP, R175. -/
def CAP_LIP : Reg := ⟨0x100ac, 0x0⟩
/-- CAP_LIT0, R175. -/
def CAP_LIT0 : Reg := ⟨0x100b0, 0x0⟩
/-- CAP_LIT1, R175. -/
def CAP_LIT1 : Reg := ⟨0x100b4, 0x0⟩
/-- CAP_LIOP, R175. -/
def CAP_LIOP : Reg := ⟨0x100b8, 0x0⟩
/-- CAP_LIRES, R175. -/
def CAP_LIRES : Reg := ⟨0x100bc, 0x0⟩
/-- CAP_LISTAT, R175. -/
def CAP_LISTAT : Reg := ⟨0x100c0, 0x0⟩
/-- CAP_XCFG, R175. -/
def CAP_XCFG : Reg := ⟨0x100c4, 0x0⟩
/-- CAP_XIN0, R175. -/
def CAP_XIN0 : Reg := ⟨0x100c8, 0x0⟩
/-- CAP_XIN1, R175. -/
def CAP_XIN1 : Reg := ⟨0x100cc, 0x0⟩
/-- CAP_XIN2, R175. -/
def CAP_XIN2 : Reg := ⟨0x100d0, 0x0⟩
/-- CAP_XIN3, R175. -/
def CAP_XIN3 : Reg := ⟨0x100d4, 0x0⟩
/-- CAP_XIN4, R175. -/
def CAP_XIN4 : Reg := ⟨0x100d8, 0x0⟩
/-- CAP_XIN5, R175. -/
def CAP_XIN5 : Reg := ⟨0x100dc, 0x0⟩
/-- CAP_XINOP, R175. -/
def CAP_XINOP : Reg := ⟨0x100e0, 0x0⟩
/-- CAP_SHED0, R175. -/
def CAP_SHED0 : Reg := ⟨0x100e4, 0x0⟩
/-- CAP_SHED1, R175. -/
def CAP_SHED1 : Reg := ⟨0x100e8, 0x0⟩
/-- CAP_SHEDCFG, R175. -/
def CAP_SHEDCFG : Reg := ⟨0x100ec, 0x0⟩
/-- CAP_GMSRC0, R175. -/
def CAP_GMSRC0 : Reg := ⟨0x100f0, 0xffffffff⟩
/-- CAP_GMSRC1, R175. -/
def CAP_GMSRC1 : Reg := ⟨0x100f4, 0xffffffff⟩
/-- CAP_IRk_A, R175. -/
def CAP_IRk_A (n : Nat) : Reg := ⟨0x10100 + 0x8 * n, 0x0⟩
/-- CAP_IRk_B, R175. -/
def CAP_IRk_B (n : Nat) : Reg := ⟨0x10104 + 0x8 * n, 0x0⟩
/-- CAP_CBk_EP, R175. -/
def CAP_CBk_EP (n : Nat) : Reg := ⟨0x10200 + 0x10 * n, 0x0⟩
/-- CAP_CBk_CFG, R175. -/
def CAP_CBk_CFG (n : Nat) : Reg := ⟨0x10204 + 0x10 * n, 0x0⟩
/-- CAP_CBk_LIM, R175. -/
def CAP_CBk_LIM (n : Nat) : Reg := ⟨0x10208 + 0x10 * n, 0x0⟩
/-- CAP_CBk_STAT, R175. -/
def CAP_CBk_STAT (n : Nat) : Reg := ⟨0x1020c + 0x10 * n, 0x0⟩
/-- CAP_CHj_ID, R175. -/
def CAP_CHj_ID (n : Nat) : Reg := ⟨0x10400 + 0x10 * n, 0x0⟩
/-- CAP_CHj_PW, R175. -/
def CAP_CHj_PW (n : Nat) : Reg := ⟨0x10404 + 0x10 * n, 0x1⟩
/-- CAP_CHj_REP, R175. -/
def CAP_CHj_REP (n : Nat) : Reg := ⟨0x10408 + 0x10 * n, 0x0⟩
/-- CAP_CHj_GR, R175. -/
def CAP_CHj_GR (n : Nat) : Reg := ⟨0x1040c + 0x10 * n, 0x0⟩
/-- EFU_IRQRAW, R198. -/
def EFU_IRQRAW : Reg := ⟨0x11010, 0x0⟩
/-- EFU_CTL, R198. -/
def EFU_CTL : Reg := ⟨0x11040, 0x2800⟩
/-- EFU_CHEN, R198. -/
def EFU_CHEN : Reg := ⟨0x11044, 0x0⟩
/-- EFU_STATE0, R198. -/
def EFU_STATE0 : Reg := ⟨0x11048, 0x0⟩
/-- EFU_STATE1, R198. -/
def EFU_STATE1 : Reg := ⟨0x1104c, 0x0⟩
/-- EFU_PGSTAT, R198. -/
def EFU_PGSTAT : Reg := ⟨0x11050, 0x0⟩
/-- EFU_DMGCLR, R198. -/
def EFU_DMGCLR : Reg := ⟨0x11054, 0x0⟩
/-- EFU_PGm_MAP, R198. -/
def EFU_PGm_MAP (n : Nat) : Reg := ⟨0x11060 + 0x4 * n, 0x0⟩
/-- EFU_CHn_CFG, R198. -/
def EFU_CHn_CFG (n : Nat) : Reg := ⟨0x11100 + 0x40 * n, 0x2214640c⟩
/-- EFU_CHn_LIM, R198. -/
def EFU_CHn_LIM (n : Nat) : Reg := ⟨0x11104 + 0x40 * n, 0x5a0000⟩
/-- EFU_CHn_SCALE, R198. -/
def EFU_CHn_SCALE (n : Nat) : Reg := ⟨0x11108 + 0x40 * n, 0x3e800000⟩
/-- EFU_CHn_FT, R198. -/
def EFU_CHn_FT (n : Nat) : Reg := ⟨0x1110c + 0x40 * n, 0x32003e8⟩
/-- EFU_CHn_SD, R198. -/
def EFU_CHn_SD (n : Nat) : Reg := ⟨0x11110 + 0x40 * n, 0x20020064⟩
/-- EFU_CHn_PG, R198. -/
def EFU_CHn_PG (n : Nat) : Reg := ⟨0x11114 + 0x40 * n, 0x19641c20⟩
/-- EFU_CHn_RTY, R198. -/
def EFU_CHn_RTY (n : Nat) : Reg := ⟨0x11118 + 0x40 * n, 0xa320000⟩
/-- EFU_CHn_VIN, R198. -/
def EFU_CHn_VIN (n : Nat) : Reg := ⟨0x1111c + 0x40 * n, 0xff⟩
/-- EFU_CHn_STAT, R198. -/
def EFU_CHn_STAT (n : Nat) : Reg := ⟨0x11120 + 0x40 * n, 0x0⟩
/-- EFU_CHn_MEAS, R198. -/
def EFU_CHn_MEAS (n : Nat) : Reg := ⟨0x11124 + 0x40 * n, 0x0⟩
/-- EFU_CHn_CAP, R198. -/
def EFU_CHn_CAP (n : Nat) : Reg := ⟨0x11128 + 0x40 * n, 0xffff⟩
/-- EFU_CHn_CNT, R198. -/
def EFU_CHn_CNT (n : Nat) : Reg := ⟨0x1112c + 0x40 * n, 0x0⟩
/-- BAT_IRQRAW, R225. -/
def BAT_IRQRAW : Reg := ⟨0x12010, 0x0⟩
/-- BAT_CTL, R225. -/
def BAT_CTL : Reg := ⟨0x12040, 0xc⟩
/-- BAT_BASE, R225. -/
def BAT_BASE : Reg := ⟨0x12044, 0x7d02af8⟩
/-- BAT_CHG, R225. -/
def BAT_CHG : Reg := ⟨0x12048, 0x0⟩
/-- BAT_CV, R225. -/
def BAT_CV : Reg := ⟨0x1204c, 0x57805aa⟩
/-- BAT_CLIM, R225. -/
def BAT_CLIM : Reg := ⟨0x12050, 0x6400384⟩
/-- BAT_CTERM, R225. -/
def BAT_CTERM : Reg := ⟨0x12054, 0x303c5f50⟩
/-- BAT_DLIM, R225. -/
def BAT_DLIM : Reg := ⟨0x12058, 0x3e8⟩
/-- BAT_TWIN, R225. -/
def BAT_TWIN : Reg := ⟨0x1205c, 0x2dec37d8⟩
/-- BAT_DER, R225. -/
def BAT_DER : Reg := ⟨0x12060, 0x23ec3245⟩
/-- BAT_EST, R225. -/
def BAT_EST : Reg := ⟨0x12064, 0x14140a1e⟩
/-- BAT_IMP, R225. -/
def BAT_IMP : Reg := ⟨0x12068, 0x962000c8⟩
/-- BAT_HIB, R225. -/
def BAT_HIB : Reg := ⟨0x1206c, 0x12c000a⟩
/-- BAT_STAT, R225. -/
def BAT_STAT : Reg := ⟨0x12070, 0x0⟩
/-- BAT_SOC, R225. -/
def BAT_SOC : Reg := ⟨0x12074, 0x320000⟩
/-- BAT_LIMS, R225. -/
def BAT_LIMS : Reg := ⟨0x12078, 0x0⟩
/-- BAT_ICMD, R225. -/
def BAT_ICMD : Reg := ⟨0x1207c, 0x0⟩
/-- BAT_RIDX, R225. -/
def BAT_RIDX : Reg := ⟨0x12080, 0x0⟩
/-- BAT_RDATA, R225. -/
def BAT_RDATA : Reg := ⟨0x12084, 0x0⟩
/-- BAT_ROP, R225. -/
def BAT_ROP : Reg := ⟨0x12088, 0x0⟩
/-- BAT_RCW, R225. -/
def BAT_RCW : Reg := ⟨0x1208c, 0x0⟩
/-- BAT_RRES, R225. -/
def BAT_RRES : Reg := ⟨0x12090, 0x0⟩
/-- BAT_AORET, R225. -/
def BAT_AORET : Reg := ⟨0x12094, 0x0⟩
/-- BAT_AOREST, R225. -/
def BAT_AOREST : Reg := ⟨0x12098, 0x0⟩
/-- BAT_STRk_CFG, R225. -/
def BAT_STRk_CFG (n : Nat) : Reg := ⟨0x120a0 + 0x10 * n, 0xffff⟩
/-- BAT_STRk_ISCL, R225. -/
def BAT_STRk_ISCL (n : Nat) : Reg := ⟨0x120a4 + 0x10 * n, 0x0⟩
/-- BAT_STRk_VSCL, R225. -/
def BAT_STRk_VSCL (n : Nat) : Reg := ⟨0x120a8 + 0x10 * n, 0x0⟩
/-- BAT_STRk_MEAS, R225. -/
def BAT_STRk_MEAS (n : Nat) : Reg := ⟨0x120ac + 0x10 * n, 0x0⟩
/-- BAT_Mm_CFG, R225. -/
def BAT_Mm_CFG (n : Nat) : Reg := ⟨0x12100 + 0x20 * n, 0x0⟩
/-- BAT_Mm_SOC, R225. -/
def BAT_Mm_SOC (n : Nat) : Reg := ⟨0x12104 + 0x20 * n, 0x32000000⟩
/-- BAT_Mm_Q, R225. -/
def BAT_Mm_Q (n : Nat) : Reg := ⟨0x12108 + 0x20 * n, 0x0⟩
/-- BAT_Mm_Z, R225. -/
def BAT_Mm_Z (n : Nat) : Reg := ⟨0x1210c + 0x20 * n, 0x0⟩
/-- BAT_Mm_ZD, R225. -/
def BAT_Mm_ZD (n : Nat) : Reg := ⟨0x12110 + 0x20 * n, 0x0⟩
/-- BAT_Mm_STAT, R225. -/
def BAT_Mm_STAT (n : Nat) : Reg := ⟨0x12114 + 0x20 * n, 0x0⟩
/-- BAT_Mm_MEAS, R225. -/
def BAT_Mm_MEAS (n : Nat) : Reg := ⟨0x12118 + 0x20 * n, 0x0⟩
/-- CPT_IRQRAW, R260. -/
def CPT_IRQRAW : Reg := ⟨0x13010, 0x0⟩
/-- CPT_CTL, R260. -/
def CPT_CTL : Reg := ⟨0x13040, 0xa00⟩
/-- CPT_DB, R260. -/
def CPT_DB : Reg := ⟨0x13044, 0x8640a32⟩
/-- CPT_WIN, R260. -/
def CPT_WIN : Reg := ⟨0x13048, 0xad844414⟩
/-- CPT_LINK, R260. -/
def CPT_LINK : Reg := ⟨0x1304c, 0x826419⟩
/-- CPp_CFG, R260. -/
def CPp_CFG (n : Nat) : Reg := ⟨0x13100 + 0x40 * n, 0x3200⟩
/-- CPp_STAT, R260. -/
def CPp_STAT (n : Nat) : Reg := ⟨0x13104 + 0x40 * n, 0x0⟩
/-- CPp_DIAG, R260. -/
def CPp_DIAG (n : Nat) : Reg := ⟨0x13108 + 0x40 * n, 0x0⟩
/-- CPp_CMD, R260. -/
def CPp_CMD (n : Nat) : Reg := ⟨0x1310c + 0x40 * n, 0x0⟩
/-- CPp_RXH, R260. -/
def CPp_RXH (n : Nat) : Reg := ⟨0x13110 + 0x40 * n, 0x0⟩
/-- CPp_RXO0, R260. -/
def CPp_RXO0 (n : Nat) : Reg := ⟨0x13114 + 0x40 * n, 0x0⟩
/-- CPp_RXO1, R260. -/
def CPp_RXO1 (n : Nat) : Reg := ⟨0x13118 + 0x40 * n, 0x0⟩
/-- CPp_RXO2, R260. -/
def CPp_RXO2 (n : Nat) : Reg := ⟨0x1311c + 0x40 * n, 0x0⟩
/-- CPp_RXO3, R260. -/
def CPp_RXO3 (n : Nat) : Reg := ⟨0x13120 + 0x40 * n, 0x0⟩
/-- CPp_RXO4, R260. -/
def CPp_RXO4 (n : Nat) : Reg := ⟨0x13124 + 0x40 * n, 0x0⟩
/-- CPp_RXO5, R260. -/
def CPp_RXO5 (n : Nat) : Reg := ⟨0x13128 + 0x40 * n, 0x0⟩
/-- CPp_RXO6, R260. -/
def CPp_RXO6 (n : Nat) : Reg := ⟨0x1312c + 0x40 * n, 0x0⟩
/-- CPp_CNT, R260. -/
def CPp_CNT (n : Nat) : Reg := ⟨0x13130 + 0x40 * n, 0x0⟩
/-- CPp_CNT2, R260. -/
def CPp_CNT2 (n : Nat) : Reg := ⟨0x13134 + 0x40 * n, 0x0⟩
/-- CPT_PTIM, R292. -/
def CPT_PTIM : Reg := ⟨0x13050, 0xa1e1e32⟩
/-- CPT_PTIM2, R292. -/
def CPT_PTIM2 : Reg := ⟨0x13054, 0x300a0a14⟩
/-- CPT_POL, R292. -/
def CPT_POL : Reg := ⟨0x13058, 0x0⟩
/-- CPT_TXO0, R292. -/
def CPT_TXO0 : Reg := ⟨0x13060, 0x0⟩
/-- CPT_TXO1, R292. -/
def CPT_TXO1 : Reg := ⟨0x13064, 0x0⟩
/-- CPT_TXO2, R292. -/
def CPT_TXO2 : Reg := ⟨0x13068, 0x0⟩
/-- CPT_TXO3, R292. -/
def CPT_TXO3 : Reg := ⟨0x1306c, 0x0⟩
/-- CPT_TXOP, R292. -/
def CPT_TXOP : Reg := ⟨0x13070, 0x0⟩
/-- CPT_TXRES, R292. -/
def CPT_TXRES : Reg := ⟨0x13074, 0x0⟩
/-- CPp_PCFG, R292. -/
def CPp_PCFG (n : Nat) : Reg := ⟨0x13200 + 0x40 * n, 0x10⟩
/-- CPp_SLOT, R292. -/
def CPp_SLOT (n : Nat) : Reg := ⟨0x13204 + 0x40 * n, 0x0⟩
/-- CPp_BASE, R292. -/
def CPp_BASE (n : Nat) : Reg := ⟨0x13208 + 0x40 * n, 0x7d02ee0⟩
/-- CPp_LMON, R292. -/
def CPp_LMON (n : Nat) : Reg := ⟨0x1320c + 0x40 * n, 0xff⟩
/-- CPp_VCTL, R292. -/
def CPp_VCTL (n : Nat) : Reg := ⟨0x13210 + 0x40 * n, 0x30146414⟩
/-- CPp_OFF0, R292. -/
def CPp_OFF0 (n : Nat) : Reg := ⟨0x13214 + 0x40 * n, 0x0⟩
/-- CPp_OFF1, R292. -/
def CPp_OFF1 (n : Nat) : Reg := ⟨0x13218 + 0x40 * n, 0x0⟩
/-- CPp_OFF2, R292. -/
def CPp_OFF2 (n : Nat) : Reg := ⟨0x1321c + 0x40 * n, 0x0⟩
/-- CPp_OFF3, R292. -/
def CPp_OFF3 (n : Nat) : Reg := ⟨0x13220 + 0x40 * n, 0x0⟩
/-- CPp_SNK, R292. -/
def CPp_SNK (n : Nat) : Reg := ⟨0x13224 + 0x40 * n, 0x0⟩
/-- CPp_PST, R292. -/
def CPp_PST (n : Nat) : Reg := ⟨0x13228 + 0x40 * n, 0xff0000⟩
/-- CPp_CON, R292. -/
def CPp_CON (n : Nat) : Reg := ⟨0x1322c + 0x40 * n, 0x0⟩
/-- CPp_VNOW, R292. -/
def CPp_VNOW (n : Nat) : Reg := ⟨0x13230 + 0x40 * n, 0x0⟩
/-- CPp_PID_LO, R292. -/
def CPp_PID_LO (n : Nat) : Reg := ⟨0x13234 + 0x40 * n, 0x0⟩
/-- CPp_PID_HI, R292. -/
def CPp_PID_HI (n : Nat) : Reg := ⟨0x13238 + 0x40 * n, 0x0⟩
/-- CPp_PCMD, R292. -/
def CPp_PCMD (n : Nat) : Reg := ⟨0x1323c + 0x40 * n, 0x0⟩
/-- SLK_IRQRAW, R320. -/
def SLK_IRQRAW : Reg := ⟨0x14010, 0x0⟩
/-- SLK_CTL, R320. -/
def SLK_CTL : Reg := ⟨0x14040, 0xa06⟩
/-- SLK_TIM, R320. -/
def SLK_TIM : Reg := ⟨0x14044, 0x503000a⟩
/-- SLK_DISC, R320. -/
def SLK_DISC : Reg := ⟨0x14048, 0x200a2810⟩
/-- SLK_SEGn_CFG, R320. -/
def SLK_SEGn_CFG (n : Nat) : Reg := ⟨0x14100 + 0x20 * n, 0x0⟩
/-- SLK_SEGn_RING, R320. -/
def SLK_SEGn_RING (n : Nat) : Reg := ⟨0x14104 + 0x20 * n, 0x0⟩
/-- SLK_SEGn_STAT, R320. -/
def SLK_SEGn_STAT (n : Nat) : Reg := ⟨0x14108 + 0x20 * n, 0x0⟩
/-- SLK_SEGn_CNT, R320. -/
def SLK_SEGn_CNT (n : Nat) : Reg := ⟨0x1410c + 0x20 * n, 0x0⟩
/-- SLK_SEGn_CNT2, R320. -/
def SLK_SEGn_CNT2 (n : Nat) : Reg := ⟨0x14110 + 0x20 * n, 0x0⟩
/-- PMB_IRQRAW, R321. -/
def PMB_IRQRAW : Reg := ⟨0x15010, 0x0⟩
/-- PMB_CTL, R321. -/
def PMB_CTL : Reg := ⟨0x15040, 0x30a02⟩
/-- PMB_HCMD, R321. -/
def PMB_HCMD : Reg := ⟨0x15044, 0x80000⟩
/-- PMB_HDATA, R321. -/
def PMB_HDATA : Reg := ⟨0x15048, 0x0⟩
/-- PMB_HRES, R321. -/
def PMB_HRES : Reg := ⟨0x1504c, 0x0⟩
/-- PMB_DEVk_CFG, R321. -/
def PMB_DEVk_CFG (n : Nat) : Reg := ⟨0x15100 + 0x10 * n, 0x2⟩
/-- PMB_DEVk_STAT, R321. -/
def PMB_DEVk_STAT (n : Nat) : Reg := ⟨0x15104 + 0x10 * n, 0xff0000⟩
/-- PMB_DEVk_VI, R321. -/
def PMB_DEVk_VI (n : Nat) : Reg := ⟨0x15108 + 0x10 * n, 0x0⟩
/-- PMB_DEVk_P, R321. -/
def PMB_DEVk_P (n : Nat) : Reg := ⟨0x1510c + 0x10 * n, 0xffff0000⟩
/-- CTX_IRQRAW, R322. -/
def CTX_IRQRAW : Reg := ⟨0x16010, 0x0⟩
/-- CTX_CTL, R322. -/
def CTX_CTL : Reg := ⟨0x16040, 0x1432⟩
/-- CTX_STAT, R322. -/
def CTX_STAT : Reg := ⟨0x16044, 0x0⟩
/-- CTX_LAST, R322. -/
def CTX_LAST : Reg := ⟨0x16048, 0x0⟩
/-- CTX_LASTID_LO, R322. -/
def CTX_LASTID_LO : Reg := ⟨0x1604c, 0x0⟩
/-- CTX_LASTID_HI, R322. -/
def CTX_LASTID_HI : Reg := ⟨0x16050, 0x0⟩
/-- CTX_SIDX, R322. -/
def CTX_SIDX : Reg := ⟨0x16054, 0x0⟩
/-- CTX_SDATA, R322. -/
def CTX_SDATA : Reg := ⟨0x16058, 0x0⟩
/-- CTX_BIDX, R322. -/
def CTX_BIDX : Reg := ⟨0x1605c, 0x0⟩
/-- CTX_BDATA, R322. -/
def CTX_BDATA : Reg := ⟨0x16060, 0x0⟩
/-- CTX_FORGET, R322. -/
def CTX_FORGET : Reg := ⟨0x16064, 0x0⟩
/-- RNG_IRQRAW, R349. -/
def RNG_IRQRAW : Reg := ⟨0x18010, 0x0⟩
/-- RNG_CTL, R349. -/
def RNG_CTL : Reg := ⟨0x18040, 0x0⟩
/-- RNG_FREE, R349. -/
def RNG_FREE : Reg := ⟨0x18044, 0x400⟩
/-- RNG_RPSEL, R349. -/
def RNG_RPSEL : Reg := ⟨0x18048, 0x0⟩
/-- RNG_RPDATA, R349. -/
def RNG_RPDATA : Reg := ⟨0x1804c, 0x0⟩
/-- RNG_RGk_CFG, R349. -/
def RNG_RGk_CFG (n : Nat) : Reg := ⟨0x18100 + 0x20 * n, 0x800⟩
/-- RNG_RGk_SEG, R349. -/
def RNG_RGk_SEG (n : Nat) : Reg := ⟨0x18104 + 0x20 * n, 0x0⟩
/-- RNG_RGk_SPLO, R349. -/
def RNG_RGk_SPLO (n : Nat) : Reg := ⟨0x18108 + 0x20 * n, 0x0⟩
/-- RNG_RGk_SPHI, R349. -/
def RNG_RGk_SPHI (n : Nat) : Reg := ⟨0x1810c + 0x20 * n, 0x0⟩
/-- RNG_RGk_SPSZ, R349. -/
def RNG_RGk_SPSZ (n : Nat) : Reg := ⟨0x18110 + 0x20 * n, 0x0⟩
/-- RNG_RGk_WR, R349. -/
def RNG_RGk_WR (n : Nat) : Reg := ⟨0x18114 + 0x20 * n, 0x0⟩
/-- RNG_RGk_RD, R349. -/
def RNG_RGk_RD (n : Nat) : Reg := ⟨0x18118 + 0x20 * n, 0x0⟩
/-- RNG_RGk_STAT, R349. -/
def RNG_RGk_STAT (n : Nat) : Reg := ⟨0x1811c + 0x20 * n, 0x0⟩
/-- REC_IRQRAW, R350. -/
def REC_IRQRAW : Reg := ⟨0x17010, 0x0⟩
/-- REC_CTL, R350. -/
def REC_CTL : Reg := ⟨0x17040, 0x14⟩
/-- REC_LOAD, R350. -/
def REC_LOAD : Reg := ⟨0x17044, 0x5⟩
/-- REC_CTXPER, R350. -/
def REC_CTXPER : Reg := ⟨0x17048, 0x14⟩
/-- REC_CTXSEL0, R350. -/
def REC_CTXSEL0 : Reg := ⟨0x1704c, 0x0⟩
/-- REC_CTXSEL1, R350. -/
def REC_CTXSEL1 : Reg := ⟨0x17050, 0x0⟩
/-- REC_CTXSEL2, R350. -/
def REC_CTXSEL2 : Reg := ⟨0x17054, 0x0⟩
/-- REC_CTXSEL3, R350. -/
def REC_CTXSEL3 : Reg := ⟨0x17058, 0x0⟩
/-- REC_CTXSEL4, R350. -/
def REC_CTXSEL4 : Reg := ⟨0x1705c, 0x0⟩
/-- REC_CTXSEL5, R350. -/
def REC_CTXSEL5 : Reg := ⟨0x17060, 0x0⟩
/-- REC_CTXSEL6, R350. -/
def REC_CTXSEL6 : Reg := ⟨0x17064, 0x0⟩
/-- REC_CTXSEL7, R350. -/
def REC_CTXSEL7 : Reg := ⟨0x17068, 0x0⟩
/-- REC_FBASE, R350. -/
def REC_FBASE : Reg := ⟨0x1706c, 0x0⟩
/-- REC_FSIZE, R350. -/
def REC_FSIZE : Reg := ⟨0x17070, 0x0⟩
/-- REC_FCFG, R350. -/
def REC_FCFG : Reg := ⟨0x17074, 0xa0000⟩
/-- REC_SEAL, R350. -/
def REC_SEAL : Reg := ⟨0x17078, 0x10104040⟩
/-- REC_SEALST, R350. -/
def REC_SEALST : Reg := ⟨0x1707c, 0x0⟩
/-- REC_WSEQ, R350. -/
def REC_WSEQ : Reg := ⟨0x17080, 0x0⟩
/-- REC_CHAIN0, R350. -/
def REC_CHAIN0 : Reg := ⟨0x17084, 0x0⟩
/-- REC_CHAIN1, R350. -/
def REC_CHAIN1 : Reg := ⟨0x17088, 0x0⟩
/-- REC_CHAIN2, R350. -/
def REC_CHAIN2 : Reg := ⟨0x1708c, 0x0⟩
/-- REC_CHAIN3, R350. -/
def REC_CHAIN3 : Reg := ⟨0x17090, 0x0⟩
/-- REC_CHAIN4, R350. -/
def REC_CHAIN4 : Reg := ⟨0x17094, 0x0⟩
/-- REC_CHAIN5, R350. -/
def REC_CHAIN5 : Reg := ⟨0x17098, 0x0⟩
/-- REC_CHAIN6, R350. -/
def REC_CHAIN6 : Reg := ⟨0x1709c, 0x0⟩
/-- REC_CHAIN7, R350. -/
def REC_CHAIN7 : Reg := ⟨0x170a0, 0x0⟩
/-- REC_FOP, R350. -/
def REC_FOP : Reg := ⟨0x170a4, 0x0⟩
/-- REC_HTRIG, R350. -/
def REC_HTRIG : Reg := ⟨0x170a8, 0x0⟩
/-- REC_FADDR, R350. -/
def REC_FADDR : Reg := ⟨0x170ac, 0x0⟩
/-- REC_FRD, R350. -/
def REC_FRD : Reg := ⟨0x170b0, 0x0⟩
/-- REC_NOTE0, R350. -/
def REC_NOTE0 : Reg := ⟨0x170b4, 0x0⟩
/-- REC_NOTE1, R350. -/
def REC_NOTE1 : Reg := ⟨0x170b8, 0x0⟩
/-- REC_NOTE2, R350. -/
def REC_NOTE2 : Reg := ⟨0x170bc, 0x0⟩
/-- REC_NOTE3, R350. -/
def REC_NOTE3 : Reg := ⟨0x170c0, 0x0⟩
/-- REC_NOTE4, R350. -/
def REC_NOTE4 : Reg := ⟨0x170c8, 0x0⟩
/-- REC_NOTE5, R350. -/
def REC_NOTE5 : Reg := ⟨0x170cc, 0x0⟩
/-- REC_NOTE6, R350. -/
def REC_NOTE6 : Reg := ⟨0x170d0, 0x0⟩
/-- REC_NOTE7, R350. -/
def REC_NOTE7 : Reg := ⟨0x170d4, 0x0⟩
/-- REC_NOTEOP, R350. -/
def REC_NOTEOP : Reg := ⟨0x170c4, 0x0⟩
/-- REC_STm_CFG, R350. -/
def REC_STm_CFG (n : Nat) : Reg := ⟨0x17100 + 0x10 * n, 0x10000⟩
/-- REC_STm_SRC0, R350. -/
def REC_STm_SRC0 (n : Nat) : Reg := ⟨0x17104 + 0x10 * n, 0xffffffff⟩
/-- REC_STm_SRC1, R350. -/
def REC_STm_SRC1 (n : Nat) : Reg := ⟨0x17108 + 0x10 * n, 0xffffffff⟩
/-- REC_STm_STAT, R350. -/
def REC_STm_STAT (n : Nat) : Reg := ⟨0x1710c + 0x10 * n, 0x0⟩
/-- REC_TGj_CFG, R350. -/
def REC_TGj_CFG (n : Nat) : Reg := ⟨0x17200 + 0x10 * n, 0x6⟩
/-- REC_TGj_MATCH, R350. -/
def REC_TGj_MATCH (n : Nat) : Reg := ⟨0x17204 + 0x10 * n, 0xff⟩
/-- REC_TGj_RINGS, R350. -/
def REC_TGj_RINGS (n : Nat) : Reg := ⟨0x17208 + 0x10 * n, 0x0⟩
/-- REC_TGj_WIN, R350. -/
def REC_TGj_WIN (n : Nat) : Reg := ⟨0x1720c + 0x10 * n, 0x0⟩
/-- PAR_IRQRAW, R374. -/
def PAR_IRQRAW : Reg := ⟨0x9010, 0x0⟩
/-- PAR_CTL, R374. -/
def PAR_CTL : Reg := ⟨0x9040, 0x640004⟩
/-- PAR_TIM, R374. -/
def PAR_TIM : Reg := ⟨0x9044, 0xa140214⟩
/-- PAR_TIM2, R374. -/
def PAR_TIM2 : Reg := ⟨0x9048, 0x320005⟩
/-- PAR_STAT, R374. -/
def PAR_STAT : Reg := ⟨0x904c, 0x0⟩
/-- PAR_STAKE, R374. -/
def PAR_STAKE : Reg := ⟨0x9050, 0x0⟩
/-- PAR_PEER, R374. -/
def PAR_PEER : Reg := ⟨0x9054, 0x0⟩
/-- PAR_CMD, R374. -/
def PAR_CMD : Reg := ⟨0x9058, 0x0⟩
/-- PAR_SYNC, R374. -/
def PAR_SYNC : Reg := ⟨0x905c, 0x0⟩
/-- PAR_GAP, R374. -/
def PAR_GAP : Reg := ⟨0x9060, 0x0⟩
/-- PAR_CAUSE, R374. -/
def PAR_CAUSE : Reg := ⟨0x9064, 0x0⟩
/-- PAR_CNT, R374. -/
def PAR_CNT : Reg := ⟨0x9068, 0x0⟩
/-- FLTMAP, R399. -/
def FLTMAP (p : Nat) : Reg := ⟨p * 0x1000 + 0x1c, if p = 8 ∨ p = 0x13 then 0x01ff01ff else 0x01ff⟩
/-- FLT_IRQRAW, R400. -/
def FLT_IRQRAW : Reg := ⟨0x8010, 0x0⟩
/-- FLT_CTL, R400. -/
def FLT_CTL : Reg := ⟨0x8040, 0x6400⟩
/-- FLT_ERR, R400. -/
def FLT_ERR : Reg := ⟨0x8044, 0xa⟩
/-- FLT_HNMI, R400. -/
def FLT_HNMI : Reg := ⟨0x8048, 0xa⟩
/-- FLT_STAT, R400. -/
def FLT_STAT : Reg := ⟨0x804c, 0x100⟩
/-- FLT_SAFESET, R400. -/
def FLT_SAFESET : Reg := ⟨0x8050, 0x0⟩
/-- FLT_ISEL, R400. -/
def FLT_ISEL : Reg := ⟨0x8054, 0x0⟩
/-- FLT_IDATA, R400. -/
def FLT_IDATA : Reg := ⟨0x8058, 0x0⟩
/-- FLT_ICLOSE, R400. -/
def FLT_ICLOSE : Reg := ⟨0x805c, 0x0⟩
/-- FLT_OPEN, R400. -/
def FLT_OPEN : Reg := ⟨0x8060, 0x0⟩
/-- FLT_INCNO, R400. -/
def FLT_INCNO : Reg := ⟨0x8064, 0x1⟩
/-- FLT_BIVCMD, R400. -/
def FLT_BIVCMD : Reg := ⟨0x8068, 0x0⟩
/-- FLT_BIVST, R400. -/
def FLT_BIVST : Reg := ⟨0x806c, 0x0⟩
/-- FLT_BIVACK, R400. -/
def FLT_BIVACK : Reg := ⟨0x8070, 0x0⟩
/-- FLT_RSTINC, R400. -/
def FLT_RSTINC : Reg := ⟨0x8074, 0x0⟩
/-- FLT_INJ, R400. -/
def FLT_INJ : Reg := ⟨0x8078, 0x0⟩
/-- WDG_IRQRAW, R414. -/
def WDG_IRQRAW : Reg := ⟨0x7010, 0x0⟩
/-- WDG_CTL, R414. -/
def WDG_CTL : Reg := ⟨0x7040, 0x0⟩
/-- WDG_SWIN, R414. -/
def WDG_SWIN : Reg := ⟨0x7044, 0x0⟩
/-- WDG_SSTAT, R414. -/
def WDG_SSTAT : Reg := ⟨0x7048, 0x10000⟩
/-- WDG_HWIN, R414. -/
def WDG_HWIN : Reg := ⟨0x704c, 0x8000⟩
/-- WDG_HEN, R414. -/
def WDG_HEN : Reg := ⟨0x7050, 0x0⟩
/-- WDG_HSTAT, R414. -/
def WDG_HSTAT : Reg := ⟨0x7054, 0x0⟩
/-- WDG_TICK, R414. -/
def WDG_TICK : Reg := ⟨0x7058, 0x0⟩
/-- WDG_WAKE, R414. -/
def WDG_WAKE : Reg := ⟨0x705c, 0x0⟩
/-- WDG_EVCLR, R414. -/
def WDG_EVCLR : Reg := ⟨0x7060, 0x0⟩
/-- WDG_EVe_KIND, R414. -/
def WDG_EVe_KIND (n : Nat) : Reg := ⟨0x7080 + 0x40 * n, 0x0⟩
/-- WDG_EVe_CODE, R414. -/
def WDG_EVe_CODE (n : Nat) : Reg := ⟨0x7084 + 0x40 * n, 0x0⟩
/-- WDG_EVe_TICK, R414. -/
def WDG_EVe_TICK (n : Nat) : Reg := ⟨0x7088 + 0x40 * n, 0x0⟩
/-- WDG_EVe_VER, R414. -/
def WDG_EVe_VER (n : Nat) : Reg := ⟨0x708c + 0x40 * n, 0x0⟩
/-- WDG_EVe_SC, R414. -/
def WDG_EVe_SC (n : Nat) : Reg := ⟨0x7090 + 0x40 * n, 0x0⟩
/-- WDG_EVe_SA, R414. -/
def WDG_EVe_SA (n : Nat) : Reg := ⟨0x7094 + 0x40 * n, 0x0⟩
/-- WDG_EVe_ST_LO, R414. -/
def WDG_EVe_ST_LO (n : Nat) : Reg := ⟨0x7098 + 0x40 * n, 0x0⟩
/-- WDG_EVe_ST_HI, R414. -/
def WDG_EVe_ST_HI (n : Nat) : Reg := ⟨0x709c + 0x40 * n, 0x0⟩
/-- WDG_EVe_XC, R414. -/
def WDG_EVe_XC (n : Nat) : Reg := ⟨0x70a0 + 0x40 * n, 0x0⟩
/-- WDG_EVe_XA, R414. -/
def WDG_EVe_XA (n : Nat) : Reg := ⟨0x70a4 + 0x40 * n, 0x0⟩
/-- WDG_EVe_XT_LO, R414. -/
def WDG_EVe_XT_LO (n : Nat) : Reg := ⟨0x70a8 + 0x40 * n, 0x0⟩
/-- WDG_EVe_XT_HI, R414. -/
def WDG_EVe_XT_HI (n : Nat) : Reg := ⟨0x70ac + 0x40 * n, 0x0⟩
/-- WDG_TSk_SVC, R414. -/
def WDG_TSk_SVC (n : Nat) : Reg := ⟨0x7100 + 0x10 * n, 0x0⟩
/-- WDG_TSk_SITE, R414. -/
def WDG_TSk_SITE (n : Nat) : Reg := ⟨0x7104 + 0x10 * n, 0x0⟩
/-- WDG_TSk_LAST, R414. -/
def WDG_TSk_LAST (n : Nat) : Reg := ⟨0x7108 + 0x10 * n, 0x0⟩
/-- WDG_TSk_CNT, R414. -/
def WDG_TSk_CNT (n : Nat) : Reg := ⟨0x710c + 0x10 * n, 0x0⟩
/-- UPD_IRQRAW, R434. -/
def UPD_IRQRAW : Reg := ⟨0x6010, 0x0⟩
/-- UPD_CTL, R434. -/
def UPD_CTL : Reg := ⟨0x6040, 0x1e00⟩
/-- UPD_GUARD, R434. -/
def UPD_GUARD : Reg := ⟨0x6044, 0x1e086414⟩
/-- UPD_LOCK, R434. -/
def UPD_LOCK : Reg := ⟨0x6048, 0x0⟩
/-- UPD_OP, R434. -/
def UPD_OP : Reg := ⟨0x604c, 0x0⟩
/-- UPD_LEN, R434. -/
def UPD_LEN : Reg := ⟨0x6050, 0x0⟩
/-- UPD_BOFS, R434. -/
def UPD_BOFS : Reg := ⟨0x6054, 0x0⟩
/-- UPD_BCRC, R434. -/
def UPD_BCRC : Reg := ⟨0x6058, 0x0⟩
/-- UPD_BIDX, R434. -/
def UPD_BIDX : Reg := ⟨0x605c, 0x0⟩
/-- UPD_BDATA, R434. -/
def UPD_BDATA : Reg := ⟨0x6060, 0x0⟩
/-- UPD_BOP, R434. -/
def UPD_BOP : Reg := ⟨0x6064, 0x0⟩
/-- UPD_RES, R434. -/
def UPD_RES : Reg := ⟨0x6068, 0x0⟩
/-- UPD_NEXT, R434. -/
def UPD_NEXT : Reg := ⟨0x606c, 0x0⟩
/-- UPD_SUPVER, R434. -/
def UPD_SUPVER : Reg := ⟨0x6070, 0x0⟩
/-- UPD_CEVER, R434. -/
def UPD_CEVER : Reg := ⟨0x6074, 0x0⟩
/-- UPD_BANK, R434. -/
def UPD_BANK : Reg := ⟨0x6078, 0x0⟩
/-- UPD_SECV, R434. -/
def UPD_SECV : Reg := ⟨0x607c, 0x0⟩
/-- UPD_PP, R434. -/
def UPD_PP : Reg := ⟨0x6080, 0x0⟩
/-- UPD_STEP, R434. -/
def UPD_STEP : Reg := ⟨0x6084, 0x0⟩
/-- UPD_STAT, R434. -/
def UPD_STAT : Reg := ⟨0x6088, 0x0⟩
/-- PGCTL, R456. -/
def PGCTL (p : Nat) : Reg := ⟨p * 0x1000 + 0x8, 0x1⟩
/-- PGSTAT, R456. -/
def PGSTAT (p : Nat) : Reg := ⟨p * 0x1000 + 0xc, 0x0⟩
/-- IRQEN, R456. -/
def IRQEN (p : Nat) : Reg := ⟨p * 0x1000 + 0x14, 0x0⟩
/-- IRQPEND, R456. -/
def IRQPEND (p : Nat) : Reg := ⟨p * 0x1000 + 0x18, 0x0⟩
/-- PGKEY, R456. -/
def PGKEY (p : Nat) : Reg := ⟨p * 0x1000 + 0x20, 0x0⟩
/-- SEQ, R456. -/
def SEQ (p : Nat) : Reg := ⟨p * 0x1000 + 0x24, 0x0⟩
/-- COMMIT, R456. -/
def COMMIT (p : Nat) : Reg := ⟨p * 0x1000 + 0x28, 0x0⟩
/-- HIF_IRQRAW, R459. -/
def HIF_IRQRAW : Reg := ⟨0x10, 0x0⟩
/-- HIF_CTL, R459. -/
def HIF_CTL : Reg := ⟨0x40, 0xa03⟩
/-- HIF_STAT, R459. -/
def HIF_STAT : Reg := ⟨0x44, 0x0⟩
/-- HIF_PVEC0, R459. -/
def HIF_PVEC0 : Reg := ⟨0x48, 0xffffffff⟩
/-- HIF_PVEC1, R459. -/
def HIF_PVEC1 : Reg := ⟨0x4c, 0xffffffff⟩
/-- HIF_PVEC2, R459. -/
def HIF_PVEC2 : Reg := ⟨0x50, 0xffffffff⟩
/-- HIF_PVEC3, R459. -/
def HIF_PVEC3 : Reg := ⟨0x54, 0xffffffff⟩
/-- HIF_PVEC4, R459. -/
def HIF_PVEC4 : Reg := ⟨0x58, 0xffffffff⟩
/-- HIF_PVEC5, R459. -/
def HIF_PVEC5 : Reg := ⟨0x5c, 0xffffffff⟩
/-- HIF_PVEC6, R459. -/
def HIF_PVEC6 : Reg := ⟨0x60, 0xffffffff⟩
/-- HIF_RVEC0, R459. -/
def HIF_RVEC0 : Reg := ⟨0x64, 0xffffffff⟩
/-- HIF_RVEC1, R459. -/
def HIF_RVEC1 : Reg := ⟨0x68, 0xffffffff⟩
/-- HIF_RVEC2, R459. -/
def HIF_RVEC2 : Reg := ⟨0x6c, 0xffffffff⟩
/-- HIF_RVEC3, R459. -/
def HIF_RVEC3 : Reg := ⟨0x70, 0xffffffff⟩
/-- HIF_RVEC4, R459. -/
def HIF_RVEC4 : Reg := ⟨0x74, 0xffffffff⟩
/-- HIF_RVEC5, R459. -/
def HIF_RVEC5 : Reg := ⟨0x78, 0xffffffff⟩
/-- HIF_RVEC6, R459. -/
def HIF_RVEC6 : Reg := ⟨0x7c, 0xffffffff⟩
/-- HIF_RVEC7, R459. -/
def HIF_RVEC7 : Reg := ⟨0x80, 0xffffffff⟩
/-- HIF_EOI, R459. -/
def HIF_EOI : Reg := ⟨0x84, 0x0⟩
/-- HIF_VPEND, R459. -/
def HIF_VPEND : Reg := ⟨0x88, 0x0⟩
/-- HIF_WB_LO, R459. -/
def HIF_WB_LO : Reg := ⟨0x8c, 0x0⟩
/-- HIF_WB_HI, R459. -/
def HIF_WB_HI : Reg := ⟨0x90, 0x0⟩
/-- HIF_EVCFG, R459. -/
def HIF_EVCFG : Reg := ⟨0x94, 0x0⟩
/-- HIF_PTPW0, R459. -/
def HIF_PTPW0 : Reg := ⟨0x98, 0x0⟩
/-- HIF_PTPW1, R459. -/
def HIF_PTPW1 : Reg := ⟨0x9c, 0x0⟩
/-- HIF_PTPW2, R459. -/
def HIF_PTPW2 : Reg := ⟨0xa0, 0x0⟩
/-- HIF_PTPW3, R459. -/
def HIF_PTPW3 : Reg := ⟨0xa4, 0x0⟩
/-- HIF_PTPW4, R459. -/
def HIF_PTPW4 : Reg := ⟨0xa8, 0x0⟩
/-- HIF_PTPW5, R459. -/
def HIF_PTPW5 : Reg := ⟨0xac, 0x0⟩
/-- HIF_PTPW6, R459. -/
def HIF_PTPW6 : Reg := ⟨0xb0, 0x0⟩
/-- HIF_PTPW7, R459. -/
def HIF_PTPW7 : Reg := ⟨0xb4, 0x0⟩
/-- HIF_PTPOP, R459. -/
def HIF_PTPOP : Reg := ⟨0xb8, 0x0⟩
/-- HIF_PTPST, R459. -/
def HIF_PTPST : Reg := ⟨0xbc, 0x0⟩
/-- HIF_SPICNT, R459. -/
def HIF_SPICNT : Reg := ⟨0xc0, 0x0⟩
/-- HIF_Mn_IRQRAW, R460. -/
def HIF_Mn_IRQRAW (n : Nat) : Reg := ⟨(n + 1) * 0x1000 + 0x10, 0x0⟩
/-- HIF_Mn_CTL, R460. -/
def HIF_Mn_CTL (n : Nat) : Reg := ⟨(n + 1) * 0x1000 + 0x40, 0x4⟩
/-- HIF_Mn_STAT, R460. -/
def HIF_Mn_STAT (n : Nat) : Reg := ⟨(n + 1) * 0x1000 + 0x44, 0x0⟩
/-- HIF_Mn_ADDR_LO, R460. -/
def HIF_Mn_ADDR_LO (n : Nat) : Reg := ⟨(n + 1) * 0x1000 + 0x48, 0x0⟩
/-- HIF_Mn_ADDR_HI, R460. -/
def HIF_Mn_ADDR_HI (n : Nat) : Reg := ⟨(n + 1) * 0x1000 + 0x4c, 0x0⟩
/-- HIF_Mn_TXB_LO, R460. -/
def HIF_Mn_TXB_LO (n : Nat) : Reg := ⟨(n + 1) * 0x1000 + 0x50, 0x0⟩
/-- HIF_Mn_TXB_HI, R460. -/
def HIF_Mn_TXB_HI (n : Nat) : Reg := ⟨(n + 1) * 0x1000 + 0x54, 0x0⟩
/-- HIF_Mn_RXB_LO, R460. -/
def HIF_Mn_RXB_LO (n : Nat) : Reg := ⟨(n + 1) * 0x1000 + 0x58, 0x0⟩
/-- HIF_Mn_RXB_HI, R460. -/
def HIF_Mn_RXB_HI (n : Nat) : Reg := ⟨(n + 1) * 0x1000 + 0x5c, 0x0⟩
/-- HIF_Mn_RING, R460. -/
def HIF_Mn_RING (n : Nat) : Reg := ⟨(n + 1) * 0x1000 + 0x60, 0x400040⟩
/-- HIF_Mn_TXP, R460. -/
def HIF_Mn_TXP (n : Nat) : Reg := ⟨(n + 1) * 0x1000 + 0x64, 0x0⟩
/-- HIF_Mn_RXP, R460. -/
def HIF_Mn_RXP (n : Nat) : Reg := ⟨(n + 1) * 0x1000 + 0x68, 0x0⟩
/-- HIF_Mn_LAT, R460. -/
def HIF_Mn_LAT (n : Nat) : Reg := ⟨(n + 1) * 0x1000 + 0x6c, 0x0⟩
/-- HIF_Mn_CNT, R460. -/
def HIF_Mn_CNT (n : Nat) : Reg := ⟨(n + 1) * 0x1000 + 0x70, 0x0⟩
/-- SUP_STAT, R461. -/
def SUP_STAT : Reg := ⟨0x3040, 0x0⟩
/-- SUP_ECC, R461. -/
def SUP_ECC : Reg := ⟨0x3044, 0x0⟩
/-- PWR_IRQRAW, R484. -/
def PWR_IRQRAW : Reg := ⟨0x4010, 0x0⟩
/-- PWR_CTL, R484. -/
def PWR_CTL : Reg := ⟨0x4040, 0x7d01⟩
/-- PWR_STAT, R484. -/
def PWR_STAT : Reg := ⟨0x4044, 0x0⟩
/-- PWR_MON, R484. -/
def PWR_MON : Reg := ⟨0x4048, 0xff000f⟩
/-- PWR_EW, R484. -/
def PWR_EW : Reg := ⟨0x404c, 0xa0534b0⟩
/-- PWR_TEMP, R484. -/
def PWR_TEMP : Reg := ⟨0x4050, 0x0⟩
/-- PWR_RSTCMD, R484. -/
def PWR_RSTCMD : Reg := ⟨0x4054, 0x0⟩
/-- PWR_RSTCAUSE, R484. -/
def PWR_RSTCAUSE : Reg := ⟨0x4058, 0x0⟩
/-- PWR_HIB, R484. -/
def PWR_HIB : Reg := ⟨0x405c, 0x0⟩
/-- AO_IRQRAW, R485. -/
def AO_IRQRAW : Reg := ⟨0x5010, 0x4⟩
/-- AO_CTL, R485. -/
def AO_CTL : Reg := ⟨0x5040, 0xa0503⟩
/-- AO_STAT, R485. -/
def AO_STAT : Reg := ⟨0x5044, 0x7⟩
/-- AO_WAKEEN, R485. -/
def AO_WAKEEN : Reg := ⟨0x5048, 0x0⟩
/-- AO_WAKESRC, R485. -/
def AO_WAKESRC : Reg := ⟨0x504c, 0x0⟩
/-- AO_VAO, R485. -/
def AO_VAO : Reg := ⟨0x5050, 0xc80000⟩

end R

namespace F

def ANG_IRQRAW_BANKSW : Fld := ⟨R.ANG_IRQRAW, 6, 6⟩
def ANG_IRQRAW_MISS : Fld := ⟨R.ANG_IRQRAW, 5, 5⟩
def ANG_IRQRAW_REPHASE : Fld := ⟨R.ANG_IRQRAW, 4, 4⟩
def ANG_IRQRAW_HOLDEXP : Fld := ⟨R.ANG_IRQRAW, 3, 3⟩
def ANG_IRQRAW_LOSS : Fld := ⟨R.ANG_IRQRAW, 2, 2⟩
def ANG_IRQRAW_UNLOCK : Fld := ⟨R.ANG_IRQRAW, 1, 1⟩
def ANG_IRQRAW_LOCK : Fld := ⟨R.ANG_IRQRAW, 0, 0⟩
def ANG_CTL_SINBASE : Fld := ⟨R.ANG_CTL, 12, 8⟩
def ANG_CTL_SEQREV : Fld := ⟨R.ANG_CTL, 5, 5⟩
def ANG_CTL_HOLDCOR : Fld := ⟨R.ANG_CTL, 4, 4⟩
def ANG_CTL_HOLDEXIT : Fld := ⟨R.ANG_CTL, 3, 3⟩
def ANG_CTL_BAND : Fld := ⟨R.ANG_CTL, 2, 2⟩
def ANG_CTL_MODE : Fld := ⟨R.ANG_CTL, 1, 0⟩
def ANG_FNOM_FNOM : Fld := ⟨R.ANG_FNOM, 23, 0⟩
def ANG_VFREQ_VFREQ : Fld := ⟨R.ANG_VFREQ, 23, 0⟩
def ANG_VNOM_VNOM : Fld := ⟨R.ANG_VNOM, 15, 0⟩
def ANG_PLL_UNLKTIME : Fld := ⟨R.ANG_PLL, 31, 28⟩
def ANG_PLL_LOCKCYC : Fld := ⟨R.ANG_PLL, 27, 24⟩
def ANG_PLL_UNLKERR : Fld := ⟨R.ANG_PLL, 23, 16⟩
def ANG_PLL_LOCKERR : Fld := ⟨R.ANG_PLL, 15, 8⟩
def ANG_PLL_DAMP : Fld := ⟨R.ANG_PLL, 7, 6⟩
def ANG_PLL_BW : Fld := ⟨R.ANG_PLL, 5, 0⟩
def ANG_LOSS_RETDB : Fld := ⟨R.ANG_LOSS, 23, 20⟩
def ANG_LOSS_TIME : Fld := ⟨R.ANG_LOSS, 19, 8⟩
def ANG_LOSS_LEVEL : Fld := ⟨R.ANG_LOSS, 7, 0⟩
def ANG_HOLD_GAPX : Fld := ⟨R.ANG_HOLD, 31, 24⟩
def ANG_HOLD_SLEW : Fld := ⟨R.ANG_HOLD, 23, 20⟩
def ANG_HOLD_STEPMAX : Fld := ⟨R.ANG_HOLD, 19, 12⟩
def ANG_HOLD_AVGCYC : Fld := ⟨R.ANG_HOLD, 11, 8⟩
def ANG_HOLD_MAXT : Fld := ⟨R.ANG_HOLD, 6, 0⟩
def ANG_STAT_DCDET : Fld := ⟨R.ANG_STAT, 8, 8⟩
def ANG_STAT_BUSY : Fld := ⟨R.ANG_STAT, 7, 7⟩
def ANG_STAT_SEQREV : Fld := ⟨R.ANG_STAT, 6, 6⟩
def ANG_STAT_NSDISC : Fld := ⟨R.ANG_STAT, 5, 5⟩
def ANG_STAT_PLANNED : Fld := ⟨R.ANG_STAT, 4, 4⟩
def ANG_STAT_LOCKED : Fld := ⟨R.ANG_STAT, 3, 3⟩
def ANG_STAT_STATE : Fld := ⟨R.ANG_STAT, 2, 0⟩
def ANG_FREQ_FREQ : Fld := ⟨R.ANG_FREQ, 23, 0⟩
def ANG_DRIFT_HOLDT : Fld := ⟨R.ANG_DRIFT, 31, 16⟩
def ANG_DRIFT_DRIFT : Fld := ⟨R.ANG_DRIFT, 15, 0⟩
def ANG_PHERR_JUMP : Fld := ⟨R.ANG_PHERR, 31, 16⟩
def ANG_PHERR_PHERR : Fld := ⟨R.ANG_PHERR, 15, 0⟩
def ANG_NOWA_ANGLE : Fld := ⟨R.ANG_NOWA, 15, 0⟩
def ANG_NOWC_CYCLE : Fld := ⟨R.ANG_NOWC, 31, 0⟩
def ANG_NOWT_LO_TIME : Fld := ⟨R.ANG_NOWT_LO, 31, 0⟩
def ANG_NOWT_HI_TIME : Fld := ⟨R.ANG_NOWT_HI, 31, 0⟩
def ANG_BINLEN_DIV : Fld := ⟨R.ANG_BINLEN, 15, 0⟩
def ANG_CYCTS_LO_TIME : Fld := ⟨R.ANG_CYCTS_LO, 31, 0⟩
def ANG_CYCTS_HI_TIME : Fld := ⟨R.ANG_CYCTS_HI, 31, 0⟩
def ANG_SIDX_BANK : Fld := ⟨R.ANG_SIDX, 16, 16⟩
def ANG_SIDX_IDX : Fld := ⟨R.ANG_SIDX, 9, 0⟩
def ANG_SW0_DATA : Fld := ⟨R.ANG_SW0, 31, 0⟩
def ANG_SW1_DATA : Fld := ⟨R.ANG_SW1, 31, 0⟩
def ANG_SW2_DATA : Fld := ⟨R.ANG_SW2, 31, 0⟩
def ANG_SW3_DATA : Fld := ⟨R.ANG_SW3, 31, 0⟩
def ANG_SOP_AUTOINC : Fld := ⟨R.ANG_SOP, 4, 4⟩
def ANG_SOP_OP : Fld := ⟨R.ANG_SOP, 1, 0⟩
def ANG_SMISS_LAST : Fld := ⟨R.ANG_SMISS, 25, 16⟩
def ANG_SMISS_COUNT : Fld := ⟨R.ANG_SMISS, 15, 0⟩
def ANG_NSADJ_ADJ : Fld := ⟨R.ANG_NSADJ, 31, 0⟩
def ANG_NSSTEP_LO_STEP : Fld := ⟨R.ANG_NSSTEP_LO, 31, 0⟩
def ANG_NSSTEP_HI_STEP : Fld := ⟨R.ANG_NSSTEP_HI, 31, 0⟩
def LEG_IRQRAW_ALIGN : Fld := ⟨R.LEG_IRQRAW, 5, 5⟩
def LEG_IRQRAW_PHADD : Fld := ⟨R.LEG_IRQRAW, 4, 4⟩
def LEG_IRQRAW_SHEDABORT : Fld := ⟨R.LEG_IRQRAW, 3, 3⟩
def LEG_IRQRAW_SHEDDROP : Fld := ⟨R.LEG_IRQRAW, 2, 2⟩
def LEG_IRQRAW_SHEDANN : Fld := ⟨R.LEG_IRQRAW, 1, 1⟩
def LEG_IRQRAW_CATCH : Fld := ⟨R.LEG_IRQRAW, 0, 0⟩
def LEG_Gk_CFG_NLEG (n : Nat) : Fld := ⟨(R.LEG_Gk_CFG n), 15, 12⟩
def LEG_Gk_CFG_FIRST (n : Nat) : Fld := ⟨(R.LEG_Gk_CFG n), 11, 8⟩
def LEG_Gk_CFG_MODE (n : Nat) : Fld := ⟨(R.LEG_Gk_CFG n), 5, 4⟩
def LEG_Gk_CFG_TOPO (n : Nat) : Fld := ⟨(R.LEG_Gk_CFG n), 3, 1⟩
def LEG_Gk_CFG_EN (n : Nat) : Fld := ⟨(R.LEG_Gk_CFG n), 0, 0⟩
def LEG_Gk_PER_PER (n : Nat) : Fld := ⟨(R.LEG_Gk_PER n), 23, 0⟩
def LEG_Gk_DLIM_MINPW (n : Nat) : Fld := ⟨(R.LEG_Gk_DLIM n), 23, 16⟩
def LEG_Gk_DLIM_MAXD (n : Nat) : Fld := ⟨(R.LEG_Gk_DLIM n), 15, 0⟩
def LEG_Gk_BAL_BALMAX (n : Nat) : Fld := ⟨(R.LEG_Gk_BAL n), 31, 16⟩
def LEG_Gk_BAL_GAIN (n : Nat) : Fld := ⟨(R.LEG_Gk_BAL n), 15, 8⟩
def LEG_Gk_BAL_BALEN (n : Nat) : Fld := ⟨(R.LEG_Gk_BAL n), 4, 4⟩
def LEG_Gk_BAL_BALFIN (n : Nat) : Fld := ⟨(R.LEG_Gk_BAL n), 3, 0⟩
def LEG_Gk_SHED_ANNTO (n : Nat) : Fld := ⟨(R.LEG_Gk_SHED n), 31, 24⟩
def LEG_Gk_SHED_HOLD (n : Nat) : Fld := ⟨(R.LEG_Gk_SHED n), 23, 16⟩
def LEG_Gk_SHED_AVG (n : Nat) : Fld := ⟨(R.LEG_Gk_SHED n), 9, 8⟩
def LEG_Gk_SHED_MINPH (n : Nat) : Fld := ⟨(R.LEG_Gk_SHED n), 5, 2⟩
def LEG_Gk_SHED_MODE (n : Nat) : Fld := ⟨(R.LEG_Gk_SHED n), 1, 1⟩
def LEG_Gk_SHED_EN (n : Nat) : Fld := ⟨(R.LEG_Gk_SHED n), 0, 0⟩
def LEG_Gk_SHEDTH_ADD (n : Nat) : Fld := ⟨(R.LEG_Gk_SHEDTH n), 29, 16⟩
def LEG_Gk_SHEDTH_DROP (n : Nat) : Fld := ⟨(R.LEG_Gk_SHEDTH n), 13, 0⟩
def LEG_Gk_CATCH_HOLDOFF (n : Nat) : Fld := ⟨(R.LEG_Gk_CATCH n), 23, 16⟩
def LEG_Gk_CATCH_EN (n : Nat) : Fld := ⟨(R.LEG_Gk_CATCH n), 15, 15⟩
def LEG_Gk_CATCH_SW (n : Nat) : Fld := ⟨(R.LEG_Gk_CATCH n), 12, 12⟩
def LEG_Gk_CATCH_TCATCH (n : Nat) : Fld := ⟨(R.LEG_Gk_CATCH n), 10, 0⟩
def LEG_Gk_VREF_VREF (n : Nat) : Fld := ⟨(R.LEG_Gk_VREF n), 15, 0⟩
def LEG_Gk_THERM_TEN (n : Nat) : Fld := ⟨(R.LEG_Gk_THERM n), 24, 24⟩
def LEG_Gk_THERM_TSIN (n : Nat) : Fld := ⟨(R.LEG_Gk_THERM n), 20, 16⟩
def LEG_Gk_THERM_TLIM (n : Nat) : Fld := ⟨(R.LEG_Gk_THERM n), 15, 0⟩
def LEG_Gk_STAT_HOLDCNT (n : Nat) : Fld := ⟨(R.LEG_Gk_STAT n), 31, 16⟩
def LEG_Gk_STAT_CATCHCNT (n : Nat) : Fld := ⟨(R.LEG_Gk_STAT n), 15, 8⟩
def LEG_Gk_STAT_SHEDFRZ (n : Nat) : Fld := ⟨(R.LEG_Gk_STAT n), 7, 7⟩
def LEG_Gk_STAT_HOLDOFF (n : Nat) : Fld := ⟨(R.LEG_Gk_STAT n), 6, 6⟩
def LEG_Gk_STAT_CATCH (n : Nat) : Fld := ⟨(R.LEG_Gk_STAT n), 5, 5⟩
def LEG_Gk_STAT_SHEDANN (n : Nat) : Fld := ⟨(R.LEG_Gk_STAT n), 4, 4⟩
def LEG_Gk_STAT_NACT (n : Nat) : Fld := ⟨(R.LEG_Gk_STAT n), 3, 0⟩
def LEG_Ln_DT_DTL (n : Nat) : Fld := ⟨(R.LEG_Ln_DT n), 27, 16⟩
def LEG_Ln_DT_DTH (n : Nat) : Fld := ⟨(R.LEG_Ln_DT n), 11, 0⟩
def LEG_Ln_PHS_TRIM (n : Nat) : Fld := ⟨(R.LEG_Ln_PHS n), 15, 0⟩
def LEG_Ln_STAT_FORCED (n : Nat) : Fld := ⟨(R.LEG_Ln_STAT n), 7, 7⟩
def LEG_Ln_STAT_LIMIT (n : Nat) : Fld := ⟨(R.LEG_Ln_STAT n), 6, 6⟩
def LEG_Ln_STAT_TRIP (n : Nat) : Fld := ⟨(R.LEG_Ln_STAT n), 5, 5⟩
def LEG_Ln_STAT_SHED (n : Nat) : Fld := ⟨(R.LEG_Ln_STAT n), 4, 4⟩
def LEG_Ln_STAT_ACT (n : Nat) : Fld := ⟨(R.LEG_Ln_STAT n), 3, 3⟩
def LEG_Ln_STAT_GROUP (n : Nat) : Fld := ⟨(R.LEG_Ln_STAT n), 2, 0⟩
def LEG_OUTCTL_OFF : Fld := ⟨R.LEG_OUTCTL, 11, 0⟩
def AFE_IRQRAW_OVR : Fld := ⟨R.AFE_IRQRAW, 2, 2⟩
def AFE_IRQRAW_SOPEN : Fld := ⟨R.AFE_IRQRAW, 1, 1⟩
def AFE_IRQRAW_FOPEN : Fld := ⟨R.AFE_IRQRAW, 0, 0⟩
def AFE_CTL_OVRCNT : Fld := ⟨R.AFE_CTL, 15, 8⟩
def AFE_CTL_OWPER : Fld := ⟨R.AFE_CTL, 7, 0⟩
def AFE_OWTHR_STHR : Fld := ⟨R.AFE_OWTHR, 31, 16⟩
def AFE_OWTHR_FTHR : Fld := ⟨R.AFE_OWTHR, 13, 0⟩
def AFE_OWSTAT_F_OPEN : Fld := ⟨R.AFE_OWSTAT_F, 15, 0⟩
def AFE_OWSTAT_S_OPEN : Fld := ⟨R.AFE_OWSTAT_S, 31, 0⟩
def AFE_FINn_CFG_DELAY (n : Nat) : Fld := ⟨(R.AFE_FINn_CFG n), 25, 16⟩
def AFE_FINn_CFG_GROUP (n : Nat) : Fld := ⟨(R.AFE_FINn_CFG n), 10, 8⟩
def AFE_FINn_CFG_OW (n : Nat) : Fld := ⟨(R.AFE_FINn_CFG n), 6, 6⟩
def AFE_FINn_CFG_AVG (n : Nat) : Fld := ⟨(R.AFE_FINn_CFG n), 5, 4⟩
def AFE_FINn_CFG_POINT (n : Nat) : Fld := ⟨(R.AFE_FINn_CFG n), 3, 3⟩
def AFE_FINn_CFG_TRIG (n : Nat) : Fld := ⟨(R.AFE_FINn_CFG n), 2, 1⟩
def AFE_FINn_CFG_EN (n : Nat) : Fld := ⟨(R.AFE_FINn_CFG n), 0, 0⟩
def AFE_FINn_CAL_GAIN (n : Nat) : Fld := ⟨(R.AFE_FINn_CAL n), 31, 16⟩
def AFE_FINn_CAL_OFS (n : Nat) : Fld := ⟨(R.AFE_FINn_CAL n), 13, 0⟩
def AFE_FINn_DATA_SEQ (n : Nat) : Fld := ⟨(R.AFE_FINn_DATA n), 31, 24⟩
def AFE_FINn_DATA_OVR (n : Nat) : Fld := ⟨(R.AFE_FINn_DATA n), 17, 17⟩
def AFE_FINn_DATA_OPEN (n : Nat) : Fld := ⟨(R.AFE_FINn_DATA n), 16, 16⟩
def AFE_FINn_DATA_VALUE (n : Nat) : Fld := ⟨(R.AFE_FINn_DATA n), 15, 0⟩
def AFE_SINn_CFG_OW (n : Nat) : Fld := ⟨(R.AFE_SINn_CFG n), 3, 3⟩
def AFE_SINn_CFG_AVG (n : Nat) : Fld := ⟨(R.AFE_SINn_CFG n), 2, 1⟩
def AFE_SINn_CFG_EN (n : Nat) : Fld := ⟨(R.AFE_SINn_CFG n), 0, 0⟩
def AFE_SINn_DATA_SEQ (n : Nat) : Fld := ⟨(R.AFE_SINn_DATA n), 31, 24⟩
def AFE_SINn_DATA_OVR (n : Nat) : Fld := ⟨(R.AFE_SINn_DATA n), 17, 17⟩
def AFE_SINn_DATA_OPEN (n : Nat) : Fld := ⟨(R.AFE_SINn_DATA n), 16, 16⟩
def AFE_SINn_DATA_VALUE (n : Nat) : Fld := ⟨(R.AFE_SINn_DATA n), 15, 0⟩
def CMP_IRQRAW_HOLDDET : Fld := ⟨R.CMP_IRQRAW, 3, 3⟩
def CMP_IRQRAW_CHAT : Fld := ⟨R.CMP_IRQRAW, 2, 2⟩
def CMP_IRQRAW_LIMPERS : Fld := ⟨R.CMP_IRQRAW, 1, 1⟩
def CMP_IRQRAW_TRIP : Fld := ⟨R.CMP_IRQRAW, 0, 0⟩
def CMP_SCk_CFG_COINC (n : Nat) : Fld := ⟨(R.CMP_SCk_CFG n), 27, 20⟩
def CMP_SCk_CFG_WIN (n : Nat) : Fld := ⟨(R.CMP_SCk_CFG n), 19, 16⟩
def CMP_SCk_CFG_SLOPEFIN (n : Nat) : Fld := ⟨(R.CMP_SCk_CFG n), 15, 12⟩
def CMP_SCk_CFG_DEPTHCMP (n : Nat) : Fld := ⟨(R.CMP_SCk_CFG n), 8, 4⟩
def CMP_SCk_CFG_EN (n : Nat) : Fld := ⟨(R.CMP_SCk_CFG n), 0, 0⟩
def CMP_SCk_SLOPE_SLOPE (n : Nat) : Fld := ⟨(R.CMP_SCk_SLOPE n), 13, 0⟩
def CMP_LATCH_LATCH : Fld := ⟨R.CMP_LATCH, 23, 0⟩
def CMP_TRIPCLR_CLR : Fld := ⟨R.CMP_TRIPCLR, 23, 0⟩
def CMP_CHAT_LIMPERS : Fld := ⟨R.CMP_CHAT, 31, 24⟩
def CMP_CHAT_COUNT : Fld := ⟨R.CMP_CHAT, 23, 16⟩
def CMP_CHAT_WIN : Fld := ⟨R.CMP_CHAT, 15, 0⟩
def CMP_Cn_CFG_EN (n : Nat) : Fld := ⟨(R.CMP_Cn_CFG n), 31, 31⟩
def CMP_Cn_CFG_BLANK (n : Nat) : Fld := ⟨(R.CMP_Cn_CFG n), 23, 16⟩
def CMP_Cn_CFG_DEGL (n : Nat) : Fld := ⟨(R.CMP_Cn_CFG n), 15, 8⟩
def CMP_Cn_CFG_HYST (n : Nat) : Fld := ⟨(R.CMP_Cn_CFG n), 7, 5⟩
def CMP_Cn_CFG_POL (n : Nat) : Fld := ⟨(R.CMP_Cn_CFG n), 4, 4⟩
def CMP_Cn_CFG_SRC (n : Nat) : Fld := ⟨(R.CMP_Cn_CFG n), 3, 0⟩
def CMP_Cn_THR_THR (n : Nat) : Fld := ⟨(R.CMP_Cn_THR n), 9, 0⟩
def CMP_Cn_TM_SIDE (n : Nat) : Fld := ⟨(R.CMP_Cn_TM n), 14, 14⟩
def CMP_Cn_TM_ACT (n : Nat) : Fld := ⟨(R.CMP_Cn_TM n), 13, 12⟩
def CMP_Cn_TM_LEGS (n : Nat) : Fld := ⟨(R.CMP_Cn_TM n), 11, 0⟩
def CMP_Cn_STAT_EDGES (n : Nat) : Fld := ⟨(R.CMP_Cn_STAT n), 31, 16⟩
def CMP_Cn_STAT_LIMRUN (n : Nat) : Fld := ⟨(R.CMP_Cn_STAT n), 15, 8⟩
def CMP_Cn_STAT_HELD (n : Nat) : Fld := ⟨(R.CMP_Cn_STAT n), 3, 3⟩
def CMP_Cn_STAT_CHAT (n : Nat) : Fld := ⟨(R.CMP_Cn_STAT n), 2, 2⟩
def CMP_Cn_STAT_LATCHED (n : Nat) : Fld := ⟨(R.CMP_Cn_STAT n), 1, 1⟩
def CMP_Cn_STAT_OUT (n : Nat) : Fld := ⟨(R.CMP_Cn_STAT n), 0, 0⟩
def CEN_IRQRAW_REFUSE : Fld := ⟨R.CEN_IRQRAW, 7, 7⟩
def CEN_IRQRAW_WREF : Fld := ⟨R.CEN_IRQRAW, 6, 6⟩
def CEN_IRQRAW_LOAD : Fld := ⟨R.CEN_IRQRAW, 5, 5⟩
def CEN_IRQRAW_INTREF : Fld := ⟨R.CEN_IRQRAW, 4, 4⟩
def CEN_IRQRAW_INTENT : Fld := ⟨R.CEN_IRQRAW, 3, 3⟩
def CEN_IRQRAW_SEED : Fld := ⟨R.CEN_IRQRAW, 2, 2⟩
def CEN_IRQRAW_SAT : Fld := ⟨R.CEN_IRQRAW, 1, 1⟩
def CEN_IRQRAW_OVR : Fld := ⟨R.CEN_IRQRAW, 0, 0⟩
def CEN_CTL_INTEN : Fld := ⟨R.CEN_CTL, 1, 1⟩
def CEN_CTL_LOADCHK : Fld := ⟨R.CEN_CTL, 0, 0⟩
def CEN_LOAD_BUSY : Fld := ⟨R.CEN_LOAD, 31, 24⟩
def CEN_LOAD_OVER : Fld := ⟨R.CEN_LOAD, 16, 16⟩
def CEN_LOAD_LOAD : Fld := ⟨R.CEN_LOAD, 15, 0⟩
def CEN_OVR_LAST : Fld := ⟨R.CEN_OVR, 20, 16⟩
def CEN_OVR_COUNT : Fld := ⟨R.CEN_OVR, 15, 0⟩
def CEN_HTRIG_TRIG : Fld := ⟨R.CEN_HTRIG, 31, 0⟩
def CEN_SEED_SEED : Fld := ⟨R.CEN_SEED, 31, 0⟩
def CEN_CADDR_AUTOINC : Fld := ⟨R.CEN_CADDR, 17, 17⟩
def CEN_CADDR_REGION : Fld := ⟨R.CEN_CADDR, 16, 16⟩
def CEN_CADDR_SLOT : Fld := ⟨R.CEN_CADDR, 15, 11⟩
def CEN_CADDR_SET : Fld := ⟨R.CEN_CADDR, 10, 10⟩
def CEN_CADDR_WORD : Fld := ⟨R.CEN_CADDR, 9, 0⟩
def CEN_CDATA_DATA : Fld := ⟨R.CEN_CDATA, 31, 0⟩
def CEN_INTSTAT_COUNT : Fld := ⟨R.CEN_INTSTAT, 5, 0⟩
def CEN_LPs_CFG_TRIG (n : Nat) : Fld := ⟨(R.CEN_LPs_CFG n), 26, 24⟩
def CEN_LPs_CFG_NREF (n : Nat) : Fld := ⟨(R.CEN_LPs_CFG n), 22, 20⟩
def CEN_LPs_CFG_NOUT (n : Nat) : Fld := ⟨(R.CEN_LPs_CFG n), 19, 16⟩
def CEN_LPs_CFG_NIN (n : Nat) : Fld := ⟨(R.CEN_LPs_CFG n), 14, 12⟩
def CEN_LPs_CFG_NST (n : Nat) : Fld := ⟨(R.CEN_LPs_CFG n), 11, 8⟩
def CEN_LPs_CFG_GEN (n : Nat) : Fld := ⟨(R.CEN_LPs_CFG n), 6, 6⟩
def CEN_LPs_CFG_ROT (n : Nat) : Fld := ⟨(R.CEN_LPs_CFG n), 5, 5⟩
def CEN_LPs_CFG_EEN (n : Nat) : Fld := ⟨(R.CEN_LPs_CFG n), 4, 4⟩
def CEN_LPs_CFG_B1EN (n : Nat) : Fld := ⟨(R.CEN_LPs_CFG n), 3, 3⟩
def CEN_LPs_CFG_SHEDSW (n : Nat) : Fld := ⟨(R.CEN_LPs_CFG n), 2, 2⟩
def CEN_LPs_CFG_SET (n : Nat) : Fld := ⟨(R.CEN_LPs_CFG n), 1, 1⟩
def CEN_LPs_CFG_EN (n : Nat) : Fld := ⟨(R.CEN_LPs_CFG n), 0, 0⟩
def CEN_LPs_TRG_PHASE (n : Nat) : Fld := ⟨(R.CEN_LPs_TRG n), 31, 24⟩
def CEN_LPs_TRG_DIV (n : Nat) : Fld := ⟨(R.CEN_LPs_TRG n), 23, 16⟩
def CEN_LPs_TRG_POINT (n : Nat) : Fld := ⟨(R.CEN_LPs_TRG n), 8, 8⟩
def CEN_LPs_TRG_SRC (n : Nat) : Fld := ⟨(R.CEN_LPs_TRG n), 7, 0⟩
def CEN_LPs_YSRC0_Y3 (n : Nat) : Fld := ⟨(R.CEN_LPs_YSRC0 n), 31, 24⟩
def CEN_LPs_YSRC0_Y2 (n : Nat) : Fld := ⟨(R.CEN_LPs_YSRC0 n), 23, 16⟩
def CEN_LPs_YSRC0_Y1 (n : Nat) : Fld := ⟨(R.CEN_LPs_YSRC0 n), 15, 8⟩
def CEN_LPs_YSRC0_Y0 (n : Nat) : Fld := ⟨(R.CEN_LPs_YSRC0 n), 7, 0⟩
def CEN_LPs_YSRC1_Y7 (n : Nat) : Fld := ⟨(R.CEN_LPs_YSRC1 n), 31, 24⟩
def CEN_LPs_YSRC1_Y6 (n : Nat) : Fld := ⟨(R.CEN_LPs_YSRC1 n), 23, 16⟩
def CEN_LPs_YSRC1_Y5 (n : Nat) : Fld := ⟨(R.CEN_LPs_YSRC1 n), 15, 8⟩
def CEN_LPs_YSRC1_Y4 (n : Nat) : Fld := ⟨(R.CEN_LPs_YSRC1 n), 7, 0⟩
def CEN_LPs_RSRC_REF3 (n : Nat) : Fld := ⟨(R.CEN_LPs_RSRC n), 31, 24⟩
def CEN_LPs_RSRC_REF2 (n : Nat) : Fld := ⟨(R.CEN_LPs_RSRC n), 23, 16⟩
def CEN_LPs_RSRC_REF1 (n : Nat) : Fld := ⟨(R.CEN_LPs_RSRC n), 15, 8⟩
def CEN_LPs_RSRC_REF0 (n : Nat) : Fld := ⟨(R.CEN_LPs_RSRC n), 7, 0⟩
def CEN_LPs_ODST_OUT3 (n : Nat) : Fld := ⟨(R.CEN_LPs_ODST n), 31, 24⟩
def CEN_LPs_ODST_OUT2 (n : Nat) : Fld := ⟨(R.CEN_LPs_ODST n), 23, 16⟩
def CEN_LPs_ODST_OUT1 (n : Nat) : Fld := ⟨(R.CEN_LPs_ODST n), 15, 8⟩
def CEN_LPs_ODST_OUT0 (n : Nat) : Fld := ⟨(R.CEN_LPs_ODST n), 7, 0⟩
def CEN_LPs_TIM_FSRC (n : Nat) : Fld := ⟨(R.CEN_LPs_TIM n), 31, 24⟩
def CEN_LPs_TIM_TSEL (n : Nat) : Fld := ⟨(R.CEN_LPs_TIM n), 18, 16⟩
def CEN_LPs_TIM_TAU0 (n : Nat) : Fld := ⟨(R.CEN_LPs_TIM n), 15, 0⟩
def CEN_LPs_KEEP_KEEP (n : Nat) : Fld := ⟨(R.CEN_LPs_KEEP n), 11, 0⟩
def CEN_LPs_STAT_ACTSET (n : Nat) : Fld := ⟨(R.CEN_LPs_STAT n), 23, 23⟩
def CEN_LPs_STAT_SEEDED (n : Nat) : Fld := ⟨(R.CEN_LPs_STAT n), 22, 22⟩
def CEN_LPs_STAT_OVR (n : Nat) : Fld := ⟨(R.CEN_LPs_STAT n), 21, 21⟩
def CEN_LPs_STAT_WSAT (n : Nat) : Fld := ⟨(R.CEN_LPs_STAT n), 20, 20⟩
def CEN_LPs_STAT_SAT (n : Nat) : Fld := ⟨(R.CEN_LPs_STAT n), 19, 19⟩
def CEN_LPs_STAT_WIN (n : Nat) : Fld := ⟨(R.CEN_LPs_STAT n), 14, 11⟩
def CEN_LPs_STAT_COST (n : Nat) : Fld := ⟨(R.CEN_LPs_STAT n), 6, 0⟩
def CEN_LPs_DLY_WAIT (n : Nat) : Fld := ⟨(R.CEN_LPs_DLY n), 31, 16⟩
def CEN_LPs_DLY_TAU (n : Nat) : Fld := ⟨(R.CEN_LPs_DLY n), 15, 0⟩
def CEN_LPs_DLYMAX_WAIT (n : Nat) : Fld := ⟨(R.CEN_LPs_DLYMAX n), 31, 16⟩
def CEN_LPs_DLYMAX_TAU (n : Nat) : Fld := ⟨(R.CEN_LPs_DLYMAX n), 15, 0⟩
def CEN_LPs_CNT_DROP (n : Nat) : Fld := ⟨(R.CEN_LPs_CNT n), 31, 24⟩
def CEN_LPs_CNT_ITER (n : Nat) : Fld := ⟨(R.CEN_LPs_CNT n), 23, 0⟩
def BUS_IRQRAW_EXPOFF : Fld := ⟨R.BUS_IRQRAW, 7, 7⟩
def BUS_IRQRAW_MON : Fld := ⟨R.BUS_IRQRAW, 6, 6⟩
def BUS_IRQRAW_UNMET : Fld := ⟨R.BUS_IRQRAW, 5, 5⟩
def BUS_IRQRAW_GAP : Fld := ⟨R.BUS_IRQRAW, 4, 4⟩
def BUS_IRQRAW_DROOP : Fld := ⟨R.BUS_IRQRAW, 3, 3⟩
def BUS_IRQRAW_TAKE : Fld := ⟨R.BUS_IRQRAW, 2, 2⟩
def BUS_IRQRAW_HOLD : Fld := ⟨R.BUS_IRQRAW, 1, 1⟩
def BUS_IRQRAW_NORMAL : Fld := ⟨R.BUS_IRQRAW, 0, 0⟩
def BUS_CTL_DROOPFRC : Fld := ⟨R.BUS_CTL, 4, 4⟩
def BUS_CTL_UNLKLOSS : Fld := ⟨R.BUS_CTL, 3, 3⟩
def BUS_CTL_INVEN : Fld := ⟨R.BUS_CTL, 2, 2⟩
def BUS_CTL_GAPEN : Fld := ⟨R.BUS_CTL, 1, 1⟩
def BUS_CTL_EN : Fld := ⟨R.BUS_CTL, 0, 0⟩
def BUS_BASE_IBASE : Fld := ⟨R.BUS_BASE, 31, 16⟩
def BUS_BASE_VBASE : Fld := ⟨R.BUS_BASE, 15, 0⟩
def BUS_VREF_SLEW : Fld := ⟨R.BUS_VREF, 23, 16⟩
def BUS_VREF_VSET : Fld := ⟨R.BUS_VREF, 15, 0⟩
def BUS_VMON_VSCALE : Fld := ⟨R.BUS_VMON, 31, 8⟩
def BUS_VMON_SRC : Fld := ⟨R.BUS_VMON, 7, 0⟩
def BUS_UVOV_OV : Fld := ⟨R.BUS_UVOV, 31, 16⟩
def BUS_UVOV_UV : Fld := ⟨R.BUS_UVOV, 15, 0⟩
def BUS_MONT_SHERR : Fld := ⟨R.BUS_MONT, 31, 24⟩
def BUS_MONT_UNMT : Fld := ⟨R.BUS_MONT, 23, 16⟩
def BUS_MONT_OVT : Fld := ⟨R.BUS_MONT, 15, 8⟩
def BUS_MONT_UVT : Fld := ⟨R.BUS_MONT, 7, 0⟩
def BUS_DEM_DSRC : Fld := ⟨R.BUS_DEM, 7, 0⟩
def BUS_DROOP_KDL : Fld := ⟨R.BUS_DROOP, 27, 16⟩
def BUS_DROOP_V0L : Fld := ⟨R.BUS_DROOP, 15, 0⟩
def BUS_SPTIM_LOSS : Fld := ⟨R.BUS_SPTIM, 15, 8⟩
def BUS_SPTIM_PER : Fld := ⟨R.BUS_SPTIM, 7, 0⟩
def BUS_HU_TAKE : Fld := ⟨R.BUS_HU, 31, 24⟩
def BUS_HU_TDIP : Fld := ⟨R.BUS_HU, 23, 16⟩
def BUS_HU_VDIP : Fld := ⟨R.BUS_HU, 15, 0⟩
def BUS_GAP_TRET : Fld := ⟨R.BUS_GAP, 31, 24⟩
def BUS_GAP_TGUARD : Fld := ⟨R.BUS_GAP, 23, 16⟩
def BUS_GAP_TRAMP : Fld := ⟨R.BUS_GAP, 15, 8⟩
def BUS_GAP_TLEAD : Fld := ⟨R.BUS_GAP, 7, 0⟩
def BUS_RET_SLEW : Fld := ⟨R.BUS_RET, 15, 8⟩
def BUS_RET_RETDLY : Fld := ⟨R.BUS_RET, 7, 0⟩
def BUS_AFESEED_SLOTS : Fld := ⟨R.BUS_AFESEED, 31, 0⟩
def BUS_EXPORT_INVMAX : Fld := ⟨R.BUS_EXPORT, 31, 16⟩
def BUS_EXPORT_X : Fld := ⟨R.BUS_EXPORT, 15, 0⟩
def BUS_STAT_SRCAV : Fld := ⟨R.BUS_STAT, 23, 16⟩
def BUS_STAT_NQ : Fld := ⟨R.BUS_STAT, 11, 8⟩
def BUS_STAT_EXPORT : Fld := ⟨R.BUS_STAT, 7, 7⟩
def BUS_STAT_OV : Fld := ⟨R.BUS_STAT, 6, 6⟩
def BUS_STAT_UV : Fld := ⟨R.BUS_STAT, 5, 5⟩
def BUS_STAT_UNMET : Fld := ⟨R.BUS_STAT, 4, 4⟩
def BUS_STAT_DROOP : Fld := ⟨R.BUS_STAT, 3, 3⟩
def BUS_STAT_STATE : Fld := ⟨R.BUS_STAT, 2, 0⟩
def BUS_DEMAND_UNMET : Fld := ⟨R.BUS_DEMAND, 31, 16⟩
def BUS_DEMAND_D : Fld := ⟨R.BUS_DEMAND, 15, 0⟩
def BUS_AVAIL_PHOLD : Fld := ⟨R.BUS_AVAIL, 31, 16⟩
def BUS_AVAIL_PNOW : Fld := ⟨R.BUS_AVAIL, 15, 0⟩
def BUS_TAKE_PATH : Fld := ⟨R.BUS_TAKE, 17, 16⟩
def BUS_TAKE_TIME : Fld := ⟨R.BUS_TAKE, 15, 0⟩
def BUS_GNC_VALUE : Fld := ⟨R.BUS_GNC, 31, 0⟩
def BUS_GNA_VALUE : Fld := ⟨R.BUS_GNA, 31, 0⟩
def BUS_GNOP_FORM : Fld := ⟨R.BUS_GNOP, 30, 30⟩
def BUS_GNOP_OP : Fld := ⟨R.BUS_GNOP, 29, 28⟩
def BUS_GNOP_ID : Fld := ⟨R.BUS_GNOP, 27, 24⟩
def BUS_GNOP_DUR : Fld := ⟨R.BUS_GNOP, 23, 0⟩
def BUS_GNRES_RES : Fld := ⟨R.BUS_GNRES, 7, 4⟩
def BUS_GNRES_ID : Fld := ⟨R.BUS_GNRES, 3, 0⟩
def BUS_GNk_C_CYCLE (n : Nat) : Fld := ⟨(R.BUS_GNk_C n), 31, 0⟩
def BUS_GNk_A_MERGED (n : Nat) : Fld := ⟨(R.BUS_GNk_A n), 24, 24⟩
def BUS_GNk_A_SRC (n : Nat) : Fld := ⟨(R.BUS_GNk_A n), 23, 23⟩
def BUS_GNk_A_STATE (n : Nat) : Fld := ⟨(R.BUS_GNk_A n), 22, 20⟩
def BUS_GNk_A_ID (n : Nat) : Fld := ⟨(R.BUS_GNk_A n), 19, 16⟩
def BUS_GNk_A_ANGLE (n : Nat) : Fld := ⟨(R.BUS_GNk_A n), 15, 0⟩
def BUS_GNk_D_DUR (n : Nat) : Fld := ⟨(R.BUS_GNk_D n), 23, 0⟩
def BUS_Si_CFG_MSRC (n : Nat) : Fld := ⟨(R.BUS_Si_CFG n), 31, 24⟩
def BUS_Si_CFG_WEIGHT (n : Nat) : Fld := ⟨(R.BUS_Si_CFG n), 23, 16⟩
def BUS_Si_CFG_CLASS (n : Nat) : Fld := ⟨(R.BUS_Si_CFG n), 9, 8⟩
def BUS_Si_CFG_LINE (n : Nat) : Fld := ⟨(R.BUS_Si_CFG n), 7, 7⟩
def BUS_Si_CFG_UNIT (n : Nat) : Fld := ⟨(R.BUS_Si_CFG n), 6, 4⟩
def BUS_Si_CFG_KIND (n : Nat) : Fld := ⟨(R.BUS_Si_CFG n), 3, 1⟩
def BUS_Si_CFG_EN (n : Nat) : Fld := ⟨(R.BUS_Si_CFG n), 0, 0⟩
def BUS_Si_LIM_HI (n : Nat) : Fld := ⟨(R.BUS_Si_LIM n), 31, 16⟩
def BUS_Si_LIM_LO (n : Nat) : Fld := ⟨(R.BUS_Si_LIM n), 15, 0⟩
def BUS_Si_SHARE_DUTY (n : Nat) : Fld := ⟨(R.BUS_Si_SHARE n), 18, 18⟩
def BUS_Si_SHARE_CLAMP (n : Nat) : Fld := ⟨(R.BUS_Si_SHARE n), 17, 17⟩
def BUS_Si_SHARE_AVAIL (n : Nat) : Fld := ⟨(R.BUS_Si_SHARE n), 16, 16⟩
def BUS_Si_SHARE_SHARE (n : Nat) : Fld := ⟨(R.BUS_Si_SHARE n), 15, 0⟩
def BUS_Si_MEAS_ERR (n : Nat) : Fld := ⟨(R.BUS_Si_MEAS n), 31, 16⟩
def BUS_Si_MEAS_MEAS (n : Nat) : Fld := ⟨(R.BUS_Si_MEAS n), 15, 0⟩
def BUS_SPn_CFG_RING (n : Nat) : Fld := ⟨(R.BUS_SPn_CFG n), 14, 10⟩
def BUS_SPn_CFG_STAGE (n : Nat) : Fld := ⟨(R.BUS_SPn_CFG n), 9, 9⟩
def BUS_SPn_CFG_EN (n : Nat) : Fld := ⟨(R.BUS_SPn_CFG n), 8, 8⟩
def BUS_SPn_CFG_CTX (n : Nat) : Fld := ⟨(R.BUS_SPn_CFG n), 7, 0⟩
def BUS_SPn_DR_KD (n : Nat) : Fld := ⟨(R.BUS_SPn_DR n), 27, 16⟩
def BUS_SPn_DR_V0 (n : Nat) : Fld := ⟨(R.BUS_SPn_DR n), 15, 0⟩
def CAP_IRQRAW_REFUSE : Fld := ⟨R.CAP_IRQRAW, 6, 6⟩
def CAP_IRQRAW_REG : Fld := ⟨R.CAP_IRQRAW, 5, 5⟩
def CAP_IRQRAW_INTREF : Fld := ⟨R.CAP_IRQRAW, 4, 4⟩
def CAP_IRQRAW_ROLE : Fld := ⟨R.CAP_IRQRAW, 3, 3⟩
def CAP_IRQRAW_OVER : Fld := ⟨R.CAP_IRQRAW, 2, 2⟩
def CAP_IRQRAW_FB : Fld := ⟨R.CAP_IRQRAW, 1, 1⟩
def CAP_IRQRAW_GRANT : Fld := ⟨R.CAP_IRQRAW, 0, 0⟩
def CAP_CTL_CPRIO : Fld := ⟨R.CAP_CTL, 11, 8⟩
def CAP_CTL_DEPOT : Fld := ⟨R.CAP_CTL, 7, 7⟩
def CAP_CTL_SHEDEN : Fld := ⟨R.CAP_CTL, 6, 6⟩
def CAP_CTL_SPARE : Fld := ⟨R.CAP_CTL, 5, 5⟩
def CAP_CTL_XPATH : Fld := ⟨R.CAP_CTL, 4, 4⟩
def CAP_CTL_CHC : Fld := ⟨R.CAP_CTL, 3, 3⟩
def CAP_CTL_CARHC : Fld := ⟨R.CAP_CTL, 2, 2⟩
def CAP_CTL_EN : Fld := ⟨R.CAP_CTL, 0, 0⟩
def CAP_ID_LO_ID : Fld := ⟨R.CAP_ID_LO, 31, 0⟩
def CAP_ID_HI_ID : Fld := ⟨R.CAP_ID_HI, 31, 0⟩
def CAP_NUM_NUMBERED : Fld := ⟨R.CAP_NUM, 10, 10⟩
def CAP_NUM_CONHEAD : Fld := ⟨R.CAP_NUM, 9, 9⟩
def CAP_NUM_CARHEAD : Fld := ⟨R.CAP_NUM, 8, 8⟩
def CAP_NUM_SHELF : Fld := ⟨R.CAP_NUM, 7, 4⟩
def CAP_CAR_CAR : Fld := ⟨R.CAP_CAR, 4, 0⟩
def CAP_TIM_GRANTTO : Fld := ⟨R.CAP_TIM, 31, 24⟩
def CAP_TIM_HR : Fld := ⟨R.CAP_TIM, 23, 16⟩
def CAP_TIM_LEAD : Fld := ⟨R.CAP_TIM, 15, 8⟩
def CAP_TIM_REPPER : Fld := ⟨R.CAP_TIM, 7, 0⟩
def CAP_HEADT_OVRMARG : Fld := ⟨R.CAP_HEADT, 23, 16⟩
def CAP_HEADT_OVRT : Fld := ⟨R.CAP_HEADT, 15, 8⟩
def CAP_HEADT_ELECTT : Fld := ⟨R.CAP_HEADT, 7, 0⟩
def CAP_FB_FALLBACK : Fld := ⟨R.CAP_FB, 23, 0⟩
def CAP_TOP_TOP : Fld := ⟨R.CAP_TOP, 23, 0⟩
def CAP_GRANT_PHB : Fld := ⟨R.CAP_GRANT, 25, 25⟩
def CAP_GRANT_FB : Fld := ⟨R.CAP_GRANT, 24, 24⟩
def CAP_GRANT_BUDGET : Fld := ⟨R.CAP_GRANT, 23, 0⟩
def CAP_GPEND_VALID : Fld := ⟨R.CAP_GPEND, 24, 24⟩
def CAP_GPEND_BUDGET : Fld := ⟨R.CAP_GPEND, 23, 0⟩
def CAP_PSHELF_P : Fld := ⟨R.CAP_PSHELF, 23, 0⟩
def CAP_PUNB_PU : Fld := ⟨R.CAP_PUNB, 23, 0⟩
def CAP_RESV_RESERVE : Fld := ⟨R.CAP_RESV, 23, 0⟩
def CAP_RBASE_LO_BASE : Fld := ⟨R.CAP_RBASE_LO, 31, 0⟩
def CAP_RBASE_HI_BASE : Fld := ⟨R.CAP_RBASE_HI, 31, 0⟩
def CAP_RUIDX_IDX : Fld := ⟨R.CAP_RUIDX, 8, 0⟩
def CAP_RUDAT_VALID : Fld := ⟨R.CAP_RUDAT, 31, 31⟩
def CAP_RUDAT_BLOCK : Fld := ⟨R.CAP_RUDAT, 11, 0⟩
def CAP_RSTAT_UNITS : Fld := ⟨R.CAP_RSTAT, 9, 0⟩
def CAP_RDISC_NOTPRES : Fld := ⟨R.CAP_RDISC, 31, 16⟩
def CAP_RDISC_OLDDISC : Fld := ⟨R.CAP_RDISC, 15, 0⟩
def CAP_RLA_ADDR : Fld := ⟨R.CAP_RLA, 31, 0⟩
def CAP_RLD0_DATA : Fld := ⟨R.CAP_RLD0, 31, 0⟩
def CAP_RLD1_DATA : Fld := ⟨R.CAP_RLD1, 31, 0⟩
def CAP_RLD2_DATA : Fld := ⟨R.CAP_RLD2, 31, 0⟩
def CAP_RLD3_DATA : Fld := ⟨R.CAP_RLD3, 31, 0⟩
def CAP_RLST_UNALLOC : Fld := ⟨R.CAP_RLST, 2, 2⟩
def CAP_RLST_PRES : Fld := ⟨R.CAP_RLST, 1, 1⟩
def CAP_RLST_BUSY : Fld := ⟨R.CAP_RLST, 0, 0⟩
def CAP_LIEP_ADDR : Fld := ⟨R.CAP_LIEP, 31, 0⟩
def CAP_LIP_DP : Fld := ⟨R.CAP_LIP, 31, 0⟩
def CAP_LIT0_VALUE : Fld := ⟨R.CAP_LIT0, 31, 0⟩
def CAP_LIT1_VALUE : Fld := ⟨R.CAP_LIT1, 31, 0⟩
def CAP_LIOP_FORM : Fld := ⟨R.CAP_LIOP, 1, 1⟩
def CAP_LIOP_POST : Fld := ⟨R.CAP_LIOP, 0, 0⟩
def CAP_LIRES_DPB : Fld := ⟨R.CAP_LIRES, 23, 0⟩
def CAP_LISTAT_ROUTES : Fld := ⟨R.CAP_LISTAT, 11, 4⟩
def CAP_LISTAT_RES : Fld := ⟨R.CAP_LISTAT, 3, 0⟩
def CAP_XCFG_XRING : Fld := ⟨R.CAP_XCFG, 4, 0⟩
def CAP_XIN0_DATA : Fld := ⟨R.CAP_XIN0, 31, 0⟩
def CAP_XIN1_DATA : Fld := ⟨R.CAP_XIN1, 31, 0⟩
def CAP_XIN2_DATA : Fld := ⟨R.CAP_XIN2, 31, 0⟩
def CAP_XIN3_DATA : Fld := ⟨R.CAP_XIN3, 31, 0⟩
def CAP_XIN4_DATA : Fld := ⟨R.CAP_XIN4, 31, 0⟩
def CAP_XIN5_DATA : Fld := ⟨R.CAP_XIN5, 31, 0⟩
def CAP_XINOP_KIND : Fld := ⟨R.CAP_XINOP, 1, 0⟩
def CAP_SHED0_CH : Fld := ⟨R.CAP_SHED0, 31, 0⟩
def CAP_SHED1_CH : Fld := ⟨R.CAP_SHED1, 31, 0⟩
def CAP_SHEDCFG_NEXT : Fld := ⟨R.CAP_SHEDCFG, 12, 8⟩
def CAP_SHEDCFG_N : Fld := ⟨R.CAP_SHEDCFG, 4, 0⟩
def CAP_GMSRC0_SRC : Fld := ⟨R.CAP_GMSRC0, 31, 0⟩
def CAP_GMSRC1_SRC : Fld := ⟨R.CAP_GMSRC1, 31, 0⟩
def CAP_IRk_A_EN (n : Nat) : Fld := ⟨(R.CAP_IRk_A n), 31, 31⟩
def CAP_IRk_A_SLOT (n : Nat) : Fld := ⟨(R.CAP_IRk_A n), 28, 24⟩
def CAP_IRk_A_FIX (n : Nat) : Fld := ⟨(R.CAP_IRk_A n), 17, 16⟩
def CAP_IRk_A_MODULE (n : Nat) : Fld := ⟨(R.CAP_IRk_A n), 15, 10⟩
def CAP_IRk_A_ELEMENT (n : Nat) : Fld := ⟨(R.CAP_IRk_A n), 9, 0⟩
def CAP_IRk_B_PBASE (n : Nat) : Fld := ⟨(R.CAP_IRk_B n), 15, 0⟩
def CAP_CBk_EP_ADDR (n : Nat) : Fld := ⟨(R.CAP_CBk_EP n), 31, 0⟩
def CAP_CBk_CFG_PARAM (n : Nat) : Fld := ⟨(R.CAP_CBk_CFG n), 31, 16⟩
def CAP_CBk_CFG_WEIGHT (n : Nat) : Fld := ⟨(R.CAP_CBk_CFG n), 15, 8⟩
def CAP_CBk_CFG_PRIO (n : Nat) : Fld := ⟨(R.CAP_CBk_CFG n), 5, 4⟩
def CAP_CBk_CFG_ACT (n : Nat) : Fld := ⟨(R.CAP_CBk_CFG n), 3, 1⟩
def CAP_CBk_CFG_EN (n : Nat) : Fld := ⟨(R.CAP_CBk_CFG n), 0, 0⟩
def CAP_CBk_LIM_CMAX (n : Nat) : Fld := ⟨(R.CAP_CBk_LIM n), 31, 16⟩
def CAP_CBk_LIM_FLOOR (n : Nat) : Fld := ⟨(R.CAP_CBk_LIM n), 15, 0⟩
def CAP_CBk_STAT_MEAS (n : Nat) : Fld := ⟨(R.CAP_CBk_STAT n), 31, 16⟩
def CAP_CBk_STAT_CAP (n : Nat) : Fld := ⟨(R.CAP_CBk_STAT n), 15, 0⟩
def CAP_CHj_ID_ADDR (n : Nat) : Fld := ⟨(R.CAP_CHj_ID n), 31, 0⟩
def CAP_CHj_PW_PRIO (n : Nat) : Fld := ⟨(R.CAP_CHj_PW n), 9, 8⟩
def CAP_CHj_PW_WEIGHT (n : Nat) : Fld := ⟨(R.CAP_CHj_PW n), 7, 0⟩
def CAP_CHj_REP_STALE (n : Nat) : Fld := ⟨(R.CAP_CHj_REP n), 24, 24⟩
def CAP_CHj_REP_WANT (n : Nat) : Fld := ⟨(R.CAP_CHj_REP n), 23, 0⟩
def CAP_CHj_GR_GRANT (n : Nat) : Fld := ⟨(R.CAP_CHj_GR n), 23, 0⟩
def EFU_IRQRAW_UV : Fld := ⟨R.EFU_IRQRAW, 7, 7⟩
def EFU_IRQRAW_SHARE : Fld := ⟨R.EFU_IRQRAW, 6, 6⟩
def EFU_IRQRAW_CAP : Fld := ⟨R.EFU_IRQRAW, 5, 5⟩
def EFU_IRQRAW_PGCHG : Fld := ⟨R.EFU_IRQRAW, 4, 4⟩
def EFU_IRQRAW_LATCH : Fld := ⟨R.EFU_IRQRAW, 3, 3⟩
def EFU_IRQRAW_REV : Fld := ⟨R.EFU_IRQRAW, 2, 2⟩
def EFU_IRQRAW_DAMAGE : Fld := ⟨R.EFU_IRQRAW, 1, 1⟩
def EFU_IRQRAW_TRIP : Fld := ⟨R.EFU_IRQRAW, 0, 0⟩
def EFU_CTL_GSON : Fld := ⟨R.EFU_CTL, 15, 8⟩
def EFU_CTL_EN : Fld := ⟨R.EFU_CTL, 0, 0⟩
def EFU_CHEN_EN : Fld := ⟨R.EFU_CHEN, 15, 0⟩
def EFU_STATE0_STATE : Fld := ⟨R.EFU_STATE0, 31, 0⟩
def EFU_STATE1_STATE : Fld := ⟨R.EFU_STATE1, 31, 0⟩
def EFU_PGSTAT_PIN : Fld := ⟨R.EFU_PGSTAT, 23, 16⟩
def EFU_PGSTAT_CH : Fld := ⟨R.EFU_PGSTAT, 15, 0⟩
def EFU_DMGCLR_CLR : Fld := ⟨R.EFU_DMGCLR, 15, 0⟩
def EFU_PGm_MAP_EN (n : Nat) : Fld := ⟨(R.EFU_PGm_MAP n), 19, 19⟩
def EFU_PGm_MAP_POL (n : Nat) : Fld := ⟨(R.EFU_PGm_MAP n), 18, 18⟩
def EFU_PGm_MAP_OD (n : Nat) : Fld := ⟨(R.EFU_PGm_MAP n), 17, 17⟩
def EFU_PGm_MAP_MODE (n : Nat) : Fld := ⟨(R.EFU_PGm_MAP n), 16, 16⟩
def EFU_PGm_MAP_CH (n : Nat) : Fld := ⟨(R.EFU_PGm_MAP n), 15, 0⟩
def EFU_CHn_CFG_SHDV (n : Nat) : Fld := ⟨(R.EFU_CHn_CFG n), 31, 28⟩
def EFU_CHn_CFG_SHMARG (n : Nat) : Fld := ⟨(R.EFU_CHn_CFG n), 27, 24⟩
def EFU_CHn_CFG_REVTH (n : Nat) : Fld := ⟨(R.EFU_CHn_CFG n), 23, 16⟩
def EFU_CHn_CFG_CAPT (n : Nat) : Fld := ⟨(R.EFU_CHn_CFG n), 15, 8⟩
def EFU_CHn_CFG_PAIR (n : Nat) : Fld := ⟨(R.EFU_CHn_CFG n), 4, 4⟩
def EFU_CHn_CFG_SDEN (n : Nat) : Fld := ⟨(R.EFU_CHn_CFG n), 3, 3⟩
def EFU_CHn_CFG_REVEN (n : Nat) : Fld := ⟨(R.EFU_CHn_CFG n), 2, 2⟩
def EFU_CHn_CFG_CAPM (n : Nat) : Fld := ⟨(R.EFU_CHn_CFG n), 1, 0⟩
def EFU_CHn_LIM_LIMTH (n : Nat) : Fld := ⟨(R.EFU_CHn_LIM n), 23, 16⟩
def EFU_CHn_LIM_ILIM (n : Nat) : Fld := ⟨(R.EFU_CHn_LIM n), 11, 0⟩
def EFU_CHn_SCALE_VFS (n : Nat) : Fld := ⟨(R.EFU_CHn_SCALE n), 31, 16⟩
def EFU_CHn_SCALE_KIS (n : Nat) : Fld := ⟨(R.EFU_CHn_SCALE n), 15, 0⟩
def EFU_CHn_FT_GRT (n : Nat) : Fld := ⟨(R.EFU_CHn_FT n), 29, 20⟩
def EFU_CHn_FT_FT (n : Nat) : Fld := ⟨(R.EFU_CHn_FT n), 19, 0⟩
def EFU_CHn_SD_SDWIN (n : Nat) : Fld := ⟨(R.EFU_CHn_SD n), 29, 26⟩
def EFU_CHn_SD_DVDT (n : Nat) : Fld := ⟨(R.EFU_CHn_SD n), 25, 16⟩
def EFU_CHn_SD_SDT (n : Nat) : Fld := ⟨(R.EFU_CHn_SD n), 9, 0⟩
def EFU_CHn_PG_UVTH (n : Nat) : Fld := ⟨(R.EFU_CHn_PG n), 31, 16⟩
def EFU_CHn_PG_PGTH (n : Nat) : Fld := ⟨(R.EFU_CHn_PG n), 15, 0⟩
def EFU_CHn_RTY_PGDLY (n : Nat) : Fld := ⟨(R.EFU_CHn_RTY n), 31, 24⟩
def EFU_CHn_RTY_RCLR (n : Nat) : Fld := ⟨(R.EFU_CHn_RTY n), 23, 16⟩
def EFU_CHn_RTY_RMIN (n : Nat) : Fld := ⟨(R.EFU_CHn_RTY n), 15, 8⟩
def EFU_CHn_RTY_RCNT (n : Nat) : Fld := ⟨(R.EFU_CHn_RTY n), 7, 0⟩
def EFU_CHn_VIN_VSCALE (n : Nat) : Fld := ⟨(R.EFU_CHn_VIN n), 31, 8⟩
def EFU_CHn_VIN_SRC (n : Nat) : Fld := ⟨(R.EFU_CHn_VIN n), 7, 0⟩
def EFU_CHn_STAT_RLEFT (n : Nat) : Fld := ⟨(R.EFU_CHn_STAT n), 23, 16⟩
def EFU_CHn_STAT_BIV (n : Nat) : Fld := ⟨(R.EFU_CHn_STAT n), 10, 10⟩
def EFU_CHn_STAT_HELD (n : Nat) : Fld := ⟨(R.EFU_CHn_STAT n), 9, 9⟩
def EFU_CHn_STAT_FTRUN (n : Nat) : Fld := ⟨(R.EFU_CHn_STAT n), 8, 8⟩
def EFU_CHn_STAT_INLIM (n : Nat) : Fld := ⟨(R.EFU_CHn_STAT n), 7, 7⟩
def EFU_CHn_STAT_GATE (n : Nat) : Fld := ⟨(R.EFU_CHn_STAT n), 6, 6⟩
def EFU_CHn_STAT_DMG (n : Nat) : Fld := ⟨(R.EFU_CHn_STAT n), 5, 5⟩
def EFU_CHn_STAT_PG (n : Nat) : Fld := ⟨(R.EFU_CHn_STAT n), 4, 4⟩
def EFU_CHn_STAT_STATE (n : Nat) : Fld := ⟨(R.EFU_CHn_STAT n), 3, 0⟩
def EFU_CHn_MEAS_VO (n : Nat) : Fld := ⟨(R.EFU_CHn_MEAS n), 31, 16⟩
def EFU_CHn_MEAS_I (n : Nat) : Fld := ⟨(R.EFU_CHn_MEAS n), 15, 0⟩
def EFU_CHn_CAP_IOFF (n : Nat) : Fld := ⟨(R.EFU_CHn_CAP n), 31, 16⟩
def EFU_CHn_CAP_ICAP (n : Nat) : Fld := ⟨(R.EFU_CHn_CAP n), 15, 0⟩
def EFU_CHn_CNT_TRIPS (n : Nat) : Fld := ⟨(R.EFU_CHn_CNT n), 15, 0⟩
def BAT_IRQRAW_REFUSE : Fld := ⟨R.BAT_IRQRAW, 7, 7⟩
def BAT_IRQRAW_WAKE : Fld := ⟨R.BAT_IRQRAW, 6, 6⟩
def BAT_IRQRAW_RESTORE : Fld := ⟨R.BAT_IRQRAW, 5, 5⟩
def BAT_IRQRAW_INSERT : Fld := ⟨R.BAT_IRQRAW, 4, 4⟩
def BAT_IRQRAW_DISAGREE : Fld := ⟨R.BAT_IRQRAW, 3, 3⟩
def BAT_IRQRAW_CHGSTATE : Fld := ⟨R.BAT_IRQRAW, 2, 2⟩
def BAT_IRQRAW_ZNEW : Fld := ⟨R.BAT_IRQRAW, 1, 1⟩
def BAT_IRQRAW_ANCHOR : Fld := ⟨R.BAT_IRQRAW, 0, 0⟩
def BAT_CTL_CHEM : Fld := ⟨R.BAT_CTL, 5, 4⟩
def BAT_CTL_IDLEEN : Fld := ⟨R.BAT_CTL, 3, 3⟩
def BAT_CTL_IMPEN : Fld := ⟨R.BAT_CTL, 2, 2⟩
def BAT_CTL_CHGEN : Fld := ⟨R.BAT_CTL, 1, 1⟩
def BAT_CTL_EN : Fld := ⟨R.BAT_CTL, 0, 0⟩
def BAT_BASE_IB : Fld := ⟨R.BAT_BASE, 31, 16⟩
def BAT_BASE_VB : Fld := ⟨R.BAT_BASE, 15, 0⟩
def BAT_CHG_ICC : Fld := ⟨R.BAT_CHG, 31, 16⟩
def BAT_CHG_IPRE : Fld := ⟨R.BAT_CHG, 15, 0⟩
def BAT_CV_VFLOAT : Fld := ⟨R.BAT_CV, 31, 16⟩
def BAT_CV_VCV : Fld := ⟨R.BAT_CV, 15, 0⟩
def BAT_CLIM_VMAXC : Fld := ⟨R.BAT_CLIM, 31, 16⟩
def BAT_CLIM_VPRE : Fld := ⟨R.BAT_CLIM, 15, 0⟩
def BAT_CTERM_TBULK : Fld := ⟨R.BAT_CTERM, 31, 24⟩
def BAT_CTERM_TPRE : Fld := ⟨R.BAT_CTERM, 23, 16⟩
def BAT_CTERM_RECHG : Fld := ⟨R.BAT_CTERM, 15, 8⟩
def BAT_CTERM_ITAPER : Fld := ⟨R.BAT_CTERM, 7, 0⟩
def BAT_DLIM_IDMAX : Fld := ⟨R.BAT_DLIM, 31, 16⟩
def BAT_DLIM_VCUT : Fld := ⟨R.BAT_DLIM, 15, 0⟩
def BAT_TWIN_CMAX : Fld := ⟨R.BAT_TWIN, 31, 24⟩
def BAT_TWIN_CMIN : Fld := ⟨R.BAT_TWIN, 23, 16⟩
def BAT_TWIN_DMAX : Fld := ⟨R.BAT_TWIN, 15, 8⟩
def BAT_TWIN_DMIN : Fld := ⟨R.BAT_TWIN, 7, 0⟩
def BAT_DER_CHOT : Fld := ⟨R.BAT_DER, 31, 24⟩
def BAT_DER_DCOLD : Fld := ⟨R.BAT_DER, 23, 16⟩
def BAT_DER_DMINF : Fld := ⟨R.BAT_DER, 15, 8⟩
def BAT_DER_DTDT : Fld := ⟨R.BAT_DER, 7, 4⟩
def BAT_DER_VDTAPER : Fld := ⟨R.BAT_DER, 3, 0⟩
def BAT_EST_IREST : Fld := ⟨R.BAT_EST, 31, 24⟩
def BAT_EST_TREST : Fld := ⟨R.BAT_EST, 23, 16⟩
def BAT_EST_SLOPEMIN : Fld := ⟨R.BAT_EST, 15, 8⟩
def BAT_EST_DISMARG : Fld := ⟨R.BAT_EST, 7, 0⟩
def BAT_IMP_ZRISE : Fld := ⟨R.BAT_IMP, 31, 24⟩
def BAT_IMP_ZAVG : Fld := ⟨R.BAT_IMP, 23, 20⟩
def BAT_IMP_STEPI : Fld := ⟨R.BAT_IMP, 15, 0⟩
def BAT_HIB_THIB : Fld := ⟨R.BAT_HIB, 31, 16⟩
def BAT_HIB_IHIB : Fld := ⟨R.BAT_HIB, 15, 0⟩
def BAT_STAT_NPRES : Fld := ⟨R.BAT_STAT, 12, 8⟩
def BAT_STAT_DEEP : Fld := ⟨R.BAT_STAT, 7, 7⟩
def BAT_STAT_INVALID : Fld := ⟨R.BAT_STAT, 6, 6⟩
def BAT_STAT_DISAGREE : Fld := ⟨R.BAT_STAT, 5, 5⟩
def BAT_STAT_DUTY : Fld := ⟨R.BAT_STAT, 4, 4⟩
def BAT_STAT_IDLE : Fld := ⟨R.BAT_STAT, 3, 3⟩
def BAT_STAT_CHGST : Fld := ⟨R.BAT_STAT, 2, 0⟩
def BAT_SOC_UNC : Fld := ⟨R.BAT_SOC, 23, 16⟩
def BAT_SOC_SOC : Fld := ⟨R.BAT_SOC, 15, 0⟩
def BAT_LIMS_ICHLIM : Fld := ⟨R.BAT_LIMS, 31, 16⟩
def BAT_LIMS_IDSLIM : Fld := ⟨R.BAT_LIMS, 15, 0⟩
def BAT_ICMD_IB : Fld := ⟨R.BAT_ICMD, 31, 16⟩
def BAT_ICMD_ICMD : Fld := ⟨R.BAT_ICMD, 15, 0⟩
def BAT_RIDX_AUTOINC : Fld := ⟨R.BAT_RIDX, 17, 17⟩
def BAT_RIDX_BUF : Fld := ⟨R.BAT_RIDX, 16, 16⟩
def BAT_RIDX_WORD : Fld := ⟨R.BAT_RIDX, 7, 0⟩
def BAT_RDATA_DATA : Fld := ⟨R.BAT_RDATA, 31, 0⟩
def BAT_ROP_OP : Fld := ⟨R.BAT_ROP, 1, 0⟩
def BAT_RCW_CW : Fld := ⟨R.BAT_RCW, 31, 0⟩
def BAT_RRES_SEQ : Fld := ⟨R.BAT_RRES, 31, 16⟩
def BAT_RRES_IGN : Fld := ⟨R.BAT_RRES, 12, 8⟩
def BAT_RRES_RES : Fld := ⟨R.BAT_RRES, 3, 0⟩
def BAT_AORET_INTACT : Fld := ⟨R.BAT_AORET, 31, 31⟩
def BAT_AORET_CURSEEN : Fld := ⟨R.BAT_AORET, 30, 30⟩
def BAT_AORET_SEQ : Fld := ⟨R.BAT_AORET, 15, 0⟩
def BAT_AOREST_REST : Fld := ⟨R.BAT_AOREST, 31, 0⟩
def BAT_STRk_CFG_EN (n : Nat) : Fld := ⟨(R.BAT_STRk_CFG n), 31, 31⟩
def BAT_STRk_CFG_VSRC (n : Nat) : Fld := ⟨(R.BAT_STRk_CFG n), 15, 8⟩
def BAT_STRk_CFG_ISRC (n : Nat) : Fld := ⟨(R.BAT_STRk_CFG n), 7, 0⟩
def BAT_STRk_ISCL_SCALE (n : Nat) : Fld := ⟨(R.BAT_STRk_ISCL n), 23, 0⟩
def BAT_STRk_VSCL_SCALE (n : Nat) : Fld := ⟨(R.BAT_STRk_VSCL n), 23, 0⟩
def BAT_STRk_MEAS_V (n : Nat) : Fld := ⟨(R.BAT_STRk_MEAS n), 31, 16⟩
def BAT_STRk_MEAS_I (n : Nat) : Fld := ⟨(R.BAT_STRk_MEAS n), 15, 0⟩
def BAT_Mm_CFG_EN (n : Nat) : Fld := ⟨(R.BAT_Mm_CFG n), 31, 31⟩
def BAT_Mm_CFG_STR (n : Nat) : Fld := ⟨(R.BAT_Mm_CFG n), 30, 29⟩
def BAT_Mm_CFG_MOD (n : Nat) : Fld := ⟨(R.BAT_Mm_CFG n), 28, 23⟩
def BAT_Mm_CFG_NCELL (n : Nat) : Fld := ⟨(R.BAT_Mm_CFG n), 22, 16⟩
def BAT_Mm_CFG_QRATED (n : Nat) : Fld := ⟨(R.BAT_Mm_CFG n), 15, 0⟩
def BAT_Mm_SOC_UNC (n : Nat) : Fld := ⟨(R.BAT_Mm_SOC n), 31, 24⟩
def BAT_Mm_SOC_SOH (n : Nat) : Fld := ⟨(R.BAT_Mm_SOC n), 23, 16⟩
def BAT_Mm_SOC_SOC (n : Nat) : Fld := ⟨(R.BAT_Mm_SOC n), 15, 0⟩
def BAT_Mm_Q_QFULL (n : Nat) : Fld := ⟨(R.BAT_Mm_Q n), 31, 16⟩
def BAT_Mm_Q_Q (n : Nat) : Fld := ⟨(R.BAT_Mm_Q n), 15, 0⟩
def BAT_Mm_Z_TZ (n : Nat) : Fld := ⟨(R.BAT_Mm_Z n), 31, 16⟩
def BAT_Mm_Z_ZSER (n : Nat) : Fld := ⟨(R.BAT_Mm_Z n), 15, 0⟩
def BAT_Mm_ZD_ZDYN1 (n : Nat) : Fld := ⟨(R.BAT_Mm_ZD n), 31, 16⟩
def BAT_Mm_ZD_ZDYN2 (n : Nat) : Fld := ⟨(R.BAT_Mm_ZD n), 15, 0⟩
def BAT_Mm_STAT_DEEP (n : Nat) : Fld := ⟨(R.BAT_Mm_STAT n), 9, 9⟩
def BAT_Mm_STAT_STALE (n : Nat) : Fld := ⟨(R.BAT_Mm_STAT n), 8, 8⟩
def BAT_Mm_STAT_ZRISE (n : Nat) : Fld := ⟨(R.BAT_Mm_STAT n), 7, 7⟩
def BAT_Mm_STAT_CAPL (n : Nat) : Fld := ⟨(R.BAT_Mm_STAT n), 6, 6⟩
def BAT_Mm_STAT_ZVALID (n : Nat) : Fld := ⟨(R.BAT_Mm_STAT n), 5, 5⟩
def BAT_Mm_STAT_LOWV (n : Nat) : Fld := ⟨(R.BAT_Mm_STAT n), 4, 4⟩
def BAT_Mm_STAT_DISAGREE (n : Nat) : Fld := ⟨(R.BAT_Mm_STAT n), 3, 3⟩
def BAT_Mm_STAT_FIRST (n : Nat) : Fld := ⟨(R.BAT_Mm_STAT n), 2, 2⟩
def BAT_Mm_STAT_VALID (n : Nat) : Fld := ⟨(R.BAT_Mm_STAT n), 1, 1⟩
def BAT_Mm_STAT_PRES (n : Nat) : Fld := ⟨(R.BAT_Mm_STAT n), 0, 0⟩
def BAT_Mm_MEAS_VCMIN (n : Nat) : Fld := ⟨(R.BAT_Mm_MEAS n), 31, 16⟩
def BAT_Mm_MEAS_TMAX (n : Nat) : Fld := ⟨(R.BAT_Mm_MEAS n), 15, 8⟩
def BAT_Mm_MEAS_TMIN (n : Nat) : Fld := ⟨(R.BAT_Mm_MEAS n), 7, 0⟩
def CPT_IRQRAW_POLICY : Fld := ⟨R.CPT_IRQRAW, 31, 16⟩
def CPT_IRQRAW_BLOCK : Fld := ⟨R.CPT_IRQRAW, 26, 26⟩
def CPT_IRQRAW_RELAY : Fld := ⟨R.CPT_IRQRAW, 25, 25⟩
def CPT_IRQRAW_GAPRX : Fld := ⟨R.CPT_IRQRAW, 24, 24⟩
def CPT_IRQRAW_INTRX : Fld := ⟨R.CPT_IRQRAW, 23, 23⟩
def CPT_IRQRAW_SAFE0 : Fld := ⟨R.CPT_IRQRAW, 22, 22⟩
def CPT_IRQRAW_SRESET : Fld := ⟨R.CPT_IRQRAW, 21, 21⟩
def CPT_IRQRAW_SWAPFAIL : Fld := ⟨R.CPT_IRQRAW, 20, 20⟩
def CPT_IRQRAW_SWAP : Fld := ⟨R.CPT_IRQRAW, 19, 19⟩
def CPT_IRQRAW_NOCON : Fld := ⟨R.CPT_IRQRAW, 18, 18⟩
def CPT_IRQRAW_CEND : Fld := ⟨R.CPT_IRQRAW, 17, 17⟩
def CPT_IRQRAW_CON : Fld := ⟨R.CPT_IRQRAW, 16, 16⟩
def CPT_IRQRAW_SENDFAIL : Fld := ⟨R.CPT_IRQRAW, 7, 7⟩
def CPT_IRQRAW_HRST : Fld := ⟨R.CPT_IRQRAW, 6, 6⟩
def CPT_IRQRAW_RXDISC : Fld := ⟨R.CPT_IRQRAW, 5, 5⟩
def CPT_IRQRAW_CHAT : Fld := ⟨R.CPT_IRQRAW, 4, 4⟩
def CPT_IRQRAW_WIREFLT : Fld := ⟨R.CPT_IRQRAW, 3, 3⟩
def CPT_IRQRAW_MAP : Fld := ⟨R.CPT_IRQRAW, 2, 2⟩
def CPT_IRQRAW_DETACH : Fld := ⟨R.CPT_IRQRAW, 1, 1⟩
def CPT_IRQRAW_ATTACH : Fld := ⟨R.CPT_IRQRAW, 0, 0⟩
def CPT_CTL_PROBEPER : Fld := ⟨R.CPT_CTL, 15, 8⟩
def CPT_CTL_EN : Fld := ⟨R.CPT_CTL, 0, 0⟩
def CPT_DB_CHATCNT : Fld := ⟨R.CPT_DB, 31, 24⟩
def CPT_DB_CHATWIN : Fld := ⟨R.CPT_DB, 23, 16⟩
def CPT_DB_DETDB : Fld := ⟨R.CPT_DB, 15, 8⟩
def CPT_DB_CFGDB : Fld := ⟨R.CPT_DB, 7, 0⟩
def CPT_WIN_OPENTOP : Fld := ⟨R.CPT_WIN, 31, 24⟩
def CPT_WIN_MARKTOP : Fld := ⟨R.CPT_WIN, 23, 16⟩
def CPT_WIN_SINKTOP : Fld := ⟨R.CPT_WIN, 15, 8⟩
def CPT_WIN_LOWTOP : Fld := ⟨R.CPT_WIN, 7, 0⟩
def CPT_LINK_NCOLL : Fld := ⟨R.CPT_LINK, 23, 20⟩
def CPT_LINK_NRETRY : Fld := ⟨R.CPT_LINK, 17, 16⟩
def CPT_LINK_ACKWAIT : Fld := ⟨R.CPT_LINK, 15, 8⟩
def CPT_LINK_IFS : Fld := ⟨R.CPT_LINK, 7, 0⟩
def CPp_CFG_DRPDUTY (n : Nat) : Fld := ⟨(R.CPp_CFG n), 15, 8⟩
def CPp_CFG_TRUNK (n : Nat) : Fld := ⟨(R.CPp_CFG n), 4, 4⟩
def CPp_CFG_DEF (n : Nat) : Fld := ⟨(R.CPp_CFG n), 3, 3⟩
def CPp_CFG_ROLE (n : Nat) : Fld := ⟨(R.CPp_CFG n), 2, 1⟩
def CPp_CFG_EN (n : Nat) : Fld := ⟨(R.CPp_CFG n), 0, 0⟩
def CPp_STAT_FAULT (n : Nat) : Fld := ⟨(R.CPp_STAT n), 31, 24⟩
def CPp_STAT_SWAPHOLD (n : Nat) : Fld := ⟨(R.CPp_STAT n), 21, 21⟩
def CPp_STAT_CLBUSY (n : Nat) : Fld := ⟨(R.CPp_STAT n), 20, 20⟩
def CPp_STAT_WINCL (n : Nat) : Fld := ⟨(R.CPp_STAT n), 18, 16⟩
def CPp_STAT_WINB (n : Nat) : Fld := ⟨(R.CPp_STAT n), 14, 12⟩
def CPp_STAT_WINA (n : Nat) : Fld := ⟨(R.CPp_STAT n), 10, 8⟩
def CPp_STAT_HELD (n : Nat) : Fld := ⟨(R.CPp_STAT n), 7, 7⟩
def CPp_STAT_CONFLICT (n : Nat) : Fld := ⟨(R.CPp_STAT n), 6, 6⟩
def CPp_STAT_MAPPED (n : Nat) : Fld := ⟨(R.CPp_STAT n), 5, 5⟩
def CPp_STAT_ORIENT (n : Nat) : Fld := ⟨(R.CPp_STAT n), 4, 4⟩
def CPp_STAT_ATT (n : Nat) : Fld := ⟨(R.CPp_STAT n), 3, 0⟩
def CPp_DIAG_RUN (n : Nat) : Fld := ⟨(R.CPp_DIAG n), 30, 30⟩
def CPp_DIAG_CONF (n : Nat) : Fld := ⟨(R.CPp_DIAG n), 29, 29⟩
def CPp_DIAG_PASS (n : Nat) : Fld := ⟨(R.CPp_DIAG n), 28, 28⟩
def CPp_DIAG_CL0 (n : Nat) : Fld := ⟨(R.CPp_DIAG n), 26, 24⟩
def CPp_DIAG_CL2 (n : Nat) : Fld := ⟨(R.CPp_DIAG n), 23, 21⟩
def CPp_DIAG_B2 (n : Nat) : Fld := ⟨(R.CPp_DIAG n), 20, 18⟩
def CPp_DIAG_A2 (n : Nat) : Fld := ⟨(R.CPp_DIAG n), 17, 15⟩
def CPp_DIAG_CL1 (n : Nat) : Fld := ⟨(R.CPp_DIAG n), 14, 12⟩
def CPp_DIAG_B1 (n : Nat) : Fld := ⟨(R.CPp_DIAG n), 11, 9⟩
def CPp_DIAG_A1 (n : Nat) : Fld := ⟨(R.CPp_DIAG n), 8, 6⟩
def CPp_DIAG_B0 (n : Nat) : Fld := ⟨(R.CPp_DIAG n), 5, 3⟩
def CPp_DIAG_A0 (n : Nat) : Fld := ⟨(R.CPp_DIAG n), 2, 0⟩
def CPp_CMD_TEST (n : Nat) : Fld := ⟨(R.CPp_CMD n), 0, 0⟩
def CPp_RXH_HDR (n : Nat) : Fld := ⟨(R.CPp_RXH n), 15, 0⟩
def CPp_RXO0_DATA (n : Nat) : Fld := ⟨(R.CPp_RXO0 n), 31, 0⟩
def CPp_RXO1_DATA (n : Nat) : Fld := ⟨(R.CPp_RXO1 n), 31, 0⟩
def CPp_RXO2_DATA (n : Nat) : Fld := ⟨(R.CPp_RXO2 n), 31, 0⟩
def CPp_RXO3_DATA (n : Nat) : Fld := ⟨(R.CPp_RXO3 n), 31, 0⟩
def CPp_RXO4_DATA (n : Nat) : Fld := ⟨(R.CPp_RXO4 n), 31, 0⟩
def CPp_RXO5_DATA (n : Nat) : Fld := ⟨(R.CPp_RXO5 n), 31, 0⟩
def CPp_RXO6_DATA (n : Nat) : Fld := ⟨(R.CPp_RXO6 n), 31, 0⟩
def CPp_CNT_FAIL (n : Nat) : Fld := ⟨(R.CPp_CNT n), 31, 24⟩
def CPp_CNT_RETRY (n : Nat) : Fld := ⟨(R.CPp_CNT n), 23, 16⟩
def CPp_CNT_COLL (n : Nat) : Fld := ⟨(R.CPp_CNT n), 15, 8⟩
def CPp_CNT_DISC (n : Nat) : Fld := ⟨(R.CPp_CNT n), 7, 0⟩
def CPp_CNT2_TXOK (n : Nat) : Fld := ⟨(R.CPp_CNT2 n), 31, 16⟩
def CPp_CNT2_RXOK (n : Nat) : Fld := ⟨(R.CPp_CNT2 n), 15, 0⟩
def CPT_PTIM_TSAFE0 : Fld := ⟨R.CPT_PTIM, 31, 24⟩
def CPT_PTIM_TSINKCAP : Fld := ⟨R.CPT_PTIM, 23, 16⟩
def CPT_PTIM_TSRESP : Fld := ⟨R.CPT_PTIM, 15, 8⟩
def CPT_PTIM_TTRANS : Fld := ⟨R.CPT_PTIM, 7, 0⟩
def CPT_PTIM2_HRMAX : Fld := ⟨R.CPT_PTIM2, 31, 28⟩
def CPT_PTIM2_TREQRETRY : Fld := ⟨R.CPT_PTIM2, 23, 16⟩
def CPT_PTIM2_TSWAPON : Fld := ⟨R.CPT_PTIM2, 15, 8⟩
def CPT_PTIM2_TSWAPOFF : Fld := ⟨R.CPT_PTIM2, 7, 0⟩
def CPT_POL_GAPRELAY : Fld := ⟨R.CPT_POL, 1, 1⟩
def CPT_POL_PEN : Fld := ⟨R.CPT_POL, 0, 0⟩
def CPT_TXO0_DATA : Fld := ⟨R.CPT_TXO0, 31, 0⟩
def CPT_TXO1_DATA : Fld := ⟨R.CPT_TXO1, 31, 0⟩
def CPT_TXO2_DATA : Fld := ⟨R.CPT_TXO2, 31, 0⟩
def CPT_TXO3_DATA : Fld := ⟨R.CPT_TXO3, 31, 0⟩
def CPT_TXOP_PORTS : Fld := ⟨R.CPT_TXOP, 7, 4⟩
def CPT_TXOP_KIND : Fld := ⟨R.CPT_TXOP, 1, 0⟩
def CPT_TXRES_BUSY : Fld := ⟨R.CPT_TXRES, 8, 8⟩
def CPT_TXRES_FAIL : Fld := ⟨R.CPT_TXRES, 7, 4⟩
def CPT_TXRES_OK : Fld := ⟨R.CPT_TXRES, 3, 0⟩
def CPp_PCFG_PMAX (n : Nat) : Fld := ⟨(R.CPp_PCFG n), 31, 24⟩
def CPp_PCFG_INTPCT (n : Nat) : Fld := ⟨(R.CPp_PCFG n), 23, 16⟩
def CPp_PCFG_GROUP (n : Nat) : Fld := ⟨(R.CPp_PCFG n), 10, 8⟩
def CPp_PCFG_NOFF (n : Nat) : Fld := ⟨(R.CPp_PCFG n), 6, 4⟩
def CPp_PCFG_SWAPEN (n : Nat) : Fld := ⟨(R.CPp_PCFG n), 0, 0⟩
def CPp_SLOT_SNKN (n : Nat) : Fld := ⟨(R.CPp_SLOT n), 26, 24⟩
def CPp_SLOT_SNKFIRST (n : Nat) : Fld := ⟨(R.CPp_SLOT n), 20, 16⟩
def CPp_SLOT_SRCN (n : Nat) : Fld := ⟨(R.CPp_SLOT n), 10, 8⟩
def CPp_SLOT_SRCFIRST (n : Nat) : Fld := ⟨(R.CPp_SLOT n), 4, 0⟩
def CPp_BASE_IBASEP (n : Nat) : Fld := ⟨(R.CPp_BASE n), 31, 16⟩
def CPp_BASE_VBASEP (n : Nat) : Fld := ⟨(R.CPp_BASE n), 15, 0⟩
def CPp_LMON_VSCALE (n : Nat) : Fld := ⟨(R.CPp_LMON n), 31, 8⟩
def CPp_LMON_SRC (n : Nat) : Fld := ⟨(R.CPp_LMON n), 7, 0⟩
def CPp_VCTL_VSAFE0 (n : Nat) : Fld := ⟨(R.CPp_VCTL n), 31, 24⟩
def CPp_VCTL_VTOL (n : Nat) : Fld := ⟨(R.CPp_VCTL n), 23, 16⟩
def CPp_VCTL_SLEW (n : Nat) : Fld := ⟨(R.CPp_VCTL n), 15, 8⟩
def CPp_VCTL_IDIS (n : Nat) : Fld := ⟨(R.CPp_VCTL n), 7, 0⟩
def CPp_OFF0_OBJ (n : Nat) : Fld := ⟨(R.CPp_OFF0 n), 31, 0⟩
def CPp_OFF1_OBJ (n : Nat) : Fld := ⟨(R.CPp_OFF1 n), 31, 0⟩
def CPp_OFF2_OBJ (n : Nat) : Fld := ⟨(R.CPp_OFF2 n), 31, 0⟩
def CPp_OFF3_OBJ (n : Nat) : Fld := ⟨(R.CPp_OFF3 n), 31, 0⟩
def CPp_SNK_WISH (n : Nat) : Fld := ⟨(R.CPp_SNK n), 31, 3⟩
def CPp_PST_HRCNT (n : Nat) : Fld := ⟨(R.CPp_PST n), 31, 28⟩
def CPp_PST_RETGT (n : Nat) : Fld := ⟨(R.CPp_PST n), 27, 25⟩
def CPp_PST_CTX (n : Nat) : Fld := ⟨(R.CPp_PST n), 23, 16⟩
def CPp_PST_PDRP (n : Nat) : Fld := ⟨(R.CPp_PST n), 15, 15⟩
def CPp_PST_IDOK (n : Nat) : Fld := ⟨(R.CPp_PST n), 14, 14⟩
def CPp_PST_CON (n : Nat) : Fld := ⟨(R.CPp_PST n), 13, 13⟩
def CPp_PST_ROLE (n : Nat) : Fld := ⟨(R.CPp_PST n), 12, 12⟩
def CPp_PST_CAUSE (n : Nat) : Fld := ⟨(R.CPp_PST n), 11, 8⟩
def CPp_PST_STATE (n : Nat) : Fld := ⟨(R.CPp_PST n), 3, 0⟩
def CPp_CON_PRIO (n : Nat) : Fld := ⟨(R.CPp_CON n), 25, 24⟩
def CPp_CON_DIR (n : Nat) : Fld := ⟨(R.CPp_CON n), 23, 22⟩
def CPp_CON_VREQ (n : Nat) : Fld := ⟨(R.CPp_CON n), 21, 13⟩
def CPp_CON_IOP (n : Nat) : Fld := ⟨(R.CPp_CON n), 12, 3⟩
def CPp_CON_POS (n : Nat) : Fld := ⟨(R.CPp_CON n), 2, 0⟩
def CPp_VNOW_VTGT (n : Nat) : Fld := ⟨(R.CPp_VNOW n), 31, 16⟩
def CPp_VNOW_VLINE (n : Nat) : Fld := ⟨(R.CPp_VNOW n), 15, 0⟩
def CPp_PID_LO_ID (n : Nat) : Fld := ⟨(R.CPp_PID_LO n), 31, 0⟩
def CPp_PID_HI_ID (n : Nat) : Fld := ⟨(R.CPp_PID_HI n), 31, 0⟩
def CPp_PCMD_UNBLOCK (n : Nat) : Fld := ⟨(R.CPp_PCMD n), 4, 4⟩
def CPp_PCMD_HRESET (n : Nat) : Fld := ⟨(R.CPp_PCMD n), 3, 3⟩
def CPp_PCMD_SRESET (n : Nat) : Fld := ⟨(R.CPp_PCMD n), 2, 2⟩
def CPp_PCMD_RENEG (n : Nat) : Fld := ⟨(R.CPp_PCMD n), 1, 1⟩
def CPp_PCMD_SWAP (n : Nat) : Fld := ⟨(R.CPp_PCMD n), 0, 0⟩
def SLK_IRQRAW_C0 : Fld := ⟨R.SLK_IRQRAW, 7, 7⟩
def SLK_IRQRAW_OVF : Fld := ⟨R.SLK_IRQRAW, 6, 6⟩
def SLK_IRQRAW_HOSTRX : Fld := ⟨R.SLK_IRQRAW, 5, 5⟩
def SLK_IRQRAW_HREF : Fld := ⟨R.SLK_IRQRAW, 4, 4⟩
def SLK_IRQRAW_SEGUP : Fld := ⟨R.SLK_IRQRAW, 3, 3⟩
def SLK_IRQRAW_SEGDN : Fld := ⟨R.SLK_IRQRAW, 2, 2⟩
def SLK_IRQRAW_DETACH : Fld := ⟨R.SLK_IRQRAW, 1, 1⟩
def SLK_IRQRAW_ATTACH : Fld := ⟨R.SLK_IRQRAW, 0, 0⟩
def SLK_CTL_DISCPER : Fld := ⟨R.SLK_CTL, 15, 8⟩
def SLK_CTL_TIMEEN : Fld := ⟨R.SLK_CTL, 2, 2⟩
def SLK_CTL_DISCEN : Fld := ⟨R.SLK_CTL, 1, 1⟩
def SLK_CTL_EN : Fld := ⟨R.SLK_CTL, 0, 0⟩
def SLK_TIM_SEGTO : Fld := ⟨R.SLK_TIM, 31, 24⟩
def SLK_TIM_MISS : Fld := ⟨R.SLK_TIM, 19, 16⟩
def SLK_TIM_POLLPER : Fld := ⟨R.SLK_TIM, 15, 0⟩
def SLK_DISC_WIN : Fld := ⟨R.SLK_DISC, 31, 24⟩
def SLK_DISC_TIMEPER : Fld := ⟨R.SLK_DISC, 23, 16⟩
def SLK_DISC_SLOTLEN : Fld := ⟨R.SLK_DISC, 15, 8⟩
def SLK_DISC_NSLOT : Fld := ⟨R.SLK_DISC, 7, 0⟩
def SLK_SEGn_CFG_RXB (n : Nat) : Fld := ⟨(R.SLK_SEGn_CFG n), 2, 2⟩
def SLK_SEGn_CFG_MODE (n : Nat) : Fld := ⟨(R.SLK_SEGn_CFG n), 1, 1⟩
def SLK_SEGn_CFG_EN (n : Nat) : Fld := ⟨(R.SLK_SEGn_CFG n), 0, 0⟩
def SLK_SEGn_RING_HRX (n : Nat) : Fld := ⟨(R.SLK_SEGn_RING n), 28, 24⟩
def SLK_SEGn_RING_C3 (n : Nat) : Fld := ⟨(R.SLK_SEGn_RING n), 20, 16⟩
def SLK_SEGn_RING_C2 (n : Nat) : Fld := ⟨(R.SLK_SEGn_RING n), 12, 8⟩
def SLK_SEGn_RING_C1 (n : Nat) : Fld := ⟨(R.SLK_SEGn_RING n), 4, 0⟩
def SLK_SEGn_STAT_LOAD (n : Nat) : Fld := ⟨(R.SLK_SEGn_STAT n), 31, 24⟩
def SLK_SEGn_STAT_OWNNODE (n : Nat) : Fld := ⟨(R.SLK_SEGn_STAT n), 21, 16⟩
def SLK_SEGn_STAT_NODES (n : Nat) : Fld := ⟨(R.SLK_SEGn_STAT n), 13, 8⟩
def SLK_SEGn_STAT_C0Q (n : Nat) : Fld := ⟨(R.SLK_SEGn_STAT n), 7, 4⟩
def SLK_SEGn_STAT_JOINED (n : Nat) : Fld := ⟨(R.SLK_SEGn_STAT n), 1, 1⟩
def SLK_SEGn_STAT_DOWN (n : Nat) : Fld := ⟨(R.SLK_SEGn_STAT n), 0, 0⟩
def SLK_SEGn_CNT_CUT (n : Nat) : Fld := ⟨(R.SLK_SEGn_CNT n), 31, 24⟩
def SLK_SEGn_CNT_MISS (n : Nat) : Fld := ⟨(R.SLK_SEGn_CNT n), 23, 16⟩
def SLK_SEGn_CNT_DISC (n : Nat) : Fld := ⟨(R.SLK_SEGn_CNT n), 15, 8⟩
def SLK_SEGn_CNT_DUP (n : Nat) : Fld := ⟨(R.SLK_SEGn_CNT n), 7, 0⟩
def SLK_SEGn_CNT2_TXOK (n : Nat) : Fld := ⟨(R.SLK_SEGn_CNT2 n), 31, 16⟩
def SLK_SEGn_CNT2_RXOK (n : Nat) : Fld := ⟨(R.SLK_SEGn_CNT2 n), 15, 0⟩
def PMB_IRQRAW_CAPERR : Fld := ⟨R.PMB_IRQRAW, 5, 5⟩
def PMB_IRQRAW_STUCK : Fld := ⟨R.PMB_IRQRAW, 4, 4⟩
def PMB_IRQRAW_HDONE : Fld := ⟨R.PMB_IRQRAW, 3, 3⟩
def PMB_IRQRAW_STATUS : Fld := ⟨R.PMB_IRQRAW, 2, 2⟩
def PMB_IRQRAW_LOST : Fld := ⟨R.PMB_IRQRAW, 1, 1⟩
def PMB_IRQRAW_PRESENT : Fld := ⟨R.PMB_IRQRAW, 0, 0⟩
def PMB_CTL_MISS : Fld := ⟨R.PMB_CTL, 19, 16⟩
def PMB_CTL_PER : Fld := ⟨R.PMB_CTL, 15, 8⟩
def PMB_CTL_SPEED : Fld := ⟨R.PMB_CTL, 2, 1⟩
def PMB_CTL_EN : Fld := ⟨R.PMB_CTL, 0, 0⟩
def PMB_HCMD_GO : Fld := ⟨R.PMB_HCMD, 31, 31⟩
def PMB_HCMD_PEC : Fld := ⟨R.PMB_HCMD, 19, 19⟩
def PMB_HCMD_OP : Fld := ⟨R.PMB_HCMD, 18, 16⟩
def PMB_HCMD_CODE : Fld := ⟨R.PMB_HCMD, 15, 8⟩
def PMB_HCMD_ADDR : Fld := ⟨R.PMB_HCMD, 6, 0⟩
def PMB_HDATA_DATA : Fld := ⟨R.PMB_HDATA, 15, 0⟩
def PMB_HRES_RES : Fld := ⟨R.PMB_HRES, 3, 1⟩
def PMB_HRES_BUSY : Fld := ⟨R.PMB_HRES, 0, 0⟩
def PMB_DEVk_CFG_ADDR (n : Nat) : Fld := ⟨(R.PMB_DEVk_CFG n), 22, 16⟩
def PMB_DEVk_CFG_PAGE (n : Nat) : Fld := ⟨(R.PMB_DEVk_CFG n), 12, 8⟩
def PMB_DEVk_CFG_PAGED (n : Nat) : Fld := ⟨(R.PMB_DEVk_CFG n), 2, 2⟩
def PMB_DEVk_CFG_PEC (n : Nat) : Fld := ⟨(R.PMB_DEVk_CFG n), 1, 1⟩
def PMB_DEVk_CFG_EN (n : Nat) : Fld := ⟨(R.PMB_DEVk_CFG n), 0, 0⟩
def PMB_DEVk_STAT_CAPSET (n : Nat) : Fld := ⟨(R.PMB_DEVk_STAT n), 26, 26⟩
def PMB_DEVk_STAT_LINEAR (n : Nat) : Fld := ⟨(R.PMB_DEVk_STAT n), 25, 25⟩
def PMB_DEVk_STAT_PRES (n : Nat) : Fld := ⟨(R.PMB_DEVk_STAT n), 24, 24⟩
def PMB_DEVk_STAT_CTX (n : Nat) : Fld := ⟨(R.PMB_DEVk_STAT n), 23, 16⟩
def PMB_DEVk_STAT_STATUS (n : Nat) : Fld := ⟨(R.PMB_DEVk_STAT n), 15, 0⟩
def PMB_DEVk_VI_IOUT (n : Nat) : Fld := ⟨(R.PMB_DEVk_VI n), 31, 16⟩
def PMB_DEVk_VI_VOUT (n : Nat) : Fld := ⟨(R.PMB_DEVk_VI n), 15, 0⟩
def PMB_DEVk_P_ICAP (n : Nat) : Fld := ⟨(R.PMB_DEVk_P n), 31, 16⟩
def PMB_DEVk_P_POUT (n : Nat) : Fld := ⟨(R.PMB_DEVk_P n), 15, 0⟩
def CTX_IRQRAW_REATT : Fld := ⟨R.CTX_IRQRAW, 4, 4⟩
def CTX_IRQRAW_RECLAIM : Fld := ⟨R.CTX_IRQRAW, 3, 3⟩
def CTX_IRQRAW_LINGER : Fld := ⟨R.CTX_IRQRAW, 2, 2⟩
def CTX_IRQRAW_REFUSE : Fld := ⟨R.CTX_IRQRAW, 1, 1⟩
def CTX_IRQRAW_ALLOC : Fld := ⟨R.CTX_IRQRAW, 0, 0⟩
def CTX_CTL_JOINTO : Fld := ⟨R.CTX_CTL, 15, 8⟩
def CTX_CTL_LINGER : Fld := ⟨R.CTX_CTL, 7, 0⟩
def CTX_STAT_LING : Fld := ⟨R.CTX_STAT, 24, 16⟩
def CTX_STAT_USED : Fld := ⟨R.CTX_STAT, 8, 0⟩
def CTX_LAST_VALID : Fld := ⟨R.CTX_LAST, 31, 31⟩
def CTX_LAST_PATH : Fld := ⟨R.CTX_LAST, 13, 12⟩
def CTX_LAST_RES : Fld := ⟨R.CTX_LAST, 10, 8⟩
def CTX_LAST_CTX : Fld := ⟨R.CTX_LAST, 7, 0⟩
def CTX_LASTID_LO_ID : Fld := ⟨R.CTX_LASTID_LO, 31, 0⟩
def CTX_LASTID_HI_ID : Fld := ⟨R.CTX_LASTID_HI, 31, 0⟩
def CTX_SIDX_AUTOINC : Fld := ⟨R.CTX_SIDX, 16, 16⟩
def CTX_SIDX_SLOT : Fld := ⟨R.CTX_SIDX, 15, 8⟩
def CTX_SIDX_WORD : Fld := ⟨R.CTX_SIDX, 5, 0⟩
def CTX_SDATA_DATA : Fld := ⟨R.CTX_SDATA, 31, 0⟩
def CTX_BIDX_AUTOINC : Fld := ⟨R.CTX_BIDX, 16, 16⟩
def CTX_BIDX_WORD : Fld := ⟨R.CTX_BIDX, 9, 8⟩
def CTX_BIDX_ENTRY : Fld := ⟨R.CTX_BIDX, 5, 0⟩
def CTX_BDATA_DATA : Fld := ⟨R.CTX_BDATA, 31, 0⟩
def CTX_FORGET_GO : Fld := ⟨R.CTX_FORGET, 31, 31⟩
def CTX_FORGET_CTX : Fld := ⟨R.CTX_FORGET, 7, 0⟩
def RNG_IRQRAW_WERR : Fld := ⟨R.RNG_IRQRAW, 4, 4⟩
def RNG_IRQRAW_HOVR : Fld := ⟨R.RNG_IRQRAW, 3, 3⟩
def RNG_IRQRAW_STALL : Fld := ⟨R.RNG_IRQRAW, 2, 2⟩
def RNG_IRQRAW_WMARK : Fld := ⟨R.RNG_IRQRAW, 1, 1⟩
def RNG_IRQRAW_FULL : Fld := ⟨R.RNG_IRQRAW, 0, 0⟩
def RNG_CTL_EN : Fld := ⟨R.RNG_CTL, 0, 0⟩
def RNG_FREE_GRAN : Fld := ⟨R.RNG_FREE, 10, 0⟩
def RNG_RPSEL_RING : Fld := ⟨R.RNG_RPSEL, 4, 0⟩
def RNG_RPDATA_DATA : Fld := ⟨R.RNG_RPDATA, 31, 0⟩
def RNG_RGk_CFG_PROD (n : Nat) : Fld := ⟨(R.RNG_RGk_CFG n), 19, 16⟩
def RNG_RGk_CFG_WMARK (n : Nat) : Fld := ⟨(R.RNG_RGk_CFG n), 11, 8⟩
def RNG_RGk_CFG_CONS (n : Nat) : Fld := ⟨(R.RNG_RGk_CFG n), 2, 1⟩
def RNG_RGk_CFG_EN (n : Nat) : Fld := ⟨(R.RNG_RGk_CFG n), 0, 0⟩
def RNG_RGk_SEG_SIZE (n : Nat) : Fld := ⟨(R.RNG_RGk_SEG n), 26, 16⟩
def RNG_RGk_SEG_BASE (n : Nat) : Fld := ⟨(R.RNG_RGk_SEG n), 9, 0⟩
def RNG_RGk_SPLO_BASE (n : Nat) : Fld := ⟨(R.RNG_RGk_SPLO n), 31, 0⟩
def RNG_RGk_SPHI_BASE (n : Nat) : Fld := ⟨(R.RNG_RGk_SPHI n), 31, 0⟩
def RNG_RGk_SPSZ_SIZE (n : Nat) : Fld := ⟨(R.RNG_RGk_SPSZ n), 18, 0⟩
def RNG_RGk_WR_WR (n : Nat) : Fld := ⟨(R.RNG_RGk_WR n), 31, 0⟩
def RNG_RGk_RD_RD (n : Nat) : Fld := ⟨(R.RNG_RGk_RD n), 31, 0⟩
def RNG_RGk_STAT_DROP (n : Nat) : Fld := ⟨(R.RNG_RGk_STAT n), 31, 16⟩
def RNG_RGk_STAT_PIN (n : Nat) : Fld := ⟨(R.RNG_RGk_STAT n), 8, 8⟩
def RNG_RGk_STAT_FILL (n : Nat) : Fld := ⟨(R.RNG_RGk_STAT n), 7, 0⟩
def REC_IRQRAW_LGASP : Fld := ⟨R.REC_IRQRAW, 5, 5⟩
def REC_IRQRAW_FLERR : Fld := ⟨R.REC_IRQRAW, 4, 4⟩
def REC_IRQRAW_TRUNC : Fld := ⟨R.REC_IRQRAW, 3, 3⟩
def REC_IRQRAW_LOST : Fld := ⟨R.REC_IRQRAW, 2, 2⟩
def REC_IRQRAW_SEALED : Fld := ⟨R.REC_IRQRAW, 1, 1⟩
def REC_IRQRAW_TRIG : Fld := ⟨R.REC_IRQRAW, 0, 0⟩
def REC_CTL_CTXRING : Fld := ⟨R.REC_CTL, 20, 16⟩
def REC_CTL_EVRING : Fld := ⟨R.REC_CTL, 12, 8⟩
def REC_CTL_PAIRTRIG : Fld := ⟨R.REC_CTL, 4, 4⟩
def REC_CTL_LGEN : Fld := ⟨R.REC_CTL, 3, 3⟩
def REC_CTL_LOADCHK : Fld := ⟨R.REC_CTL, 2, 2⟩
def REC_CTL_EVALL : Fld := ⟨R.REC_CTL, 1, 1⟩
def REC_CTL_EN : Fld := ⟨R.REC_CTL, 0, 0⟩
def REC_LOAD_OVER : Fld := ⟨R.REC_LOAD, 16, 16⟩
def REC_LOAD_LOAD : Fld := ⟨R.REC_LOAD, 15, 0⟩
def REC_CTXPER_PER : Fld := ⟨R.REC_CTXPER, 7, 0⟩
def REC_CTXSEL0_SEL : Fld := ⟨R.REC_CTXSEL0, 31, 0⟩
def REC_CTXSEL1_SEL : Fld := ⟨R.REC_CTXSEL1, 31, 0⟩
def REC_CTXSEL2_SEL : Fld := ⟨R.REC_CTXSEL2, 31, 0⟩
def REC_CTXSEL3_SEL : Fld := ⟨R.REC_CTXSEL3, 31, 0⟩
def REC_CTXSEL4_SEL : Fld := ⟨R.REC_CTXSEL4, 31, 0⟩
def REC_CTXSEL5_SEL : Fld := ⟨R.REC_CTXSEL5, 31, 0⟩
def REC_CTXSEL6_SEL : Fld := ⟨R.REC_CTXSEL6, 31, 0⟩
def REC_CTXSEL7_SEL : Fld := ⟨R.REC_CTXSEL7, 31, 0⟩
def REC_FBASE_VALUE : Fld := ⟨R.REC_FBASE, 31, 0⟩
def REC_FSIZE_VALUE : Fld := ⟨R.REC_FSIZE, 31, 0⟩
def REC_FCFG_TOUT : Fld := ⟨R.REC_FCFG, 31, 16⟩
def REC_FCFG_WRAP : Fld := ⟨R.REC_FCFG, 8, 8⟩
def REC_FCFG_EBLK : Fld := ⟨R.REC_FCFG, 5, 4⟩
def REC_FCFG_PAGE : Fld := ⟨R.REC_FCFG, 1, 0⟩
def REC_SEAL_LGWIN : Fld := ⟨R.REC_SEAL, 31, 28⟩
def REC_SEAL_RESV : Fld := ⟨R.REC_SEAL, 27, 14⟩
def REC_SEAL_MAXB : Fld := ⟨R.REC_SEAL, 13, 0⟩
def REC_SEALST_NWIN : Fld := ⟨R.REC_SEALST, 11, 8⟩
def REC_SEALST_STATE : Fld := ⟨R.REC_SEALST, 2, 0⟩
def REC_WSEQ_WSEQ : Fld := ⟨R.REC_WSEQ, 31, 0⟩
def REC_CHAIN0_H : Fld := ⟨R.REC_CHAIN0, 31, 0⟩
def REC_CHAIN1_H : Fld := ⟨R.REC_CHAIN1, 31, 0⟩
def REC_CHAIN2_H : Fld := ⟨R.REC_CHAIN2, 31, 0⟩
def REC_CHAIN3_H : Fld := ⟨R.REC_CHAIN3, 31, 0⟩
def REC_CHAIN4_H : Fld := ⟨R.REC_CHAIN4, 31, 0⟩
def REC_CHAIN5_H : Fld := ⟨R.REC_CHAIN5, 31, 0⟩
def REC_CHAIN6_H : Fld := ⟨R.REC_CHAIN6, 31, 0⟩
def REC_CHAIN7_H : Fld := ⟨R.REC_CHAIN7, 31, 0⟩
def REC_FOP_FORMAT : Fld := ⟨R.REC_FOP, 0, 0⟩
def REC_HTRIG_FIRE : Fld := ⟨R.REC_HTRIG, 7, 0⟩
def REC_FADDR_ADDR : Fld := ⟨R.REC_FADDR, 31, 0⟩
def REC_FRD_DATA : Fld := ⟨R.REC_FRD, 31, 0⟩
def REC_NOTE0_DATA : Fld := ⟨R.REC_NOTE0, 31, 0⟩
def REC_NOTE1_DATA : Fld := ⟨R.REC_NOTE1, 31, 0⟩
def REC_NOTE2_DATA : Fld := ⟨R.REC_NOTE2, 31, 0⟩
def REC_NOTE3_DATA : Fld := ⟨R.REC_NOTE3, 31, 0⟩
def REC_NOTE4_DATA : Fld := ⟨R.REC_NOTE4, 31, 0⟩
def REC_NOTE5_DATA : Fld := ⟨R.REC_NOTE5, 31, 0⟩
def REC_NOTE6_DATA : Fld := ⟨R.REC_NOTE6, 31, 0⟩
def REC_NOTE7_DATA : Fld := ⟨R.REC_NOTE7, 31, 0⟩
def REC_NOTEOP_LEN : Fld := ⟨R.REC_NOTEOP, 2, 0⟩
def REC_STm_CFG_INT (n : Nat) : Fld := ⟨(R.REC_STm_CFG n), 31, 16⟩
def REC_STm_CFG_RING (n : Nat) : Fld := ⟨(R.REC_STm_CFG n), 12, 8⟩
def REC_STm_CFG_NCH (n : Nat) : Fld := ⟨(R.REC_STm_CFG n), 6, 4⟩
def REC_STm_CFG_MEAN (n : Nat) : Fld := ⟨(R.REC_STm_CFG n), 1, 1⟩
def REC_STm_CFG_EN (n : Nat) : Fld := ⟨(R.REC_STm_CFG n), 0, 0⟩
def REC_STm_SRC0_SRC (n : Nat) : Fld := ⟨(R.REC_STm_SRC0 n), 31, 0⟩
def REC_STm_SRC1_SRC (n : Nat) : Fld := ⟨(R.REC_STm_SRC1 n), 31, 0⟩
def REC_STm_STAT_RATE (n : Nat) : Fld := ⟨(R.REC_STm_STAT n), 15, 0⟩
def REC_TGj_CFG_KIND (n : Nat) : Fld := ⟨(R.REC_TGj_CFG n), 3, 1⟩
def REC_TGj_CFG_EN (n : Nat) : Fld := ⟨(R.REC_TGj_CFG n), 0, 0⟩
def REC_TGj_MATCH_CODE (n : Nat) : Fld := ⟨(R.REC_TGj_MATCH n), 31, 16⟩
def REC_TGj_MATCH_KMASK (n : Nat) : Fld := ⟨(R.REC_TGj_MATCH n), 15, 8⟩
def REC_TGj_MATCH_SRC (n : Nat) : Fld := ⟨(R.REC_TGj_MATCH n), 7, 0⟩
def REC_TGj_RINGS_RINGS (n : Nat) : Fld := ⟨(R.REC_TGj_RINGS n), 31, 0⟩
def REC_TGj_WIN_POST (n : Nat) : Fld := ⟨(R.REC_TGj_WIN n), 31, 16⟩
def REC_TGj_WIN_PRE (n : Nat) : Fld := ⟨(R.REC_TGj_WIN n), 15, 0⟩
def PAR_IRQRAW_HOREF : Fld := ⟨R.PAR_IRQRAW, 5, 5⟩
def PAR_IRQRAW_GUYFLT : Fld := ⟨R.PAR_IRQRAW, 4, 4⟩
def PAR_IRQRAW_LINK : Fld := ⟨R.PAR_IRQRAW, 3, 3⟩
def PAR_IRQRAW_SYNC : Fld := ⟨R.PAR_IRQRAW, 2, 2⟩
def PAR_IRQRAW_GIVEUP : Fld := ⟨R.PAR_IRQRAW, 1, 1⟩
def PAR_IRQRAW_SWITCH : Fld := ⟨R.PAR_IRQRAW, 0, 0⟩
def PAR_CTL_STARTDLY : Fld := ⟨R.PAR_CTL, 31, 16⟩
def PAR_CTL_REFG : Fld := ⟨R.PAR_CTL, 6, 4⟩
def PAR_CTL_COLD : Fld := ⟨R.PAR_CTL, 2, 2⟩
def PAR_CTL_MODE : Fld := ⟨R.PAR_CTL, 1, 1⟩
def PAR_CTL_EN : Fld := ⟨R.PAR_CTL, 0, 0⟩
def PAR_TIM_CLAIM : Fld := ⟨R.PAR_TIM, 31, 24⟩
def PAR_TIM_GUYFREE : Fld := ⟨R.PAR_TIM, 23, 16⟩
def PAR_TIM_GUARD : Fld := ⟨R.PAR_TIM, 11, 8⟩
def PAR_TIM_LEASE : Fld := ⟨R.PAR_TIM, 7, 0⟩
def PAR_TIM2_SETTLE : Fld := ⟨R.PAR_TIM2, 31, 16⟩
def PAR_TIM2_LINKTO : Fld := ⟨R.PAR_TIM2, 7, 0⟩
def PAR_STAT_HOREF : Fld := ⟨R.PAR_STAT, 15, 15⟩
def PAR_STAT_BIV : Fld := ⟨R.PAR_STAT, 14, 14⟩
def PAR_STAT_LANE1 : Fld := ⟨R.PAR_STAT, 13, 13⟩
def PAR_STAT_LANE0 : Fld := ⟨R.PAR_STAT, 12, 12⟩
def PAR_STAT_GUYRD : Fld := ⟨R.PAR_STAT, 11, 11⟩
def PAR_STAT_GUYDRV : Fld := ⟨R.PAR_STAT, 10, 10⟩
def PAR_STAT_ACT : Fld := ⟨R.PAR_STAT, 9, 9⟩
def PAR_STAT_STAKE : Fld := ⟨R.PAR_STAT, 8, 8⟩
def PAR_STAT_SYNCED : Fld := ⟨R.PAR_STAT, 7, 7⟩
def PAR_STAT_POS : Fld := ⟨R.PAR_STAT, 4, 4⟩
def PAR_STAT_STATE : Fld := ⟨R.PAR_STAT, 3, 0⟩
def PAR_STAKE_LEFT : Fld := ⟨R.PAR_STAKE, 23, 16⟩
def PAR_STAKE_GEN : Fld := ⟨R.PAR_STAKE, 15, 0⟩
def PAR_PEER_VALID : Fld := ⟨R.PAR_PEER, 7, 7⟩
def PAR_PEER_GUYDRV : Fld := ⟨R.PAR_PEER, 6, 6⟩
def PAR_PEER_ACT : Fld := ⟨R.PAR_PEER, 5, 5⟩
def PAR_PEER_SYNCED : Fld := ⟨R.PAR_PEER, 4, 4⟩
def PAR_PEER_STATE : Fld := ⟨R.PAR_PEER, 3, 0⟩
def PAR_CMD_YIELD : Fld := ⟨R.PAR_CMD, 1, 1⟩
def PAR_CMD_HANDOVER : Fld := ⟨R.PAR_CMD, 0, 0⟩
def PAR_SYNC_SLOTS : Fld := ⟨R.PAR_SYNC, 23, 16⟩
def PAR_SYNC_COPY : Fld := ⟨R.PAR_SYNC, 7, 0⟩
def PAR_GAP_LAST : Fld := ⟨R.PAR_GAP, 31, 16⟩
def PAR_GAP_BOUND : Fld := ⟨R.PAR_GAP, 15, 0⟩
def PAR_CAUSE_SWC : Fld := ⟨R.PAR_CAUSE, 11, 8⟩
def PAR_CAUSE_GIVE : Fld := ⟨R.PAR_CAUSE, 3, 0⟩
def PAR_CNT_SWITCH : Fld := ⟨R.PAR_CNT, 31, 24⟩
def PAR_CNT_DOWN : Fld := ⟨R.PAR_CNT, 23, 16⟩
def PAR_CNT_RETX : Fld := ⟨R.PAR_CNT, 15, 0⟩
def FLTMAP_REACT1 (p : Nat) : Fld := ⟨(R.FLTMAP p), 31, 24⟩
def FLTMAP_KMASK1 (p : Nat) : Fld := ⟨(R.FLTMAP p), 23, 16⟩
def FLTMAP_REACT0 (p : Nat) : Fld := ⟨(R.FLTMAP p), 15, 8⟩
def FLTMAP_KMASK0 (p : Nat) : Fld := ⟨(R.FLTMAP p), 7, 0⟩
def FLT_IRQRAW_REFUSE : Fld := ⟨R.FLT_IRQRAW, 3, 3⟩
def FLT_IRQRAW_QMRG : Fld := ⟨R.FLT_IRQRAW, 2, 2⟩
def FLT_IRQRAW_BIV : Fld := ⟨R.FLT_IRQRAW, 1, 1⟩
def FLT_IRQRAW_INCIDENT : Fld := ⟨R.FLT_IRQRAW, 0, 0⟩
def FLT_CTL_ACLOSE : Fld := ⟨R.FLT_CTL, 15, 8⟩
def FLT_CTL_INJEN : Fld := ⟨R.FLT_CTL, 2, 2⟩
def FLT_CTL_STICKY : Fld := ⟨R.FLT_CTL, 1, 1⟩
def FLT_CTL_EN : Fld := ⟨R.FLT_CTL, 0, 0⟩
def FLT_ERR_FORCE : Fld := ⟨R.FLT_ERR, 8, 8⟩
def FLT_ERR_MINW : Fld := ⟨R.FLT_ERR, 7, 0⟩
def FLT_HNMI_WIDTH : Fld := ⟨R.FLT_HNMI, 7, 0⟩
def FLT_STAT_HCNT : Fld := ⟨R.FLT_STAT, 31, 24⟩
def FLT_STAT_QFILL : Fld := ⟨R.FLT_STAT, 23, 16⟩
def FLT_STAT_HELD : Fld := ⟨R.FLT_STAT, 10, 10⟩
def FLT_STAT_BIV : Fld := ⟨R.FLT_STAT, 9, 9⟩
def FLT_STAT_ERR : Fld := ⟨R.FLT_STAT, 8, 8⟩
def FLT_STAT_NOPEN : Fld := ⟨R.FLT_STAT, 4, 0⟩
def FLT_SAFESET_CH : Fld := ⟨R.FLT_SAFESET, 15, 0⟩
def FLT_ISEL_AUTOINC : Fld := ⟨R.FLT_ISEL, 16, 16⟩
def FLT_ISEL_SRC : Fld := ⟨R.FLT_ISEL, 12, 8⟩
def FLT_ISEL_WORD : Fld := ⟨R.FLT_ISEL, 3, 0⟩
def FLT_IDATA_DATA : Fld := ⟨R.FLT_IDATA, 31, 0⟩
def FLT_ICLOSE_CLOSE : Fld := ⟨R.FLT_ICLOSE, 25, 1⟩
def FLT_OPEN_OPEN : Fld := ⟨R.FLT_OPEN, 25, 1⟩
def FLT_INCNO_NEXT : Fld := ⟨R.FLT_INCNO, 31, 0⟩
def FLT_BIVCMD_KEY : Fld := ⟨R.FLT_BIVCMD, 31, 0⟩
def FLT_BIVST_BIVPREV : Fld := ⟨R.FLT_BIVST, 31, 31⟩
def FLT_BIVST_CAUSE : Fld := ⟨R.FLT_BIVST, 27, 24⟩
def FLT_BIVST_SOURCE : Fld := ⟨R.FLT_BIVST, 23, 16⟩
def FLT_BIVST_KIND : Fld := ⟨R.FLT_BIVST, 15, 8⟩
def FLT_BIVST_COUNT : Fld := ⟨R.FLT_BIVST, 7, 0⟩
def FLT_BIVACK_ACK : Fld := ⟨R.FLT_BIVACK, 0, 0⟩
def FLT_RSTINC_VALID : Fld := ⟨R.FLT_RSTINC, 31, 31⟩
def FLT_RSTINC_SOURCE : Fld := ⟨R.FLT_RSTINC, 23, 16⟩
def FLT_RSTINC_KINDS : Fld := ⟨R.FLT_RSTINC, 15, 8⟩
def FLT_INJ_GO : Fld := ⟨R.FLT_INJ, 31, 31⟩
def FLT_INJ_KIND : Fld := ⟨R.FLT_INJ, 15, 8⟩
def FLT_INJ_SRC : Fld := ⟨R.FLT_INJ, 7, 0⟩
def WDG_IRQRAW_REFUSE : Fld := ⟨R.WDG_IRQRAW, 7, 7⟩
def WDG_IRQRAW_OSCFB : Fld := ⟨R.WDG_IRQRAW, 6, 6⟩
def WDG_IRQRAW_WAKE : Fld := ⟨R.WDG_IRQRAW, 5, 5⟩
def WDG_IRQRAW_STUTTER : Fld := ⟨R.WDG_IRQRAW, 4, 4⟩
def WDG_IRQRAW_HEARLY : Fld := ⟨R.WDG_IRQRAW, 3, 3⟩
def WDG_IRQRAW_HMISS : Fld := ⟨R.WDG_IRQRAW, 2, 2⟩
def WDG_IRQRAW_SEARLY : Fld := ⟨R.WDG_IRQRAW, 1, 1⟩
def WDG_IRQRAW_SLATE : Fld := ⟨R.WDG_IRQRAW, 0, 0⟩
def WDG_CTL_HSCALE : Fld := ⟨R.WDG_CTL, 10, 8⟩
def WDG_CTL_HIBRUN : Fld := ⟨R.WDG_CTL, 3, 3⟩
def WDG_CTL_STRICT : Fld := ⟨R.WDG_CTL, 2, 2⟩
def WDG_CTL_EN : Fld := ⟨R.WDG_CTL, 0, 0⟩
def WDG_SWIN_SCLOSE : Fld := ⟨R.WDG_SWIN, 31, 16⟩
def WDG_SWIN_SOPEN : Fld := ⟨R.WDG_SWIN, 15, 0⟩
def WDG_SSTAT_START : Fld := ⟨R.WDG_SSTAT, 16, 16⟩
def WDG_SSTAT_AGE : Fld := ⟨R.WDG_SSTAT, 15, 0⟩
def WDG_HWIN_HOPEN : Fld := ⟨R.WDG_HWIN, 31, 16⟩
def WDG_HWIN_HPER : Fld := ⟨R.WDG_HWIN, 15, 0⟩
def WDG_HEN_EN : Fld := ⟨R.WDG_HEN, 15, 0⟩
def WDG_HSTAT_OPEN : Fld := ⟨R.WDG_HSTAT, 16, 16⟩
def WDG_HSTAT_DONE : Fld := ⟨R.WDG_HSTAT, 15, 0⟩
def WDG_TICK_TICK : Fld := ⟨R.WDG_TICK, 31, 0⟩
def WDG_WAKE_T : Fld := ⟨R.WDG_WAKE, 31, 0⟩
def WDG_EVCLR_HOST : Fld := ⟨R.WDG_EVCLR, 1, 1⟩
def WDG_EVCLR_SUP : Fld := ⟨R.WDG_EVCLR, 0, 0⟩
def WDG_EVe_KIND_VALID (n : Nat) : Fld := ⟨(R.WDG_EVe_KIND n), 31, 31⟩
def WDG_EVe_KIND_COUNT (n : Nat) : Fld := ⟨(R.WDG_EVe_KIND n), 30, 25⟩
def WDG_EVe_KIND_HIB (n : Nat) : Fld := ⟨(R.WDG_EVe_KIND n), 24, 24⟩
def WDG_EVe_KIND_KIND (n : Nat) : Fld := ⟨(R.WDG_EVe_KIND n), 23, 16⟩
def WDG_EVe_KIND_SLOTS (n : Nat) : Fld := ⟨(R.WDG_EVe_KIND n), 15, 0⟩
def WDG_EVe_CODE_CODE (n : Nat) : Fld := ⟨(R.WDG_EVe_CODE n), 31, 0⟩
def WDG_EVe_TICK_TICK (n : Nat) : Fld := ⟨(R.WDG_EVe_TICK n), 31, 0⟩
def WDG_EVe_VER_VER (n : Nat) : Fld := ⟨(R.WDG_EVe_VER n), 31, 0⟩
def WDG_EVe_SC_VALUE (n : Nat) : Fld := ⟨(R.WDG_EVe_SC n), 31, 0⟩
def WDG_EVe_SA_VALUE (n : Nat) : Fld := ⟨(R.WDG_EVe_SA n), 31, 0⟩
def WDG_EVe_ST_LO_TIME (n : Nat) : Fld := ⟨(R.WDG_EVe_ST_LO n), 31, 0⟩
def WDG_EVe_ST_HI_TIME (n : Nat) : Fld := ⟨(R.WDG_EVe_ST_HI n), 31, 0⟩
def WDG_EVe_XC_VALUE (n : Nat) : Fld := ⟨(R.WDG_EVe_XC n), 31, 0⟩
def WDG_EVe_XA_VALUE (n : Nat) : Fld := ⟨(R.WDG_EVe_XA n), 31, 0⟩
def WDG_EVe_XT_LO_TIME (n : Nat) : Fld := ⟨(R.WDG_EVe_XT_LO n), 31, 0⟩
def WDG_EVe_XT_HI_TIME (n : Nat) : Fld := ⟨(R.WDG_EVe_XT_HI n), 31, 0⟩
def WDG_TSk_SVC_SITE (n : Nat) : Fld := ⟨(R.WDG_TSk_SVC n), 31, 0⟩
def WDG_TSk_SITE_SITE (n : Nat) : Fld := ⟨(R.WDG_TSk_SITE n), 31, 0⟩
def WDG_TSk_LAST_TICK (n : Nat) : Fld := ⟨(R.WDG_TSk_LAST n), 31, 0⟩
def WDG_TSk_CNT_MISS (n : Nat) : Fld := ⟨(R.WDG_TSk_CNT n), 23, 16⟩
def WDG_TSk_CNT_EARLY (n : Nat) : Fld := ⟨(R.WDG_TSk_CNT n), 15, 8⟩
def WDG_TSk_CNT_STUT (n : Nat) : Fld := ⟨(R.WDG_TSk_CNT n), 7, 0⟩
def UPD_IRQRAW_CONF : Fld := ⟨R.UPD_IRQRAW, 5, 5⟩
def UPD_IRQRAW_GUARD : Fld := ⟨R.UPD_IRQRAW, 4, 4⟩
def UPD_IRQRAW_REFUSE : Fld := ⟨R.UPD_IRQRAW, 3, 3⟩
def UPD_IRQRAW_BLKERR : Fld := ⟨R.UPD_IRQRAW, 2, 2⟩
def UPD_IRQRAW_VERIFIED : Fld := ⟨R.UPD_IRQRAW, 1, 1⟩
def UPD_IRQRAW_DONE : Fld := ⟨R.UPD_IRQRAW, 0, 0⟩
def UPD_CTL_CONFT : Fld := ⟨R.UPD_CTL, 15, 8⟩
def UPD_CTL_AUTOCONF : Fld := ⟨R.UPD_CTL, 1, 1⟩
def UPD_CTL_LEGACY : Fld := ⟨R.UPD_CTL, 0, 0⟩
def UPD_GUARD_SOCMIN : Fld := ⟨R.UPD_GUARD, 31, 24⟩
def UPD_GUARD_CHATCNT : Fld := ⟨R.UPD_GUARD, 23, 16⟩
def UPD_GUARD_CHATWIN : Fld := ⟨R.UPD_GUARD, 15, 8⟩
def UPD_GUARD_MOTDB : Fld := ⟨R.UPD_GUARD, 7, 0⟩
def UPD_LOCK_CODE : Fld := ⟨R.UPD_LOCK, 31, 0⟩
def UPD_OP_TGT : Fld := ⟨R.UPD_OP, 11, 8⟩
def UPD_OP_OP : Fld := ⟨R.UPD_OP, 2, 0⟩
def UPD_LEN_LEN : Fld := ⟨R.UPD_LEN, 31, 0⟩
def UPD_BOFS_VALUE : Fld := ⟨R.UPD_BOFS, 31, 0⟩
def UPD_BCRC_VALUE : Fld := ⟨R.UPD_BCRC, 31, 0⟩
def UPD_BIDX_AUTOINC : Fld := ⟨R.UPD_BIDX, 16, 16⟩
def UPD_BIDX_WORD : Fld := ⟨R.UPD_BIDX, 9, 0⟩
def UPD_BDATA_DATA : Fld := ⟨R.UPD_BDATA, 31, 0⟩
def UPD_BOP_COMMIT : Fld := ⟨R.UPD_BOP, 0, 0⟩
def UPD_RES_BUSY : Fld := ⟨R.UPD_RES, 8, 8⟩
def UPD_RES_OPEN : Fld := ⟨R.UPD_RES, 4, 4⟩
def UPD_RES_RES : Fld := ⟨R.UPD_RES, 3, 0⟩
def UPD_NEXT_NEXT : Fld := ⟨R.UPD_NEXT, 31, 0⟩
def UPD_SUPVER_VERSION : Fld := ⟨R.UPD_SUPVER, 31, 0⟩
def UPD_CEVER_VERSION : Fld := ⟨R.UPD_CEVER, 31, 0⟩
def UPD_BANK_REV : Fld := ⟨R.UPD_BANK, 19, 16⟩
def UPD_BANK_VER : Fld := ⟨R.UPD_BANK, 15, 12⟩
def UPD_BANK_CONF : Fld := ⟨R.UPD_BANK, 11, 8⟩
def UPD_BANK_CETRIAL : Fld := ⟨R.UPD_BANK, 3, 3⟩
def UPD_BANK_SUPTRIAL : Fld := ⟨R.UPD_BANK, 2, 2⟩
def UPD_BANK_CEB : Fld := ⟨R.UPD_BANK, 1, 1⟩
def UPD_BANK_SUPB : Fld := ⟨R.UPD_BANK, 0, 0⟩
def UPD_SECV_FLOOR : Fld := ⟨R.UPD_SECV, 21, 16⟩
def UPD_SECV_CESEC : Fld := ⟨R.UPD_SECV, 13, 8⟩
def UPD_SECV_SUPSEC : Fld := ⟨R.UPD_SECV, 5, 0⟩
def UPD_PP_USED : Fld := ⟨R.UPD_PP, 31, 24⟩
def UPD_PP_PMAX : Fld := ⟨R.UPD_PP, 23, 16⟩
def UPD_PP_PMIN : Fld := ⟨R.UPD_PP, 15, 8⟩
def UPD_PP_OWNMAX : Fld := ⟨R.UPD_PP, 7, 4⟩
def UPD_PP_OWNMIN : Fld := ⟨R.UPD_PP, 3, 0⟩
def UPD_STEP_STEP : Fld := ⟨R.UPD_STEP, 7, 0⟩
def UPD_STAT_MUST : Fld := ⟨R.UPD_STAT, 15, 8⟩
def UPD_STAT_PPMIS : Fld := ⟨R.UPD_STAT, 3, 3⟩
def UPD_STAT_FALLBK : Fld := ⟨R.UPD_STAT, 2, 2⟩
def UPD_STAT_MOTION : Fld := ⟨R.UPD_STAT, 1, 1⟩
def UPD_STAT_RECOV : Fld := ⟨R.UPD_STAT, 0, 0⟩
def PGCTL_LOCK (p : Nat) : Fld := ⟨(R.PGCTL p), 2, 2⟩
def PGCTL_BRST (p : Nat) : Fld := ⟨(R.PGCTL p), 1, 1⟩
def PGCTL_EN (p : Nat) : Fld := ⟨(R.PGCTL p), 0, 0⟩
def PGSTAT_TAG (p : Nat) : Fld := ⟨(R.PGSTAT p), 31, 16⟩
def PGSTAT_DONE (p : Nat) : Fld := ⟨(R.PGSTAT p), 6, 6⟩
def PGSTAT_REFUSED (p : Nat) : Fld := ⟨(R.PGSTAT p), 5, 5⟩
def PGSTAT_BRSTR (p : Nat) : Fld := ⟨(R.PGSTAT p), 4, 4⟩
def PGSTAT_PEND (p : Nat) : Fld := ⟨(R.PGSTAT p), 3, 3⟩
def PGSTAT_LOCKED (p : Nat) : Fld := ⟨(R.PGSTAT p), 2, 2⟩
def PGSTAT_UNLKS (p : Nat) : Fld := ⟨(R.PGSTAT p), 1, 1⟩
def PGSTAT_UNLKP (p : Nat) : Fld := ⟨(R.PGSTAT p), 0, 0⟩
def IRQEN_EN (p : Nat) : Fld := ⟨(R.IRQEN p), 31, 0⟩
def IRQPEND_PEND (p : Nat) : Fld := ⟨(R.IRQPEND p), 31, 0⟩
def PGKEY_KEY (p : Nat) : Fld := ⟨(R.PGKEY p), 31, 0⟩
def SEQ_TAG (p : Nat) : Fld := ⟨(R.SEQ p), 15, 0⟩
def COMMIT_ANGLE (p : Nat) : Fld := ⟨(R.COMMIT p), 31, 16⟩
def COMMIT_CYC (p : Nat) : Fld := ⟨(R.COMMIT p), 15, 8⟩
def COMMIT_GROUP (p : Nat) : Fld := ⟨(R.COMMIT p), 6, 4⟩
def COMMIT_MODE (p : Nat) : Fld := ⟨(R.COMMIT p), 1, 0⟩
def HIF_IRQRAW_LINK : Fld := ⟨R.HIF_IRQRAW, 5, 5⟩
def HIF_IRQRAW_PTP : Fld := ⟨R.HIF_IRQRAW, 4, 4⟩
def HIF_IRQRAW_SPIERR : Fld := ⟨R.HIF_IRQRAW, 3, 3⟩
def HIF_IRQRAW_PCIEERR : Fld := ⟨R.HIF_IRQRAW, 2, 2⟩
def HIF_IRQRAW_LOCKWR : Fld := ⟨R.HIF_IRQRAW, 1, 1⟩
def HIF_IRQRAW_ACCESS : Fld := ⟨R.HIF_IRQRAW, 0, 0⟩
def HIF_CTL_RTO : Fld := ⟨R.HIF_CTL, 15, 8⟩
def HIF_CTL_UARTIN : Fld := ⟨R.HIF_CTL, 2, 2⟩
def HIF_CTL_SPIWR : Fld := ⟨R.HIF_CTL, 1, 1⟩
def HIF_CTL_SPIEN : Fld := ⟨R.HIF_CTL, 0, 0⟩
def HIF_STAT_RECOV : Fld := ⟨R.HIF_STAT, 10, 10⟩
def HIF_STAT_FMASK : Fld := ⟨R.HIF_STAT, 9, 9⟩
def HIF_STAT_MSIXEN : Fld := ⟨R.HIF_STAT, 8, 8⟩
def HIF_STAT_BME : Fld := ⟨R.HIF_STAT, 7, 7⟩
def HIF_STAT_LINKUP : Fld := ⟨R.HIF_STAT, 6, 6⟩
def HIF_STAT_WIDTH : Fld := ⟨R.HIF_STAT, 5, 4⟩
def HIF_STAT_SPEED : Fld := ⟨R.HIF_STAT, 2, 0⟩
def HIF_PVEC0_VEC : Fld := ⟨R.HIF_PVEC0, 31, 0⟩
def HIF_PVEC1_VEC : Fld := ⟨R.HIF_PVEC1, 31, 0⟩
def HIF_PVEC2_VEC : Fld := ⟨R.HIF_PVEC2, 31, 0⟩
def HIF_PVEC3_VEC : Fld := ⟨R.HIF_PVEC3, 31, 0⟩
def HIF_PVEC4_VEC : Fld := ⟨R.HIF_PVEC4, 31, 0⟩
def HIF_PVEC5_VEC : Fld := ⟨R.HIF_PVEC5, 31, 0⟩
def HIF_PVEC6_VEC : Fld := ⟨R.HIF_PVEC6, 31, 0⟩
def HIF_RVEC0_VEC : Fld := ⟨R.HIF_RVEC0, 31, 0⟩
def HIF_RVEC1_VEC : Fld := ⟨R.HIF_RVEC1, 31, 0⟩
def HIF_RVEC2_VEC : Fld := ⟨R.HIF_RVEC2, 31, 0⟩
def HIF_RVEC3_VEC : Fld := ⟨R.HIF_RVEC3, 31, 0⟩
def HIF_RVEC4_VEC : Fld := ⟨R.HIF_RVEC4, 31, 0⟩
def HIF_RVEC5_VEC : Fld := ⟨R.HIF_RVEC5, 31, 0⟩
def HIF_RVEC6_VEC : Fld := ⟨R.HIF_RVEC6, 31, 0⟩
def HIF_RVEC7_VEC : Fld := ⟨R.HIF_RVEC7, 31, 0⟩
def HIF_EOI_VEC : Fld := ⟨R.HIF_EOI, 4, 0⟩
def HIF_VPEND_LATCH : Fld := ⟨R.HIF_VPEND, 31, 0⟩
def HIF_WB_LO_BASE : Fld := ⟨R.HIF_WB_LO, 31, 0⟩
def HIF_WB_HI_BASE : Fld := ⟨R.HIF_WB_HI, 31, 0⟩
def HIF_EVCFG_EN : Fld := ⟨R.HIF_EVCFG, 8, 8⟩
def HIF_EVCFG_RING : Fld := ⟨R.HIF_EVCFG, 4, 0⟩
def HIF_PTPW0_DATA : Fld := ⟨R.HIF_PTPW0, 31, 0⟩
def HIF_PTPW1_DATA : Fld := ⟨R.HIF_PTPW1, 31, 0⟩
def HIF_PTPW2_DATA : Fld := ⟨R.HIF_PTPW2, 31, 0⟩
def HIF_PTPW3_DATA : Fld := ⟨R.HIF_PTPW3, 31, 0⟩
def HIF_PTPW4_DATA : Fld := ⟨R.HIF_PTPW4, 31, 0⟩
def HIF_PTPW5_DATA : Fld := ⟨R.HIF_PTPW5, 31, 0⟩
def HIF_PTPW6_DATA : Fld := ⟨R.HIF_PTPW6, 31, 0⟩
def HIF_PTPW7_DATA : Fld := ⟨R.HIF_PTPW7, 31, 0⟩
def HIF_PTPOP_KIND : Fld := ⟨R.HIF_PTPOP, 1, 0⟩
def HIF_PTPST_OFS : Fld := ⟨R.HIF_PTPST, 31, 8⟩
def HIF_PTPST_STATE : Fld := ⟨R.HIF_PTPST, 1, 0⟩
def HIF_SPICNT_BAD : Fld := ⟨R.HIF_SPICNT, 23, 16⟩
def HIF_SPICNT_OK : Fld := ⟨R.HIF_SPICNT, 15, 0⟩
def HIF_Mn_IRQRAW_ERR (n : Nat) : Fld := ⟨(R.HIF_Mn_IRQRAW n), 4, 4⟩
def HIF_Mn_IRQRAW_LINK (n : Nat) : Fld := ⟨(R.HIF_Mn_IRQRAW n), 3, 3⟩
def HIF_Mn_IRQRAW_RXFULL (n : Nat) : Fld := ⟨(R.HIF_Mn_IRQRAW n), 2, 2⟩
def HIF_Mn_IRQRAW_RXFRAME (n : Nat) : Fld := ⟨(R.HIF_Mn_IRQRAW n), 1, 1⟩
def HIF_Mn_IRQRAW_TXDONE (n : Nat) : Fld := ⟨(R.HIF_Mn_IRQRAW n), 0, 0⟩
def HIF_Mn_CTL_PROMISC (n : Nat) : Fld := ⟨(R.HIF_Mn_CTL n), 3, 3⟩
def HIF_Mn_CTL_ANEN (n : Nat) : Fld := ⟨(R.HIF_Mn_CTL n), 2, 2⟩
def HIF_Mn_CTL_MODE (n : Nat) : Fld := ⟨(R.HIF_Mn_CTL n), 1, 1⟩
def HIF_Mn_CTL_EN (n : Nat) : Fld := ⟨(R.HIF_Mn_CTL n), 0, 0⟩
def HIF_Mn_STAT_SPEED (n : Nat) : Fld := ⟨(R.HIF_Mn_STAT n), 2, 1⟩
def HIF_Mn_STAT_LINK (n : Nat) : Fld := ⟨(R.HIF_Mn_STAT n), 0, 0⟩
def HIF_Mn_ADDR_LO_ADDR (n : Nat) : Fld := ⟨(R.HIF_Mn_ADDR_LO n), 31, 0⟩
def HIF_Mn_ADDR_HI_ADDR (n : Nat) : Fld := ⟨(R.HIF_Mn_ADDR_HI n), 15, 0⟩
def HIF_Mn_TXB_LO_BASE (n : Nat) : Fld := ⟨(R.HIF_Mn_TXB_LO n), 31, 0⟩
def HIF_Mn_TXB_HI_BASE (n : Nat) : Fld := ⟨(R.HIF_Mn_TXB_HI n), 31, 0⟩
def HIF_Mn_RXB_LO_BASE (n : Nat) : Fld := ⟨(R.HIF_Mn_RXB_LO n), 31, 0⟩
def HIF_Mn_RXB_HI_BASE (n : Nat) : Fld := ⟨(R.HIF_Mn_RXB_HI n), 31, 0⟩
def HIF_Mn_RING_RXN (n : Nat) : Fld := ⟨(R.HIF_Mn_RING n), 31, 16⟩
def HIF_Mn_RING_TXN (n : Nat) : Fld := ⟨(R.HIF_Mn_RING n), 15, 0⟩
def HIF_Mn_TXP_HEAD (n : Nat) : Fld := ⟨(R.HIF_Mn_TXP n), 31, 16⟩
def HIF_Mn_TXP_TAIL (n : Nat) : Fld := ⟨(R.HIF_Mn_TXP n), 15, 0⟩
def HIF_Mn_RXP_HEAD (n : Nat) : Fld := ⟨(R.HIF_Mn_RXP n), 31, 16⟩
def HIF_Mn_RXP_TAIL (n : Nat) : Fld := ⟨(R.HIF_Mn_RXP n), 15, 0⟩
def HIF_Mn_LAT_RXLAT (n : Nat) : Fld := ⟨(R.HIF_Mn_LAT n), 31, 16⟩
def HIF_Mn_LAT_TXLAT (n : Nat) : Fld := ⟨(R.HIF_Mn_LAT n), 15, 0⟩
def HIF_Mn_CNT_RXERR (n : Nat) : Fld := ⟨(R.HIF_Mn_CNT n), 31, 16⟩
def HIF_Mn_CNT_RXDROP (n : Nat) : Fld := ⟨(R.HIF_Mn_CNT n), 15, 0⟩
def SUP_STAT_TRAP : Fld := ⟨R.SUP_STAT, 4, 4⟩
def SUP_STAT_PHASE : Fld := ⟨R.SUP_STAT, 3, 0⟩
def SUP_ECC_RING : Fld := ⟨R.SUP_ECC, 31, 24⟩
def SUP_ECC_SCHED : Fld := ⟨R.SUP_ECC, 23, 16⟩
def SUP_ECC_CTX : Fld := ⟨R.SUP_ECC, 15, 8⟩
def SUP_ECC_CEN : Fld := ⟨R.SUP_ECC, 7, 0⟩
def PWR_IRQRAW_HIBREF : Fld := ⟨R.PWR_IRQRAW, 4, 4⟩
def PWR_IRQRAW_SEALONLY : Fld := ⟨R.PWR_IRQRAW, 3, 3⟩
def PWR_IRQRAW_TEMP : Fld := ⟨R.PWR_IRQRAW, 2, 2⟩
def PWR_IRQRAW_EW : Fld := ⟨R.PWR_IRQRAW, 1, 1⟩
def PWR_IRQRAW_SUPPLY : Fld := ⟨R.PWR_IRQRAW, 0, 0⟩
def PWR_CTL_TLIM : Fld := ⟨R.PWR_CTL, 15, 8⟩
def PWR_CTL_EWEN : Fld := ⟨R.PWR_CTL, 0, 0⟩
def PWR_STAT_HIBREF : Fld := ⟨R.PWR_STAT, 11, 8⟩
def PWR_STAT_EWCLR : Fld := ⟨R.PWR_STAT, 4, 4⟩
def PWR_STAT_SEALONLY : Fld := ⟨R.PWR_STAT, 3, 3⟩
def PWR_STAT_EW : Fld := ⟨R.PWR_STAT, 2, 2⟩
def PWR_STAT_TEMP : Fld := ⟨R.PWR_STAT, 1, 1⟩
def PWR_STAT_SUPOK : Fld := ⟨R.PWR_STAT, 0, 0⟩
def PWR_MON_BANKOK : Fld := ⟨R.PWR_MON, 23, 16⟩
def PWR_MON_CLASS : Fld := ⟨R.PWR_MON, 15, 8⟩
def PWR_MON_QXOK : Fld := ⟨R.PWR_MON, 3, 3⟩
def PWR_MON_D2XOK : Fld := ⟨R.PWR_MON, 2, 2⟩
def PWR_MON_AOK : Fld := ⟨R.PWR_MON, 1, 1⟩
def PWR_MON_COREOK : Fld := ⟨R.PWR_MON, 0, 0⟩
def PWR_EW_RET : Fld := ⟨R.PWR_EW, 31, 24⟩
def PWR_EW_DB : Fld := ⟨R.PWR_EW, 23, 16⟩
def PWR_EW_HYST : Fld := ⟨R.PWR_EW, 15, 12⟩
def PWR_EW_LEVEL : Fld := ⟨R.PWR_EW, 11, 0⟩
def PWR_TEMP_SENS : Fld := ⟨R.PWR_TEMP, 25, 24⟩
def PWR_TEMP_PEAK : Fld := ⟨R.PWR_TEMP, 23, 16⟩
def PWR_TEMP_TJ : Fld := ⟨R.PWR_TEMP, 15, 0⟩
def PWR_RSTCMD_KEY : Fld := ⟨R.PWR_RSTCMD, 31, 0⟩
def PWR_RSTCAUSE_COUNT : Fld := ⟨R.PWR_RSTCAUSE, 31, 16⟩
def PWR_RSTCAUSE_DOMAIN : Fld := ⟨R.PWR_RSTCAUSE, 15, 8⟩
def PWR_RSTCAUSE_CAUSE : Fld := ⟨R.PWR_RSTCAUSE, 3, 0⟩
def PWR_HIB_KEY : Fld := ⟨R.PWR_HIB, 31, 0⟩
def AO_IRQRAW_WAKE : Fld := ⟨R.AO_IRQRAW, 3, 3⟩
def AO_IRQRAW_LOST : Fld := ⟨R.AO_IRQRAW, 2, 2⟩
def AO_IRQRAW_OSCSTOP : Fld := ⟨R.AO_IRQRAW, 1, 1⟩
def AO_IRQRAW_VAOLOW : Fld := ⟨R.AO_IRQRAW, 0, 0⟩
def AO_CTL_ITH : Fld := ⟨R.AO_CTL, 23, 16⟩
def AO_CTL_IDB : Fld := ⟨R.AO_CTL, 15, 8⟩
def AO_CTL_SLACT : Fld := ⟨R.AO_CTL, 1, 1⟩
def AO_CTL_IEN : Fld := ⟨R.AO_CTL, 0, 0⟩
def AO_STAT_SLACT1 : Fld := ⟨R.AO_STAT, 5, 5⟩
def AO_STAT_SLACT0 : Fld := ⟨R.AO_STAT, 4, 4⟩
def AO_STAT_IBAT : Fld := ⟨R.AO_STAT, 3, 3⟩
def AO_STAT_LOST : Fld := ⟨R.AO_STAT, 2, 2⟩
def AO_STAT_OSC : Fld := ⟨R.AO_STAT, 1, 1⟩
def AO_STAT_VAOOK : Fld := ⟨R.AO_STAT, 0, 0⟩
def AO_WAKEEN_EN : Fld := ⟨R.AO_WAKEEN, 5, 0⟩
def AO_WAKESRC_SRC : Fld := ⟨R.AO_WAKESRC, 6, 0⟩
def AO_VAO_LEVEL : Fld := ⟨R.AO_VAO, 31, 16⟩
def AO_VAO_VAO : Fld := ⟨R.AO_VAO, 15, 0⟩

end F
end Sys2Proof
end

