-- ==== Sys2Proof/Machine/State.lean ====
section
/-! DEFINITION. The state of the W480: the registers of every page, the hidden state of every block, the time base,
what is kept without power, and the queue of waiting commands. Plain data throughout. The default value of a field
is its value after reset (R5, R470; log 4 where the manual states none). -/

namespace Sys2Proof.Machine

/-- Why the machine stops with a fault: no command of the table stops in one, so the type has no case. -/
inductive Fault where
  deriving DecidableEq, Repr

/-- Why a command has no meaning. -/
inductive Refusal where
  /-- A command whose meaning is not written: safe, the run ends. -/
  | notModelled (mnemonic : String)
  deriving DecidableEq, Repr

/-! ### Pair operation (13) -/

/-- A frame put on PAIR (R363): type, sequence number, content, what a MIRROR or BULK frame carries, and how often it has been
sent again. -/
structure PairFrame where
  ty   : Nat
  seq  : Nat := 0
  data : List Nat := []
  item : Option MirrorItem := none
  lane : Nat := 0
  again : Nat := 0
  /-- The tick in which it went out last (R363). -/
  sentAt : Nat := 0
  deriving DecidableEq, Repr

/-- What a PAIR lane carries (R363): the control symbols K27.7, K29.7 and K28.5, and bytes. -/
inductive PairSym where
  | k277
  | k297
  | k285
  | byte (b : Byte)
  deriving DecidableEq, Repr

/-- The hidden state of PAR. -/
structure Par where
  /-- The lease expiry E as a tick (R354). -/
  leaseEnd : Nat := 0
  /-- The tick of the last STAKE ACK sent (R355). -/
  ackAt    : Nat := 0
  /-- The partner's lease is deemed lapsed; the partner has offered the Stake or yielded (R355, R356). -/
  lapsed   : Bool := false
  offered  : Bool := false
  /-- A give-up waits for its TAKE, and a Bivouac entry that its incident took: cause, source, kind (R360). -/
  giving   : Option Nat := none
  biv      : Option (Nat × Nat × Nat) := none
  /-- A handover offered or accepted: the tick of boundary B, and whether TAKE has come (R361). -/
  offer    : Option Nat := none
  taken    : Bool := false
  /-- The tick of the last offer made, or of the last TAKE given (R372). -/
  offerAt  : Nat := 0
  /-- The tick of the last claim, and the state it left (R356, R372). -/
  claimAt  : Nat := 0
  claimOf  : Nat := 0
  /-- RESYNC: the tick of the last part of the copy, and the iterations of each slot up to then (R369). -/
  copyAt   : Nat := 0
  iters    : Tab Nat := []
  /-- The symbols of the last frame on each lane (R363). -/
  out      : Tab (List PairSym) := []
  /-- Cause of the switchover under way, and the tick from which its gap counts (R362, R373). -/
  swc      : Nat := 0
  gapFrom  : Nat := 0
  /-- Episodes of a Guyline fault and of a position conflict. -/
  guyEp    : Bool := false
  posEp    : Bool := false
  /-- The mirror has been invalid since PAIR went down (R363, R367). -/
  mirrorBad : Bool := false
  /-- Since which tick, until the outage is reported; ticks: the end of the listening in START, the YIELD sent, the last IDLE and
  STAKE sent, the last self-renewal, and the last valid frame of each lane (R354, R357, R360, R363). -/
  badAt    : Option Nat := none
  listenTo : Nat := 0
  gaveAt   : Nat := 0
  idleAt   : Option Nat := none
  stakeAt  : Option Nat := none
  renewAt  : Option Nat := none
  laneAt   : Tab Nat := []
  /-- The last frame sent of each type, the frames that wait for an acknowledgement, and the next sequence number. -/
  sent     : Tab PairFrame := []
  unacked  : List PairFrame := []
  seq      : Nat := 0
  /-- The sequence number of the last frame taken that is acknowledged; every frame carries it (R363). -/
  rxSeq    : Nat := 0
  deriving DecidableEq, Repr

/-! ### Watchdog (15) and firmware update (16) -/

/-- A failure that WDG has found (R410): its tick, block, kind, slots and code, the last-service stamps and its own. -/
structure Caught where
  tick  : Nat
  block : Nat
  kind  : Nat
  slots : Nat
  code  : Nat
  last  : Option Stamps
  here  : Option Stamps
  deriving DecidableEq, Repr

/-- A check-in that WDG has accepted (R408): its tick, slot and site, and what it replaced in WDG_TSk_SITE, WDG_TSk_LAST and
the last-service stamps. -/
structure Checked where
  tick   : Nat
  slot   : Nat
  site   : Nat
  site0  : Nat
  last0  : Nat
  stamp0 : Option Stamps
  deriving DecidableEq, Repr

/-- The hidden state of WDG. Ticks are those of WDG_TICK (R401). -/
structure Wdg where
  /-- WDG_TICK at the time-base tick `baseAt`; it counts on the safety oscillator while `fallback`. -/
  base     : Nat := 0
  baseAt   : Nat := 0
  fallback : Bool := false
  /-- Start of the supervisor window and of the host cycle (R402, R407). -/
  sAt      : Nat := 0
  hAt      : Nat := 0
  /-- Stamps of the last accepted service and of the last accepted check-in of a slot, kept in AO (R410). -/
  supLast  : Option Stamps := none
  slotLast : Tab (Option Stamps) := []
  /-- A host failure captured in hibernation, to be raised once CORE runs (R411): the missing slots. -/
  hibFail  : Option Nat := none
  /-- Failures and accepted check-ins of the present tick, oldest first (R412). -/
  caught   : List Caught := []
  checked  : List Checked := []
  /-- The tick in which WDG took to its hibernation behaviour (R411, R477). -/
  hibAt    : Nat := 0
  deriving DecidableEq, Repr

/-- An operation of UPD under way. -/
inductive UpdOp where
  | erase
  | verify
  /-- The offset of a block that is being programmed. -/
  | block (ofs : Nat)
  deriving DecidableEq, Repr

/-- The hidden state of UPD. -/
structure Upd where
  /-- The staged block by word (R421). -/
  staged  : Tab Word := []
  /-- The bank of the open session, in the order of UPD_BANK, and its transfer length. -/
  bank    : Nat := 0
  len     : Nat := 0
  op      : Option UpdOp := none
  /-- The bytes of the block that is being programmed, and the tick of its commit (R422, R433). -/
  block   : List Byte := []
  blockAt : Nat := 0
  /-- The banks in trial that are confirmed in the present tick, unless a chip reset meets it (R427, R433). -/
  confirmed : List Nat := []
  /-- The owner lock's code while it is set (R429), kept in AO. -/
  lock    : Option Nat := none
  /-- Level of MOTION, ticks of its changes, newest first, and the holds of R430. -/
  level   : Bool := false
  changes : List Nat := []
  chatter : Bool := false
  stuck   : Bool := false
  /-- MOTION is asserted since this tick (R430). -/
  since   : Nat := 0
  deriving DecidableEq, Repr

/-! ### Host interfaces (17) and supplies (18) -/

/-- A received frame whose write-back waits until the host's memory can be written (R438): MAC, buffer address, bytes, and
the stamps at the wire (R446). -/
structure MacWait where
  mac   : Nat
  addr  : Nat
  frame : List Byte
  ns    : Nat
  stamp : Stamp
  ptp   : Bool
  deriving DecidableEq, Repr

/-- The hidden state of HIF. -/
structure Hif where
  /-- Message address and data of the MSI-X table by word, 4 × vector + word; the vectors that are not masked (R436). -/
  msix     : Tab Word := []
  msixOpen : Nat := 0
  macWait  : List MacWait := []
  /-- The last frame that each MAC has sent, with its FCS (R444). -/
  macOut   : Tab (List Byte) := []
  /-- What the last SPI status byte tells (R449): the last write was applied, the last frame was refused. -/
  spiDone  : Bool := false
  spiBad   : Bool := false
  /-- The last path delay of the servo in ns (R447). -/
  delay    : Int := 0
  /-- What the last read of a host interface returned: the words, or for SPI the bytes; the model's own field (log 2). -/
  readData : List Nat := []
  deriving DecidableEq, Repr

/-- The hidden state of PWR and AO. -/
structure Pwr where
  /-- Supply codes of R464 in an episode outside their window. -/
  out      : List Nat := []
  /-- The tick in which each of these episodes began, and that of the last temperature sample (R464, R467). -/
  outAt    : Tab Nat := []
  tempAt   : Option Nat := none
  /-- Supply codes of rails that are lost, not merely outside their window (R466). -/
  lost     : List Nat := []
  /-- LPDDR4X is invalid until the next chip reset (R466). -/
  ddrBad   : Bool := false
  tempEp   : Bool := false
  /-- Every reading since this tick has been 5 °C below TLIM (R467). -/
  coolFrom : Option Nat := none
  ewEp     : Bool := false
  /-- PWR_TEMP.PEAK has been read and holds no reading (R484). -/
  peakRead : Bool := true
  /-- Power-on reset is asserted: its cause of PWR_RSTCAUSE (R470). -/
  por      : Option Nat := none
  /-- A chip reset that waits for its 2 µs, and one that holds the chip, by cause (R470, R473). -/
  rstReq   : Option Nat := none
  held     : Option Nat := none
  /-- The tick of that request, and of the reset (R470, R473). -/
  rstAt    : Nat := 0
  heldAt   : Nat := 0
  /-- Hibernate entry under way; PSEN is low; its 2.0 ms have passed; the cause of a wake (R477, R480). -/
  entering : Bool := false
  /-- The tick of its acceptance, and its last row of R477; the tick in which PSEN fell. -/
  hibAt    : Nat := 0
  hibRow   : Nat := 0
  psenAt   : Nat := 0
  /-- Wake sources seen outside hibernate, with their tick (R482). -/
  seen     : Nat × Nat := (0, 0)
  psenLow  : Bool := false
  psenDone : Bool := false
  waking   : Option Nat := none
  /-- The tick of that wake (R480); the present start follows a wake (R411, R480). -/
  wakeAt   : Nat := 0
  woken    : Bool := false
  /-- The AO domain has lost its data and has not told so in phase 3 (R478). -/
  aoTell   : Bool := true
  /-- The tick of the last AO reset (R482). -/
  aoAt     : Option Nat := none
  /-- The tick of the last activity on each shelf-link segment (R485). -/
  slAt     : Tab (Option Nat) := []
  /-- The reference clock has stopped (R36). -/
  noClock  : Bool := false
  /-- The banks chosen at boot (R475). -/
  sup      : Option Nat := none
  ce       : Option Nat := none
  /-- The running SUP image carries FLAGS.DEBUG (R403, R450). -/
  debug    : Bool := false
  /-- The tick in which phase 3 began (R427, R474). -/
  runFrom  : Nat := 0
  deriving DecidableEq, Repr


/-! ### The chip -/

/-- What one clock has seen of registers that the host and the hardware both change (R8). -/
structure Same where
  /-- The tick that the rest tells of. -/
  tick  : Nat := 0
  /-- The RW bits that the host has written in it, and their value, by register word. -/
  wrote : Tab (Nat × Nat) := []
  /-- The register words that SPI has written in it (R462). -/
  spi   : List Nat := []
  /-- The W1C bits that the hardware has set in it, by register word. -/
  sets  : Tab Nat := []
  /-- The present command is a host access. -/
  host  : Bool := false
  deriving DecidableEq, Repr

/-- Everything on the chip that a chip reset clears, but for what R478 keeps. -/
structure Chip where
  /-- The active register words, by BAR0 offset; an unlisted register holds its reset value. -/
  regs    : Tab Word := []
  /-- The shadow words of RWS registers, likewise (R6). -/
  shadow  : Tab Word := []
  /-- The pending commit of each page (R454). -/
  commits : Tab (Option Commit) := []
  /-- The tick of the last commit of each page and PGSTAT before it (R462). -/
  commitAt : Tab (Nat × Nat) := []
  /-- The tick of the last write to a page by each interface, and the tick in which its unlock ran out, by 2 × page, plus 1 for
  SPI (R453, R462). -/
  wroteAt : Tab Nat := []
  lapsedAt : Tab (Option Nat) := []
  due     : List Due := []
  timeReq : Option TimeReq := none
  same    : Same := {}
  /-- The model's own counter of free values read (log 3). -/
  free    : Nat := 0
  /-- Messages due and not yet sent, by vector (R440). -/
  msixDue : Nat := 0
  /-- Legs, channels and PG pins are held off for hibernate entry (R477). -/
  hibHold : Bool := false
  flt     : Flt := {}
  rings   : Tab Ring := []
  /-- Rings with an unread entry older than RTO, by bit (R439). -/
  ringAged : Nat := 0
  ringMem : Tab Byte := []
  ddr     : Tab Byte := []
  /-- What the chip has written to host memory (R441, R445). -/
  hostMem : Tab Byte := []
  /-- The characters that UART_TX has sent, 8N1: start bit, data with the least significant bit first, stop bit (R450). -/
  uartTx  : List (BitVec 10) := []
  /-- The bytes of UART_RX that the supervisor has taken (R450). -/
  uartRx  : List Byte := []
  ctxs    : Tab Ctx := []
  /-- The bindings of the configuration image, by entry (R24, R313). -/
  bindings : Tab Binding := []
  /-- The words of the slot that a read of word 0 latched (R316). -/
  ctxLatch : List Nat := []
  segs    : Tab Seg := []
  xacts   : List Xact := []
  pmbDevs : Tab PmbDev := []
  /-- The tick in which the transaction in front began (R310). -/
  xactAt  : Nat := 0
  bus     : Bus := {}
  recd    : Rec := {}
  ang     : Ang := {}
  groups  : Tab Group := []
  legs    : Tab LegSt := []
  fins    : Tab Fin16 := []
  sins    : Tab Sin32 := []
  convs   : Tab SlowConv := []
  cmps    : Tab CmpSt := []
  /-- Consecutive limited periods by 16 × comparator + leg (R73). -/
  limRuns : Tab Nat := []
  slots   : Tab Slot := []
  /-- Coefficient words at 2,048 × slot + 1,024 × set + offset, and state words at 32 × slot + offset (R115). -/
  cenMem  : Tab Word := []
  cenSt   : Tab Word := []
  intents : List Intent := []
  /-- The applied value of each actuator code, and the values mirrored from the active chip (R107, R117). -/
  applied : Tab Int := []
  mirrored : Tab (Option Int) := []
  /-- The engine is free from this instant on, in half nanoseconds (R97); its busy cycles in the present 1 ms. -/
  cenFree : Nat := 0
  /-- The iteration that runs: what it has not dispatched and not written back yet (R95, R515). -/
  engine  : Option EngineRun := none
  cenMs   : Nat := 0
  cenBusy : Nat := 0
  /-- References 0x20–0x67 of R102 as signal words, by code. -/
  refs    : Tab Int := []
  efu     : Efu := {}
  bat     : Bat := {}
  cap     : Cap := {}
  cpt     : Cpt := {}
  par     : Par := {}
  wdg     : Wdg := {}
  upd     : Upd := {}
  hif     : Hif := {}
  pwr     : Pwr := {}
  deriving DecidableEq, Repr

/-- What is kept without any power: the xSPI flash (R340, R415) and the one-time fuses (R420). -/
structure Nv where
  /-- Flash bytes; an unlisted byte is erased and reads 0xFF (R341). -/
  flash : Tab Byte := []
  /-- Base and size of the banks SUP A, SUP B, CE A, CE B, as the directory gives them (R418); its byte layout is not in the
  manual (log 30). -/
  dir   : Tab (Nat × Nat) := []
  /-- Burned fuses of rows A and B of the security floor (R419). -/
  rowA  : Nat := 0
  rowB  : Nat := 0
  deriving DecidableEq, Repr

/-- The state of the machine. -/
structure State where
  chip    : Chip := {}
  nv      : Nv := {}
  time    : Time := {}
  pending : List Instr := []
  deriving DecidableEq, Repr

/-- The machine right after its first power-on reset is released (R466, R470, R474): every monitored rail is in its window,
VDDIO2 and VDDIO4 are of class 3.3 V (R464, R487), PWR_RSTCAUSE holds the first reset since VAO came up, cause power-on
(R472), and the first host cycle runs (R407). -/
def State.reset : State :=
  { chip := { regs := [(0x4044, 1), (0x4048, 0xFF140F), (0x4058, 0x10001)], wdg := { hAt := 1 } } }

end Sys2Proof.Machine
end

