-- ==== Sys2Proof/Machine/Ops.lean ====
section
/-! DEFINITION. The named operations over the registers, the interrupt bits, the reaction stage of the fault
collector and the stamps. -/

namespace Sys2Proof.Machine

/-! ### Numbers -/

/-- Two's complement reading of the low `w` bits of `v`. -/
def toInt (w v : Nat) : Int := if v % 2 ^ w < 2 ^ (w - 1) then (v % 2 ^ w : Nat) else (v % 2 ^ w : Nat) - (2 ^ w : Nat)

/-- Two's complement word of `w` bits of `x`. -/
def ofInt (w : Nat) (x : Int) : Nat := (x % (2 ^ w : Nat)).toNat

/-- `x` clamped to `lo`–`hi`. -/
def clampI (lo hi x : Int) : Int := if x < lo then lo else if hi < x then hi else x

/-- Division rounded half to even (R68). -/
def divEven (a : Int) (b : Nat) : Int :=
  let q := a / (b : Int)
  let r := a % (b : Int)
  if 2 * r < b then q else if (b : Int) < 2 * r then q + 1 else if q % 2 = 0 then q else q + 1

/-- Division rounded up. -/
def divUp (a b : Nat) : Nat := (a + b - 1) / b

/-- Division rounded to nearest, half up. -/
def divNear (a b : Nat) : Nat := (2 * a + b) / (2 * b)

/-- Bit `i` of `v`. -/
def bit (v i : Nat) : Bool := v / 2 ^ i % 2 = 1

/-- Bits `hi` down to `lo` of `v`. -/
def bits (v hi lo : Nat) : Nat := v / 2 ^ lo % 2 ^ (hi + 1 - lo)

/-- `v` with bits `hi` down to `lo` replaced by `x`. -/
def setBits (v hi lo x : Nat) : Nat :=
  v - bits v hi lo * 2 ^ lo + x % 2 ^ (hi + 1 - lo) * 2 ^ lo

/-- `v` with bit `i` set to `b`. -/
def setBit (v i : Nat) (b : Bool) : Nat := setBits v i i b.toNat

/-- The numbers below `n` whose bit of `v` is 1, rising. -/
def bitsOf (n v : Nat) : List Nat := (List.range n).filter (bit v)

/-- A count that stops at `top`. -/
def satAdd (top a b : Nat) : Nat := min top (a + b)

/-! ### Sine -/

/-- The sine of 2π × p / 2^24 for a quarter turn of the phase, in 2^−40, by its series; `a` the angle in 2^−40 rad. -/
def sineSeries : Nat → Int → Int → Nat → Int
  | 0, _, _, _ => 0
  | fuel + 1, a, term, k => term + sineSeries fuel a (-(term * a / 2 ^ 40 * a / 2 ^ 40) / ((2 * k) * (2 * k + 1) : Nat)) (k + 1)

/-- The sine of a phase in 2^−24 turn, in 2^−40. -/
def sineFine (p : Nat) : Int :=
  let q := p % 2 ^ 24 / 2 ^ 22
  let r := p % 2 ^ 22
  let x : Int := if q % 2 = 0 then (r : Nat) else ((2 ^ 22 - r : Nat) : Int)
  -- 2π × 2^40 × 2^−24 = 2π × 2^16 per unit of phase; 2π × 2^40 = 6908435304754
  let v := sineSeries 12 (x * 6908435304754 / 2 ^ 24) (x * 6908435304754 / 2 ^ 24) 1
  if q < 2 then v else -v

/-- The sine of a phase in 2^−24 turn as a signal word, to nearest. -/
def sineNear (p : Nat) : Int := divEven (sineFine p) (2 ^ 16)

/-! ### Registers -/

namespace Chip

/-- The active word of a register. -/
def rdR (c : Chip) (r : Reg) : Nat := (Tab.get r.reset c.regs r.addr).toNat

/-- The word of a register becomes `v`. -/
def wrR (c : Chip) (r : Reg) (v : Nat) : Chip :=
  { c with regs := Tab.set r.reset c.regs r.addr (BitVec.ofNat 32 v) }

/-- The shadow word of a register (R6). -/
def shR (c : Chip) (r : Reg) : Nat := (Tab.get r.reset c.shadow r.addr).toNat

/-- The shadow word of a register becomes `v`. -/
def wrShR (c : Chip) (r : Reg) (v : Nat) : Chip :=
  { c with shadow := Tab.set r.reset c.shadow r.addr (BitVec.ofNat 32 v) }

/-- The value of a field. -/
def rd (c : Chip) (f : Fld) : Nat := bits (c.rdR f.reg) f.hi f.lo

/-- A field read as two's complement. -/
def rdI (c : Chip) (f : Fld) : Int := toInt (f.hi + 1 - f.lo) (c.rd f)

/-- A one-bit field. -/
def flag (c : Chip) (f : Fld) : Bool := c.rd f != 0

/-- A field becomes `v` modulo its width. -/
def wr (c : Chip) (f : Fld) (v : Nat) : Chip := c.wrR f.reg (setBits (c.rdR f.reg) f.hi f.lo v)

/-- A field becomes the two's complement of `v`. -/
def wrI (c : Chip) (f : Fld) (v : Int) : Chip := c.wr f (ofInt (f.hi + 1 - f.lo) v)

/-- A one-bit field becomes `b`. -/
def wrB (c : Chip) (f : Fld) (b : Bool) : Chip := c.wr f b.toNat

/-- A field counts up by `n` and stops at its top value. -/
def count (c : Chip) (f : Fld) (n : Nat := 1) : Chip := c.wr f (satAdd (2 ^ (f.hi + 1 - f.lo) - 1) (c.rd f) n)

/-- Apply `f` when `b` holds. -/
def onlyIf (b : Bool) (f : Chip → Chip) (c : Chip) : Chip := if b then f c else c

/-- Apply `f` to each of the list, in order. -/
def forAll {α : Type} (l : List α) (f : α → Chip → Chip) (c : Chip) : Chip := l.foldl (fun c a => f a c) c

/-- The logic of the page runs: PGCTL.EN is 1 (R455). -/
def blockOn (c : Chip) (p : Nat) : Bool := c.flag (F.PGCTL_EN p)

/-- Set off a reaction or record in another block. -/
def push (c : Chip) (d : Due) : Chip := { c with due := c.due ++ [d] }

/-- Ask something of the time base. -/
def askTime (c : Chip) (r : TimeReq) : Chip := { c with timeReq := some r }

end Chip

/-! ### Stamps -/

namespace Time

/-- The 48-bit angle stamp: the accumulator above its 32-bit fraction (R39). -/
def stamp (t : Time) : Stamp := if t.running then (t.acc >>> 32).setWidth 48 else 0

/-- Both stamps of the present tick (R375), with NOANG while the angle clock does not run (R37). -/
def stamps (t : Time) : Stamps := ⟨t.stamp, t.ns, !t.running⟩

end Time

/-! ### Message vectors of HIF (R439, R440) -/

/-- The vector byte of a page, HIF_PVEC (R439). -/
def pageVec (c : Chip) (p : Nat) : Nat := bits (c.rdR ⟨0x48 + 4 * (p / 4), 0xffffffff⟩) (8 * (p % 4) + 7) (8 * (p % 4))

/-- The vector byte of a ring, HIF_RVEC (R439). -/
def ringVec (c : Chip) (k : Nat) : Nat := bits (c.rdR ⟨0x64 + 4 * (k / 4), 0xffffffff⟩) (8 * (k % 4) + 7) (8 * (k % 4))

/-- A source mapped to vector byte `v` becomes pending: a message is due when the latch is clear, and the latch is
set (R440). Bit 7 of the byte: no vector. -/
def vecDue (v : Nat) (c : Chip) : Chip :=
  if bit v 7 then c else c.wrR R.HIF_VPEND (setBit (c.rdR R.HIF_VPEND) (v % 32) true) |> fun c' =>
    if bit (c.rdR R.HIF_VPEND) (v % 32) then c else { c' with msixDue := setBit c.msixDue (v % 32) true }

/-- The pins of VDDIO bank `b` are driven and judged: its rail is not lost (R466). -/
def bankUp (c : Chip) (b : Nat) : Bool := !c.pwr.lost.contains (8 + b)

/-- The IRQRAW register of a page (R451); the reset value of AO_IRQRAW stands in R485. -/
def irqRaw (p : Nat) : Reg := if p = 5 then R.AO_IRQRAW else ⟨p * 0x1000 + 0x10, 0⟩

/-- IRQPEND of a page: IRQRAW AND IRQEN (R451). -/
def irqPend (c : Chip) (p : Nat) : Nat := c.rdR (irqRaw p) &&& c.rdR (R.IRQEN p)

/-- The fault source of a page's first half (R377, R457). -/
def srcOfPage (p : Nat) : Nat :=
  match p with
  | 0 => 0x16 | 1 => 0x16 | 2 => 0x16 | 3 => 0x14 | 4 => 0x17 | 5 => 0x18 | 6 => 0x15 | 7 => 0x13 | 8 => 0x01
  | 9 => 0x12 | 0x0A => 0x02 | 0x0B => 0x03 | 0x0C => 0x04 | 0x0D => 0x05 | 0x0E => 0x06 | 0x0F => 0x07
  | 0x10 => 0x08 | 0x11 => 0x09 | 0x12 => 0x0A | 0x13 => 0x0B | 0x14 => 0x0D | 0x15 => 0x0E | 0x16 => 0x0F
  | 0x17 => 0x10 | 0x18 => 0x11 | _ => 0

/-- The page of a fault source (R377). -/
def pageOfSrc (s : Nat) : Nat :=
  match s with
  | 0x01 => 8 | 0x02 => 0x0A | 0x03 => 0x0B | 0x04 => 0x0C | 0x05 => 0x0D | 0x06 => 0x0E | 0x07 => 0x0F
  | 0x08 => 0x10 | 0x09 => 0x11 | 0x0A => 0x12 | 0x0B => 0x13 | 0x0C => 0x13 | 0x0D => 0x14 | 0x0E => 0x15
  | 0x0F => 0x16 | 0x10 => 0x17 | 0x11 => 0x18 | 0x12 => 9 | 0x13 => 7 | 0x14 => 3 | 0x15 => 6 | 0x16 => 0
  | 0x17 => 4 | 0x18 => 5 | 0x19 => 8 | _ => 0

/-- The recorder runs (R350, R455). -/
def recOn (c : Chip) : Bool := c.blockOn 0x17 && c.flag F.REC_CTL_EN

/-- The enabled trigger entries of a kind that a test on the entry's number accepts (R336). -/
def trigEntries (c : Chip) (kind : Nat) (ok : Nat → Bool) : List Nat :=
  if recOn c then
    (List.range 8).filter fun j => c.flag (F.REC_TGj_CFG_EN j) && c.rd (F.REC_TGj_CFG_KIND j) == kind && ok j
  else []

/-- Output `i % 4` of slot `i / 4` after clamping, as a signal word; 0 while not produced since the slot was enabled
(R101, R102). -/
def slotOutput (c : Chip) (i : Nat) : Int :=
  if bit (Tab.get {} c.slots (i / 4)).produced (i % 4) then
    toInt 32 (Tab.get 0 c.cenSt (32 * (i / 4) + 0x10 + i % 4)).toNat
  else 0

/-- What a reference reads before its owner delivers it: the largest signal word for a power cap (R155), else 0. -/
def refDefault (code : Nat) : Int := if 0x40 ≤ code ∧ code ≤ 0x5F then 2 ^ 31 - 1 else 0

/-- A reference 0x20–0x67 of R102 as a signal word. -/
def refOf (c : Chip) (code : Nat) : Int := Tab.get (refDefault code) c.refs code

/-- A reference is delivered. -/
def setRef (code : Nat) (v : Int) (c : Chip) : Chip := { c with refs := Tab.set (refDefault code) c.refs code v }

/-- Set off the entries of a list (R336). -/
def fireAll (l : List Nat) (fault addr : Nat) (c : Chip) : Chip :=
  c.forAll l fun j c => c.push (.fire j fault addr)

/-- What the clock `t` has seen so far (R8). -/
def sameOf (t : Time) (c : Chip) : Same := if c.same.tick = t.tick then c.same else { tick := t.tick, host := c.same.host }

/-- The hardware sets the W1C bits `m` of the word at `off`, anew where they stand set: a host's clear in the same clock leaves
them set (R8). -/
def noteSet (t : Time) (off m : Nat) (c : Chip) : Chip :=
  let x := sameOf t c
  { c with same := { x with sets := Tab.upd 0 x.sets off (· ||| m) } }

/-- The hardware sets a W1C flag beside IRQRAW. -/
def setFlag (t : Time) (f : Fld) (c : Chip) : Chip := noteSet t f.reg.addr (2 ^ f.lo) (c.wrB f true)

/-- Bit `b` of IRQRAW of page `p` is set. When it rises, the page's message may become due (R440), an EVENT record is
written with EVALL (R334) and entries of KIND 0b001 fire (R336). -/
def irq (t : Time) (p b : Nat) (c : Chip) : Chip :=
  let c := noteSet t (irqRaw p).addr (2 ^ b) c
  let raw := c.rdR (irqRaw p)
  if bit raw b then c else
    let raw' := setBit raw b true
    let was := irqPend c p
    let c := c.wrR (irqRaw p) raw'
    let c := if was = 0 ∧ irqPend c p ≠ 0 then vecDue (pageVec c p) c else c
    let c := if recOn c && c.flag F.REC_CTL_EVALL then c.push (.event p b raw' t.stamps) else c
    fireAll (trigEntries c 1 fun j =>
      c.rd (F.REC_TGj_MATCH_SRC j) == srcOfPage p && c.rd (F.REC_TGj_MATCH_KMASK j) % 32 == b) 0 0 c

/-! ### The reaction stage (R376–R384) -/

/-- Bit numbers of the REACT byte (R380). -/
def reactINT : Nat := 0
@[inherit_doc reactINT] def reactTRAP : Nat := 1
@[inherit_doc reactINT] def reactHNMI : Nat := 2
@[inherit_doc reactINT] def reactBRST : Nat := 3
@[inherit_doc reactINT] def reactCRST : Nat := 4
@[inherit_doc reactINT] def reactERR : Nat := 5
@[inherit_doc reactINT] def reactBIV : Nat := 6
@[inherit_doc reactINT] def reactSHED : Nat := 7

/-- The reactions forced whatever FLTMAP selects (R381). -/
def forcedReact (source kind : Nat) : Nat :=
  if source = 0x12 ∧ bit kind 5 then 0x60
  else if source = 0x14 ∧ bit kind 0 then 0x60
  else if source = 0x15 ∧ bit kind 2 then 0x60
  else if source = 0x19 then (if bit kind 0 then 0x60 else if bit kind 3 then 0x20 else 0)
  else if source = 0x13 ∧ (bit kind 0 ∨ bit kind 1) then 0x20
  else 0

/-- The reactions that FLTMAP selects for a message: the half of its source, when KIND AND KMASK is not 0 (R379). -/
def selectedReact (c : Chip) (source kind : Nat) : Nat :=
  let p := pageOfSrc source
  if source = 0x0C ∨ source = 0x19 then
    if kind &&& c.rd (F.FLTMAP_KMASK1 p) ≠ 0 then c.rd (F.FLTMAP_REACT1 p) else 0
  else if kind &&& c.rd (F.FLTMAP_KMASK0 p) ≠ 0 then c.rd (F.FLTMAP_REACT0 p) else 0

/-- The lane of a source. -/
def lane (c : Chip) (s : Nat) : Lane := Tab.get {} c.flt.lanes s

/-- The lane of a source becomes `l`, and FLT_OPEN and FLT_STAT.NOPEN follow (R400). -/
def setLane (s : Nat) (l : Lane) (c : Chip) : Chip :=
  let lanes := Tab.set {} c.flt.lanes s l
  let c := { c with flt := { c.flt with lanes := lanes } }
  let c := c.wrR R.FLT_OPEN (setBit (c.rdR R.FLT_OPEN) s l.isOpen)
  c.wr F.FLT_STAT_NOPEN (lanes.filter fun e => e.2.isOpen).length

/-- A cause of R387 holds: ERR_N is to be asserted. -/
def errCause (c : Chip) : Bool :=
  c.flt.startErr || c.flt.biv || c.flt.held || c.flag F.FLT_ERR_FORCE
    || c.flt.lanes.any fun e => e.2.isOpen && bit e.2.taken reactERR

/-- ERR_N follows its causes: asserted with MINW running anew when it falls, released when no cause remains and MINW
has passed (R387). -/
def errUpdate (t : Time) (c : Chip) : Chip :=
  if errCause c then
    if c.flag F.FLT_STAT_ERR then c
    else ({ c with flt := { c.flt with minRun := true, errAt := t.tick } } : Chip).wrB F.FLT_STAT_ERR true
  else if c.flt.minRun then c else c.wrB F.FLT_STAT_ERR false

/-- Start the reactions whose bits are 1 in `start` (R380); in the Bivouac CRST and BRST are not applied (R395), and
BIV goes before CRST (R397). `forced`: BIV is forced, cause 2 (R393). -/
def startReactions (t : Time) (source kind kinds start : Nat) (forced : Bool) (c : Chip) : Chip :=
  let biv := c.flt.biv
  c |> Chip.onlyIf (bit start reactINT) (irq t 8 0)
    |> Chip.onlyIf (bit start reactTRAP) (fun c => c.wrB F.SUP_STAT_TRAP true)
    |> Chip.onlyIf (bit start reactHNMI) (fun c =>
        ({ c with flt := { c.flt with hnmi := true, hnmiAt := t.tick } } : Chip).wr F.FLT_STAT_HCNT (c.rd F.FLT_STAT_HCNT + 1))
    |> Chip.onlyIf (bit start reactBRST && !biv) (fun c => c.push (.blockReset (pageOfSrc source)))
    |> Chip.onlyIf (bit start reactCRST && !bit start reactBIV && !biv) (fun c => c.push (.chipReset source kinds))
    |> Chip.onlyIf (bit start reactBIV) (fun c => c.push (.bivouac (if forced then 2 else 1) source kind))
    |> Chip.onlyIf (bit start reactSHED) (fun c => c.push .shedAll)

/-- A message goes behind those of earlier ticks and of lower sources in its own tick (R376). -/
def placeMsg (m : Msg) : List Msg → List Msg
  | [] => [m]
  | x :: l => if x.tick = m.tick ∧ m.source < x.source then m :: x :: l else x :: placeMsg m l

/-- Put a message into the bookkeeping queue. One of its 64 places is reserved for each of the 25 sources: a source
with a message waiting needs a shared place, and with those full the message merges into the waiting one (R376). The
answer tells whether it merged. -/
def enqueueMsg (q : List Msg) (m : Msg) : List Msg × Bool :=
  let srcs := (q.map Msg.source).eraseDups
  let shared := q.length - srcs.length
  if q.any (fun x => x.source == m.source) && decide (39 ≤ shared) then
    let rec merge : List Msg → List Msg
      | [] => []
      | x :: l =>
        if x.source = m.source ∧ !(l.any fun y => y.source == m.source) then
          { x with kind := x.kind ||| m.kind, laddr := m.addr, last := m.at_, react := x.react ||| m.react
                   merged := x.merged + 1 } :: l
        else x :: merge l
    (merge q, true)
  else (placeMsg m q, false)

/-- One message meets its lane (R376, R379, R383, R384): it opens an incident or merges into the open one, starts the
reactions, selected or forced, that are not yet in TAKEN, and enters the bookkeeping queue. An incident whose ACLOSE ran out in
this tick has not closed (R397). The answer tells whether
it merged while the queue was full. -/
def lanePass (t : Time) (source kind addr : Nat) (inj : Bool) (c : Chip) : Chip × Bool :=
  let forced := forcedReact source kind
  let l := lane c source
  let isOpen := l.isOpen || l.autoAt == some t.tick
  let taken := if isOpen then l.taken else 0
  let kinds := if isOpen then l.kinds ||| kind else kind
  let start := (selectedReact c source kind ||| forced) &&& (255 - taken)
  let l' : Lane := ⟨true, taken ||| start, kinds, (l.isOpen && l.trap) || bit start reactTRAP, t.tick, none⟩
  let m : Msg := ⟨source, kind, addr, t.stamps, !isOpen, start, inj, 0, addr, t.stamps, kind, t.tick⟩
  let (q, merged) := enqueueMsg c.flt.queue m
  let c := setLane source l' c
  let c := ({ c with flt := { c.flt with queue := q } } : Chip).wr F.FLT_STAT_QFILL q.length
  let c := if merged then irq t 8 2 c else c
  let c := startReactions t source kind kinds start (bit forced reactBIV) c
  let c := errUpdate t c
  (fireAll (trigEntries c 0 fun j =>
      (c.rd (F.REC_TGj_MATCH_SRC j) == 0xFF || c.rd (F.REC_TGj_MATCH_SRC j) == source)
        && c.rd (F.REC_TGj_MATCH_KMASK j) &&& kind != 0) (source + 256 * kind) addr c, merged)

/-- The messages of a source detected in this tick, anew with TAKEN `base` before them: their reactions, and TAKEN after them. -/
def redecideMsgs (c : Chip) (s tick : Nat) (opens : Bool) : Nat → List Msg → List Msg × Nat
  | base, [] => ([], base)
  | base, m :: l =>
    if m.source = s ∧ m.tick = tick then
      let start := (selectedReact c s m.kind ||| forcedReact s m.kind) &&& (255 - base)
      let (l', b) := redecideMsgs c s tick false (base ||| start) l
      ({ m with opened := m.opened || opens, react := start } :: l', b)
    else
      let (l', b) := redecideMsgs c s tick opens base l
      (m :: l', b)

/-- A close or a FLTMAP commit that takes effect in the detection tick of messages of a source goes before them (R376, R397): they
are decided anew, on a closed incident where it `opens`, and the reactions that this adds start. -/
def redecide (t : Time) (s : Nat) (opens : Bool) (c : Chip) : Chip :=
  let l := lane c s
  let ms := c.flt.queue.filter fun m => m.source == s && m.tick == t.tick
  let did := ms.foldl (fun a m => a ||| m.react) 0
  let base := if opens || ms.any Msg.opened then 0 else l.taken &&& (255 - did)
  let (q, taken) := redecideMsgs c s t.tick opens base c.flt.queue
  let kinds := if opens then ms.foldl (fun a m => a ||| m.kind) 0 else l.kinds
  let c := setLane s { l with taken := taken ||| (if opens then 0 else l.taken), kinds := kinds, trap := l.trap || bit taken reactTRAP } c
  let c := { c with flt := { c.flt with queue := q } }
  let forced := ms.any fun m => bit (forcedReact s m.kind) reactBIV
  errUpdate t (startReactions t s ((ms.getLast?.map Msg.kind).getD 0) kinds (taken &&& (255 - did) &&& (255 - base)) forced c)

/-- A block sets a coded message (R375, R376). A forced reaction that FLTMAP did not select adds FLT kind 0x02
(R381); a merge with the queue full adds FLT kind 0x01, but for source 0x01 itself (R376). -/
def raise (t : Time) (source kind addr : Nat) (c : Chip) (inj : Bool := false) : Chip :=
  let extra := forcedReact source kind &&& (255 - selectedReact c source kind)
  let (c, merged) := lanePass t source kind addr inj c
  let c := if extra ≠ 0 then (lanePass t 0x01 0x02 (source * 256 + kind) false c).1 else c
  if merged && source != 0x01 then (lanePass t 0x01 0x01 source false c).1 else c

/-- A register-access fault, HIF kind 0x01, with HIF_IRQRAW.ACCESS (R7, R510). -/
def accessFault (t : Time) (off : Nat) (c : Chip) : Chip := irq t 0 0 (raise t 0x16 0x01 off c)

/-- A write to a locked page or a wrong key, HIF kind 0x02, with HIF_IRQRAW.LOCKWR (R453). -/
def lockFault (t : Time) (off : Nat) (c : Chip) : Chip := irq t 0 1 (raise t 0x16 0x02 off c)

end Sys2Proof.Machine
end

