-- ==== Sys2Proof/Machine/Rings.lean ====
section
/-! DEFINITION. The rings of RNG (R323–R330) and the records of REC (R331). -/

namespace Sys2Proof.Machine

/-- A condition has held on every sample for `n` ticks. -/
def heldFor (t : Time) (n : Nat) (x : Option Nat) : Bool := x.any fun a => decide (a + n ≤ t.tick)

/-- A period of `n` ticks has passed since a happening, or none has happened yet. -/
def periodOver (t : Time) (n : Nat) (x : Option Nat) : Bool := x.isNone || heldFor t n x

/-! ### Bytes -/

/-- The `n` little-endian bytes of `v` (R3). -/
def bytesLE : Nat → Nat → List Byte
  | 0, _ => []
  | n + 1, v => BitVec.ofNat 8 v :: bytesLE n (v / 256)

/-- The number that little-endian bytes stand for (R3). -/
def leNat : List Byte → Nat
  | [] => 0
  | b :: l => b.toNat + 256 * leNat l

/-- The bytes padded with 0 to a multiple of 8 (R325). -/
def pad8 (l : List Byte) : List Byte := l ++ List.replicate ((8 - l.length % 8) % 8) 0

/-! ### Rings -/

/-- The ring unit runs (R349, R455). -/
def rngOn (c : Chip) : Bool := c.blockOn 0x18 && c.flag F.RNG_CTL_EN

/-- Ring `k` is on. -/
def ringOn (c : Chip) (k : Nat) : Bool := rngOn c && c.flag (F.RNG_RGk_CFG_EN k)

/-- The hidden state of ring `k`. -/
def ring (c : Chip) (k : Nat) : Ring := Tab.get {} c.rings k

/-- Bytes of ring `k` on chip (R323). -/
def ringCap (c : Chip) (k : Nat) : Nat := c.rd (F.RNG_RGk_SEG_SIZE k) * 1024

/-- The consumer of ring `k` (R324). -/
def ringCons (c : Chip) (k : Nat) : Nat := c.rd (F.RNG_RGk_CFG_CONS k)

/-- On-chip fill of ring `k` in bytes (R325). -/
def ringFill (c : Chip) (k : Nat) : Nat := (ring c k).inW - (ring c k).outW

/-- Bytes of the spill region (R328). -/
def spillSize (c : Chip) (k : Nat) : Nat := c.rd (F.RNG_RGk_SPSZ_SIZE k) * 4096

/-- First byte of the spill region (R328). -/
def spillBase (c : Chip) (k : Nat) : Nat := c.rdR (R.RNG_RGk_SPLO k) + 2 ^ 32 * c.rdR (R.RNG_RGk_SPHI k)

/-- Bytes in host memory that the host has not yet read (R328). -/
def hostUnread (c : Chip) (k : Nat) : Nat :=
  ((ring c k).outW + 2 ^ 32 - c.rdR (R.RNG_RGk_RD k)) % 2 ^ 32

/-- The watermark of ring `k` is reached (R439). -/
def ringMark (c : Chip) (k : Nat) : Bool :=
  let w := c.rd (F.RNG_RGk_CFG_WMARK k)
  decide (w ≠ 0) && ((ringCons c k == 1 && decide (w * ringCap c k ≤ 16 * ringFill c k))
    || (ringCons c k == 3 && decide (w * spillSize c k ≤ 16 * hostUnread c k)))

/-- The ring's interrupt is pending (R439): its watermark is reached, or an unread entry is older than RTO. -/
def ringPending (c : Chip) (k : Nat) : Bool := ringOn c k && (ringMark c k || bit c.ringAged k)

/-- The index up to which the host has read ring `k`, on the count of all its bytes (R439). -/
def ringReadTo (c : Chip) (k : Nat) : Nat :=
  let r := ring c k
  if ringCons c k = 3 then r.outW - hostUnread c k else r.outW

/-- An unread entry of ring `k` is older than RTO (R439). -/
def ringOld (t : Time) (c : Chip) (k : Nat) : Bool :=
  let rto := c.rd F.HIF_CTL_RTO
  (ringCons c k == 1 || ringCons c k == 3) && rto != 0
    && (ring c k).wrote.any fun e => decide (ringReadTo c k < e.1) && decide (e.2 + rto * 40000 < t.tick)

/-- After a read, or a change of RTO: a ring that was due by age stays so while an unread entry is that old (R439). -/
def ringAges (t : Time) (k : Nat) (c : Chip) : Chip :=
  { c with ringAged := setBit c.ringAged k (bit c.ringAged k && ringOld t c k)
           rings := Tab.upd {} c.rings k fun r => { r with wrote := r.wrote.filter fun e => decide (ringReadTo c k < e.1) } }

/-- Ring `k` becomes `r`; WR, RD and FILL follow (R349). -/
def setRing (k : Nat) (r : Ring) (c : Chip) : Chip :=
  let c := { c with rings := Tab.set {} c.rings k r }
  let c := c.wr (F.RNG_RGk_STAT_FILL k) ((r.inW - r.outW) * 100 / max 1 (ringCap c k))
  if ringCons c k ≤ 1 then (c.wrR (R.RNG_RGk_WR k) (r.inW % 2 ^ 32)).wrR (R.RNG_RGk_RD k) (r.outW % 2 ^ 32)
  else c.wrR (R.RNG_RGk_WR k) (r.outW % 2 ^ 32)

/-- After a change of ring `k`, from the chip `was`: reaching the watermark raises RNG_IRQRAW.WMARK, and a pending
interrupt that was not pending makes its message due (R439, R440). -/
def ringNotify (t : Time) (k : Nat) (was c : Chip) : Chip :=
  let c := if ringMark c k && !ringMark was k then irq t 0x18 1 c else c
  if ringPending c k && !ringPending was k then vecDue (ringVec c k) c else c

/-- Lay bytes at ring offset `off` of ring `k`, wrapping past its end (R325). -/
def ringPoke (c : Chip) (k cap : Nat) : Nat → List Byte → Tab Byte → Tab Byte
  | _, [], m => m
  | off, b :: l, m =>
    ringPoke c k cap (off + 1) l (Tab.set 0 m (c.rd (F.RNG_RGk_SEG_BASE k) * 1024 + (off % 2 ^ 32) % cap) b)

/-- `n` bytes of ring `k` from index `off` on. -/
def ringPeek (c : Chip) (k : Nat) : Nat → Nat → List Byte
  | _, 0 => []
  | off, n + 1 =>
    Tab.get 0 c.ringMem (c.rd (F.RNG_RGk_SEG_BASE k) * 1024 + (off % 2 ^ 32) % max 1 (ringCap c k))
      :: ringPeek c k (off + 1) n

/-- An entry that does not fit is dropped whole: counted, its stamps kept, kind 0x01 once per episode (R326), and to
all drops of the ring (R341). -/
def ringDrop (t : Time) (k : Nat) (c : Chip) : Chip :=
  let r := ring c k
  let r' := { r with lost := r.lost + 1, drops := r.drops + 1, lostA := if r.lost = 0 then t.stamps else r.lostA, lostZ := t.stamps
                     fullEp := true }
  let c := { c with rings := Tab.set {} c.rings k r' }
  let c := c.count (F.RNG_RGk_STAT_DROP k)
  if r.fullEp then c else irq t 0x18 0 (raise t 0x11 0x01 k c)

/-- The entry fits in ring `k` (R326). -/
def ringFits (c : Chip) (k len : Nat) : Bool := ringOn c k && decide (ringFill c k + len ≤ ringCap c k)

/-- A producer writes an entry into ring `k` (R325); one that does not fit is dropped (R326). -/
def ringWrite (t : Time) (k : Nat) (entry : List Byte) (c : Chip) : Chip :=
  if !rngOn c then c
  else if ringFits c k entry.length then
    let r := ring c k
    let mem := ringPoke c k (ringCap c k) r.inW entry c.ringMem
    let inW := r.inW + entry.length
    let wrote := if ringCons c k = 1 ∨ ringCons c k = 3 then r.wrote ++ [(inW, t.tick)] else []
    let c' := setRing k { r with
      inW := inW, fullEp := false, wrote := wrote, waitAt := if r.inW = r.outW then t.tick else r.waitAt } { c with ringMem := mem }
    ringNotify t k c c'
  else ringDrop t k c

/-- The consumer takes `n` bytes from ring `k`. -/
def ringTake (t : Time) (k n : Nat) (c : Chip) : Chip :=
  let r := ring c k
  ringNotify t k c (setRing k { r with outW := r.outW + n } c)

/-- Bytes of the whole entries that fit into `room`, each entry's length being its second byte times 8 (R325). -/
def wholeEntries (c : Chip) (k room : Nat) : Nat → Nat → Nat → Nat
  | 0, _, n => n
  | fuel + 1, off, n =>
    if off < (ring c k).inW then
      let len := 8 * leNat (ringPeek c k (off + 1) 1)
      if len = 0 ∨ room < n + len then n else wholeEntries c k room fuel (off + len) (n + len)
    else n

/-! ### Records (R331) -/

/-- The chip acts: it is alone, or ACT_N is asserted (R18, R353, R357). -/
def acts (c : Chip) : Bool := c.rd F.PAR_STAT_STATE == 0 || c.flag F.PAR_STAT_ACT

/-- The chip of a pair that does not act (R18). -/
def isStandby (c : Chip) : Bool := !acts c

/-- Seal-only mode (R469). -/
def sealOnly (c : Chip) : Bool := c.flag F.PWR_STAT_SEALONLY

/-- A packed consist address (R12). -/
def packAddr (car shelf module element : Nat) : Nat := car * 2 ^ 20 + shelf * 2 ^ 16 + module * 2 ^ 10 + element

/-- The address of an own module's element: this car, this shelf (R12, R21). -/
def ownAddr (c : Chip) (module element : Nat) : Nat :=
  packAddr (c.rd F.CAP_CAR_CAR) (c.rd F.CAP_NUM_SHELF) module element

/-- The recording chip, c.s.63.0 or c.s.63.1 by pair position (R331). -/
def selfAddr (c : Chip) : Nat := ownAddr c 63 (c.rd F.PAR_STAT_POS)

/-- The FLAGS byte of a record (R331): NSFREE, STBY, POS, NOANG. -/
def recFlags (c : Chip) (s : Stamps) : Nat :=
  (!c.flag F.ANG_STAT_NSDISC).toNat + 2 * (isStandby c).toNat + 4 * c.rd F.PAR_STAT_POS + 8 * s.noang.toNat

/-- The 24-byte header of a record of `len` units of 8 bytes (R331). -/
def recHeader (c : Chip) (ty len src addr rseq : Nat) (s : Stamps) : List Byte :=
  bytesLE 1 ty ++ bytesLE 1 len ++ bytesLE 1 src ++ bytesLE 1 (recFlags c s) ++ bytesLE 6 s.stamp.toNat
    ++ bytesLE 2 rseq ++ bytesLE 8 s.ns.toNat ++ bytesLE 4 addr

/-- REC writes a record into ring `k` (R331): the header, then the payload padded to 8 bytes. -/
def recWrite (t : Time) (k ty src addr : Nat) (s : Stamps) (payload : List Byte) (c : Chip) : Chip :=
  if recOn c then
    let body := pad8 payload
    let len := 3 + body.length / 8
    let fits := ringFits c k (8 * len)
    let c' := ringWrite t k (recHeader c ty len src addr (ring c k).rseq s ++ body) c
    if fits then
      { c' with rings := Tab.upd {} c'.rings k fun r => { r with rseq := (r.rseq + 1) % 2 ^ 16 } }
    else c'
  else c

/-- The ring of the records of R334. -/
def evRing (c : Chip) : Nat := c.rd F.REC_CTL_EVRING

/-- An EVENT record (R331, R334). -/
def recEvent (t : Time) (page b raw : Nat) (s : Stamps) (c : Chip) : Chip :=
  recWrite t (evRing c) 0x01 (srcOfPage page) (selfAddr c) s (bytesLE 4 b ++ bytesLE 4 raw) c

/-- The FAULT record of a message (R331, R334). -/
def recFault (t : Time) (m : Msg) (incident mcount : Nat) (c : Chip) : Chip :=
  recWrite t (evRing c) 0x02 m.source (selfAddr c) m.at_
    (bytesLE 1 m.source ++ bytesLE 1 m.kind ++ bytesLE 1 m.react ++ bytesLE 1 (!m.opened).toNat
      ++ bytesLE 4 m.addr ++ bytesLE 4 incident ++ bytesLE 4 mcount) c

/-- A MARKER record (R331): entry index, action code, ARG; its instant is the due stamp of the entry. A code fires
the entries of KIND 0b010 that name it (R336). -/
def recMarker (t : Time) (idx action arg : Nat) (due : Stamp) (c : Chip) : Chip :=
  let c' := recWrite t (evRing c) 0x05 0x02 (selfAddr c) { t.stamps with stamp := due }
    (bytesLE 2 idx ++ bytesLE 2 action ++ bytesLE 4 arg) c
  if recOn c then
    fireAll (trigEntries c' 2 fun j => c'.rd (F.REC_TGj_MATCH_CODE j) == arg % 65536) 0 0 c'
  else c'

end Sys2Proof.Machine
end

