-- ==== Sys2Proof/Machine/Hash.lean ====
section
/-! DEFINITION. The check values the manual names by their standards: SHA-256 (R342), CRC-8 with polynomial 0x07
(R449), CRC-32 (R219, R422) and their helpers. -/

namespace Sys2Proof.Machine

/-! ### SHA-256

The standard's constants are computed: they are the first 32 bits of the fractions of the cube roots, and of the square roots,
of the first primes. A digest in progress is a pair of lists, since the eight working words are the last four terms of two
sequences. -/

/-- The first 64 primes. -/
def shaPrimes : List Nat :=
  (List.range 312).filter fun n => decide (2 ≤ n) && (List.range 18).all fun d => decide (d < 2) || decide (n ≤ d) || n % d != 0

/-- The whole part of the `k`-th root of `n`, for a root below 2^36: bit by bit from the top. -/
def wholeRoot (k n : Nat) : Nat :=
  (List.range 36).foldl (fun r i => if (r + 2 ^ (35 - i)) ^ k ≤ n then r + 2 ^ (35 - i) else r) 0

/-- The first 32 bits of the fraction of the `k`-th root of a prime. -/
def rootFraction (k p : Nat) : Word := BitVec.ofNat 32 (wholeRoot k (p * 2 ^ (32 * k)))

/-- A digest in progress: the last four terms of either sequence, newest first. -/
structure Digest where
  as : List Word
  es : List Word
  deriving DecidableEq, Repr

/-- The value before the first block. -/
def Digest.start : Digest :=
  let h := (shaPrimes.take 8).map (rootFraction 2)
  ⟨h.take 4, h.drop 4⟩

/-- The exclusive or of three rotations, the last a shift where `cut`. -/
def mixWord (i j k : Nat) (cut : Bool) (x : Word) : Word :=
  x.rotateRight i ^^^ x.rotateRight j ^^^ (if cut then x >>> k else x.rotateRight k)

/-- The next term of both sequences, from the word of the schedule and its constant added up. -/
def Digest.next (d : Digest) (input : Word) : Digest :=
  match d.as, d.es with
  | [a0, a1, a2, a3], [e0, e1, e2, e3] =>
    let chosen := e2 ^^^ (e0 &&& (e1 ^^^ e2))
    let most := (a0 &&& a1) ||| (a2 &&& (a0 ||| a1))
    let feed := input + e3 + chosen + mixWord 6 11 25 false e0
    ⟨[feed + most + mixWord 2 13 22 false a0, a0, a1, a2], [feed + a3, e0, e1, e2]⟩
  | _, _ => d

/-- A word from four bytes, the first the highest. -/
def wordBE (l : List Byte) : Word := BitVec.ofNat 32 (leNat (l.take 4).reverse)

/-- The schedule of a block of 64 bytes, newest word first. -/
def shaSchedule (block : List Byte) : List Word :=
  let given := (List.range 16).foldl (fun w i => wordBE (block.drop (4 * i)) :: w) []
  (List.range 48).foldl (fun w _ =>
    (mixWord 17 19 10 true (w.getD 1 0) + w.getD 6 0 + mixWord 7 18 3 true (w.getD 14 0) + w.getD 15 0) :: w) given

/-- A block is taken in. -/
def Digest.block (d : Digest) (block : List Byte) : Digest :=
  let inputs := List.zipWith (fun p w => rootFraction 3 p + w) shaPrimes (shaSchedule block).reverse
  let r := inputs.foldl Digest.next d
  ⟨List.zipWith (· + ·) d.as r.as, List.zipWith (· + ·) d.es r.es⟩

/-- A message with its stop bit, zeros, and its length in bits in the last 8 bytes of a block. -/
def shaPadded (m : List Byte) : List Byte :=
  let zeros := (119 - m.length % 64) % 64
  m ++ [0x80] ++ List.replicate zeros 0 ++ (bytesLE 8 (8 * m.length)).reverse

/-- SHA-256 of a message, as 32 bytes. -/
def sha256 (m : List Byte) : List Byte :=
  let p := shaPadded m
  let d := (List.range (p.length / 64)).foldl (fun d i => d.block ((p.drop (64 * i)).take 64)) Digest.start
  (d.as ++ d.es).flatMap fun x => (bytesLE 4 x.toNat).reverse

/-! ### Cyclic checks -/

/-- `n` steps of a shift register: `top` tells the bit that falls out, which adds in the polynomial. -/
def crcSteps {w : Nat} (top : BitVec w → Bool) (shift : BitVec w → BitVec w) (poly : BitVec w) : Nat → BitVec w → BitVec w
  | 0, x => x
  | n + 1, x => crcSteps top shift poly n (if top x then shift x ^^^ poly else shift x)

/-- CRC-8 with polynomial 0x07 and initial value 0, the PMBus PEC (R449). -/
def crc8 (m : List Byte) : Byte :=
  m.foldl (fun x b => crcSteps BitVec.msb (· <<< 1) 0x07 8 (x ^^^ b)) 0

/-- CRC-32 of IEEE 802.3, reflected, initial value and final XOR all ones (R219, R422): the polynomial 0x04C1_1DB7 read from
its other end. -/
def crc32 (m : List Byte) : BitVec 32 :=
  ~~~(m.foldl (fun x b => crcSteps (·.getLsbD 0) (· >>> 1) 0xEDB88320 8 (x ^^^ b.setWidth 32)) (BitVec.allOnes 32))

end Sys2Proof.Machine
end

