-- ==== Sys2Proof/Machine/Coding.lean ====
section
/-! DEFINITION. What the contract wire CL carries: symbols, ordered sets, packets and their biphase-mark levels, and how a
receiver reads them (R243–R248, R251, R252). -/

namespace Sys2Proof.Machine

/-! ### Symbols (R245) -/

/-- A symbol of five bits; the leftmost is sent first. -/
abbrev Sym := BitVec 5

/-- The symbols of the nibbles 0x0–0xF. -/
def dataSyms : List Sym :=
  [0b11110, 0b01001, 0b10100, 0b10101, 0b01010, 0b01011, 0b01110, 0b01111,
   0b10010, 0b10011, 0b10110, 0b10111, 0b11010, 0b11011, 0b11100, 0b11101]

/-- The control symbols. -/
def symSA : Sym := 0b11000
@[inherit_doc symSA] def symSB : Sym := 0b00110
@[inherit_doc symSA] def symHA : Sym := 0b00111
@[inherit_doc symSA] def symHB : Sym := 0b10001
@[inherit_doc symSA] def symET : Sym := 0b11001

/-- The symbol of a nibble. -/
def symOf (n : Nat) : Sym := dataSyms.getD n 0

/-- The nibble of a symbol; none of a control symbol or an invalid pattern. -/
def nibbleOf (s : Sym) : Option Nat := (List.range 16).find? fun n => symOf n == s

/-- Bytes as symbols, in ascending order, each its low nibble first. -/
def symsOf (l : List Byte) : List Sym := l.flatMap fun b => [symOf (b.toNat % 16), symOf (b.toNat / 16)]

/-- Symbols as bytes; none unless they are data symbols, two for each byte. -/
def bytesOf : List Sym → Option (List Byte)
  | [] => some []
  | [_] => none
  | lo :: hi :: l =>
    match nibbleOf lo, nibbleOf hi, bytesOf l with
    | some x, some y, some r => some (BitVec.ofNat 8 (x + 16 * y) :: r)
    | _, _, _ => none

/-! ### Ordered sets (R246) -/

/-- The start of packet, and the hard reset. -/
def startSet : List Sym := [symSA, symSB, symSB, symSA]
@[inherit_doc startSet] def resetSet : List Sym := [symHA, symHB, symHB, symHA]

/-- Four symbols are recognised as an ordered set: at least three stand correct in their places. -/
def isSet (set got : List Sym) : Bool :=
  decide (got.length = 4) && decide (3 ≤ ((List.zip set got).filter fun x => x.1 == x.2).length)

/-! ### Packets (R247, R248, R251) -/

/-- The bytes of a packet up to its CRC: the header word and the objects, little-endian. -/
def packetBytes (hdr : Nat) (objs : List Nat) : List Byte := bytesLE 2 hdr ++ objs.flatMap (bytesLE 4)

/-- The symbols of a packet after the preamble. -/
def packetSyms (hdr : Nat) (objs : List Nat) : List Sym :=
  let b := packetBytes hdr objs
  startSet ++ symsOf (b ++ bytesLE 4 (crc32 b).toNat) ++ [symET]

/-- The preamble: 64 bits in turn, 0 first. -/
def preamble : List Bool := (List.range 64).map fun i => i % 2 == 1

/-- The bits of symbols in the order in which they are sent. -/
def symBits (l : List Sym) : List Bool := l.flatMap fun s => (List.range 5).map fun i => s.getMsbD i

/-- The bits of a packet, and of a hard reset. -/
def packetBits (hdr : Nat) (objs : List Nat) : List Bool := preamble ++ symBits (packetSyms hdr objs)
@[inherit_doc packetBits] def resetBits : List Bool := preamble ++ symBits resetSet

/-- The levels of CL in the halves of each unit interval, biphase-mark from a level `l`: a transition begins each bit, and a
second one at its middle makes it a 1; then the wire is low for one interval (R243). -/
def clLevels : Bool → List Bool → List Bool
  | _, [] => [false, false]
  | l, b :: bs =>
    let mid := if b then l else !l
    (!l) :: mid :: clLevels mid bs

/-! ### The shelf link (R295) -/

/-- A bit of the shelf link as the levels of its two halves: a 1 rises at its middle, a 0 falls. -/
def slBit (b : Bool) : List Bool := [!b, b]

/-- The start of a frame: 0b1010_1010, then J K 1 1 J K 1 1, where J holds the line high for a bit and K low. -/
def slStart : List Bool :=
  let jk := [true, true, false, false] ++ slBit true ++ slBit true
  [true, false, true, false, true, false, true, false].flatMap slBit ++ jk ++ jk

/-- The levels of a frame with these bytes of header and payload, CRC included: each byte its least significant bit first. -/
def slLevels (body : List Byte) : List Bool :=
  slStart ++ (body ++ bytesLE 4 (crc32 body).toNat).flatMap fun b => (List.range 8).flatMap fun i => slBit (b.getLsbD i)

/-! ### Reception (R252) -/

/-- What a receiver makes of four symbols after a preamble, those that follow up to ET, and whether ET has come. -/
inductive Heard where
  /-- A hard reset ordered set. -/
  | reset
  /-- Checks 1–4 of R252 fail. -/
  | bad
  /-- A packet that passes them: header and objects. -/
  | packet (hdr : Nat) (objs : List Nat)
  deriving DecidableEq, Repr

/-- NOBJ of a header (R248). -/
def hdrObjs (hdr : Nat) : Nat := bits hdr 14 12

/-- The reception up to check 4 of R252: the ordered set, data symbols up to ET, the number of bytes, the CRC. -/
def heard (set body : List Sym) (ended : Bool) : Heard :=
  if isSet resetSet set then .reset
  else if !isSet startSet set || !ended then .bad
  else match bytesOf body with
    | none => .bad
    | some b =>
      let hdr := leNat (b.take 2)
      let n := hdrObjs hdr
      let objs := (List.range n).map fun i => leNat ((b.drop (2 + 4 * i)).take 4)
      if b.length = 2 + 4 * n + 4 ∧ leNat (b.drop (2 + 4 * n)) = (crc32 (packetBytes hdr objs)).toNat then .packet hdr objs
      else .bad

end Sys2Proof.Machine
end

