-- ==== Sys2Proof/Machine/Recorder.lean ====
section
/-! DEFINITION. RNG and REC: spill, read port, checkpoints, streams, triggers, windows, sealing and last gasp
(R323–R350). -/

namespace Sys2Proof.Machine

/-! ### Spill and read ports -/

/-- The pinned spans of ring `k`: the first history index of every window over it, open, ready or being sealed
(R337, R341). -/
def pinnedFrom (c : Chip) (k : Nat) : Option Nat :=
  ((c.recd.sealing.toList ++ c.recd.windows).flatMap fun w =>
    (w.spans.filter fun x => x.1 == k).map fun x => x.2.1).min?

/-- Bytes that a spill of ring `k` may write: up to a pinned span for LPDDR4X (R330), unread bytes kept for host
memory (R328). -/
def spillRoom (c : Chip) (k : Nat) : Nat :=
  if ringCons c k = 3 then spillSize c k - hostUnread c k
  else match pinnedFrom c k with
    | none => spillSize c k
    | some i => i + spillSize c k - (ring c k).outW

/-- A ring the spill engine serves now: on, consumer LPDDR4X, or host memory while the link and bus mastering are up
and the chip is not in seal-only mode (R328, R438, R469). -/
def spillable (c : Chip) (k : Nat) : Bool :=
  ringOn c k && decide (0 < ringFill c k) && ((ringCons c k == 2 && !c.pwr.ddrBad)
    || (ringCons c k == 3 && c.flag F.HIF_STAT_LINKUP && c.flag F.HIF_STAT_BME && !c.flag F.PWR_STAT_SEALONLY))

/-- Ring `k` has had no drain for 100 µs with an entry waiting (R328). -/
def ringWaits (t : Time) (c : Chip) (k : Nat) : Bool := decide ((ring c k).waitAt + 40000 ≤ t.tick)

/-- The spillable ring whose fill, as a share of its size, is greatest; the lowest of equals. A ring whose entry has waited
100 µs goes at once (R328). -/
def fullestRing (t : Time) (c : Chip) : Option Nat :=
  let all := (List.range 32).filter (spillable c)
  (if all.any (ringWaits t c) then all.filter (ringWaits t c) else all).foldl (fun best k => match best with
    | none => some k
    | some b => if ringFill c b * ringCap c k < ringFill c k * ringCap c b then some k else some b) none

/-- Lay bytes into a circular region of memory from index `i` on. -/
def pokeRegion (base size : Nat) : Nat → List Byte → Tab Byte → Tab Byte
  | _, [], m => m
  | i, b :: l, m => pokeRegion base size (i + 1) l (Tab.set 0 m (base + (i % 2 ^ 32) % max 1 size) b)

/-- `n` bytes of a circular region from index `i` on. -/
def peekRegion (m : Tab Byte) (base size : Nat) : Nat → Nat → List Byte
  | _, 0 => []
  | i, n + 1 => Tab.get 0 m (base + (i % 2 ^ 32) % max 1 size) :: peekRegion m base size (i + 1) n

/-- The first record boundary from index `old` on that lies at or after `lo`, by the records in LPDDR4X (R330). -/
def oldestAfter (c : Chip) (k lo : Nat) : Nat → Nat → Nat
  | 0, old => old
  | fuel + 1, old =>
    if lo ≤ old then old
    else
      let len := 8 * leNat (peekRegion c.ddr (spillBase c k) (spillSize c k) (old + 1) 1)
      if len = 0 then lo else oldestAfter c k lo fuel (old + len)

/-- Drain ring `k`: the whole entries that fit into its region leave the chip. A history ring that cannot move is
held at its pinned span (R330). After a drain to host memory WR is written back to HIF_WB + 4 × k (R441). -/
def drainRing (t : Time) (k : Nat) (c : Chip) : Chip :=
  let r := ring c k
  let n := wholeEntries c k (spillRoom c k) (ringFill c k) r.outW 0
  let c := if ringCons c k = 2 then c.wrB (F.RNG_RGk_STAT_PIN k) (decide (n = 0)) else c
  if n = 0 then c
  else
    let data := ringPeek c k r.outW n
    let r' := { r with outW := r.outW + n, stallEp := false, waitAt := t.tick }
    if ringCons c k = 2 then
      let old := oldestAfter c k (r.outW + n - spillSize c k) (n / 8 + 32) r.old
      setRing k { r' with old := old } { c with ddr := pokeRegion (spillBase c k) (spillSize c k) r.outW data c.ddr }
    else
      let wb := c.rdR R.HIF_WB_LO + 2 ^ 32 * c.rdR R.HIF_WB_HI + 4 * k
      let m := pokeRegion (spillBase c k) (spillSize c k) r.outW data c.hostMem
      let m := Tab.setMany 0 m wb (bytesLE 4 ((r.outW + n) % 2 ^ 32))
      ringNotify t k c (setRing k r' { c with hostMem := m })

/-- The spill engine drains the fullest ring (R328). -/
def spillDrain (t : Time) (c : Chip) : Chip :=
  match fullestRing t c with
  | none => c
  | some k => drainRing t k c

/-- No drain for 100 µs with entries waiting: kind 0x02 once per episode (R328). -/
def spillStall (t : Time) (k : Nat) (c : Chip) : Chip :=
  if ringOn c k && decide (2 ≤ ringCons c k) && decide (0 < ringFill c k) && !(ring c k).stallEp && ringWaits t c k then
    irq t 0x18 2 (raise t 0x11 0x02 k
      { c with rings := Tab.upd {} c.rings k fun r => { r with stallEp := true } })
  else c

/-- A read of RNG_RPDATA: the 4 bytes at RD of the selected ring, RD advancing by 4 (its oldest entry is read: log 22); 0 and
no advance with less than 4 bytes in the ring (R329). -/
def readPort (t : Time) (c : Chip) : Chip × Nat :=
  let k := c.rd F.RNG_RPSEL_RING
  if ringOn c k && ringCons c k == 1 && decide (4 ≤ ringFill c k) then
    (ringAges t k (ringTake t k 4 c), leNat (ringPeek c k (ring c k).outW 4))
  else (c, 0)

/-- A host write of RNG_RGk_RD: for CONS 0b11 it frees space; past WR it is ignored with kind 0x04 (R329). -/
def hostReadIndex (t : Time) (k v : Nat) (c : Chip) : Chip :=
  if ringCons c k = 3 then
    let w := (ring c k).outW
    if (w + 2 ^ 32 - v) % 2 ^ 32 ≤ hostUnread c k then
      ringNotify t k c (ringAges t k (c.wrR (R.RNG_RGk_RD k) v))
    else irq t 0x18 3 (raise t 0x11 0x04 k c)
  else c

/-- Once space returns, the LOST record of a ring that REC writes (R326): the count, the stamps of the last dropped
entry, and the stamp of the first. -/
def lostRecord (t : Time) (k : Nat) (c : Chip) : Chip :=
  let r := ring c k
  if r.lost ≠ 0 ∧ c.rd (F.RNG_RGk_CFG_PROD k) = 1 ∧ ringFits c k 40 ∧ recOn c then
    let c := { c with rings := Tab.set {} c.rings k { r with lost := 0 } }
    recWrite t k 0x0A 0x10 (selfAddr c) r.lostZ
      (bytesLE 1 k ++ bytesLE 3 0 ++ bytesLE 4 r.lost ++ bytesLE 6 r.lostA.stamp.toNat) c
  else c

/-! ### Checkpoints, contexts and streams -/

/-- Each 1 ms: a checkpoint holds the write index of every history ring; the last 65.6 s are kept (R330). -/
def checkpoint (t : Time) (c : Chip) : Chip :=
  if recOn c && periodOver t 400000 c.recd.cpAt then
    let ms := c.recd.ms + 1
    let ix := ((List.range 32).filter fun k => ringOn c k && ringCons c k == 2).map fun k =>
      (k, (ring c k).inW, (ring c k).drops)
    { c with recd := { c.recd with ms := ms, cpAt := some t.tick, checks := ((ms, ix) :: c.recd.checks).take 65600 } }
  else c

/-- The history index of ring `k` at checkpoint `ms` and the drops before it; 0 before the first one kept. -/
def checkAt (c : Chip) (k ms : Nat) : Nat × Nat :=
  match c.recd.checks.find? fun x => decide (x.1 ≤ ms) with
  | some x => ((x.2.find? fun y => y.1 == k).map Prod.snd).getD (0, 0)
  | none => (0, 0)
@[inherit_doc checkAt] def indexAt (c : Chip) (k ms : Nat) : Nat := (checkAt c k ms).1

/-- The context of a slot. -/
def ctx (c : Chip) (i : Nat) : Ctx := Tab.get {} c.ctxs i

/-- A context slot becomes `x`. -/
def setCtx (i : Nat) (x : Ctx) (c : Chip) : Chip := { c with ctxs := Tab.set {} c.ctxs i x }

/-- Byte 8 of a slot: STATE, BOUND, SAFE (R315). -/
def ctxStateByte (x : Ctx) : Nat := x.state + 4 * x.bound.toNat + 8 * x.safe.toNat

/-- Byte 9 of a slot: path and PCLASS (R315). -/
def ctxTypeByte (x : Ctx) : Nat := x.path + 4 * x.pclass

/-- A context is selected for CTXSTATE records (R333). -/
def ctxSelected (c : Chip) (i : Nat) : Bool := bit (c.rdR ⟨0x1704c + 4 * (i / 32), 0⟩) (i % 32)

/-- Every CTXPER × 500 µs: one CTXSTATE record of each selected context that is JOINING, ACTIVE or LINGER (R333). -/
def ctxStateRecords (t : Time) (c : Chip) : Chip :=
  if !recOn c || !periodOver t (200000 * c.rd F.REC_CTXPER_PER) c.recd.ctxAt then c else
  ({ c with recd := { c.recd with ctxAt := some t.tick } } : Chip).forAll ((List.range 256).filter fun i => ctxSelected c i && (ctx c i).state != 0) fun i c =>
    let x := ctx c i
    recWrite t (c.rd F.REC_CTL_CTXRING) 0x04 0x0F x.base t.stamps
      (bytesLE 1 i ++ bytesLE 1 (ctxStateByte x) ++ bytesLE 1 (ctxTypeByte x) ++ bytesLE 1 x.loc
        ++ bytesLE 2 x.missrun ++ bytesLE 2 x.capab ++ bytesLE 24 x.lastrep ++ bytesLE 8 0) c

/-- The 16-bit sample of a source code (R101, R332): a fast input's calibrated value, a slow input's code, a slot's
output as Q2.14; no source gives 0. -/
def sampleOf (c : Chip) (code : Nat) : Nat :=
  if code ≤ 0x0F then c.rd (F.AFE_FINn_DATA_VALUE code)
  else if 0x20 ≤ code ∧ code ≤ 0x3F then c.rd (F.AFE_SINn_DATA_VALUE (code - 0x20))
  else if 0x40 ≤ code ∧ code ≤ 0x5F then c.rd (F.AFE_SINn_DATA_VALUE (code - 0x40))
  else if 0x80 ≤ code ∧ code ≤ 0xFE then
    ofInt 16 (clampI (-32768) 32767 (divEven (slotOutput c (code - 0x80)) 1024))
  else 0

/-- The source codes of stream `m`: NCH + 1 bytes of SRC0 and SRC1 (R332). -/
def waveCodes (c : Chip) (m : Nat) : List Nat :=
  ((bytesLE 4 (c.rdR (R.REC_STm_SRC0 m)) ++ bytesLE 4 (c.rdR (R.REC_STm_SRC1 m))).map BitVec.toNat).take
    (c.rd (F.REC_STm_CFG_NCH m) + 1)

/-- The stream state. -/
def wave (c : Chip) (m : Nat) : Wave := Tab.get {} c.recd.waves m

/-- The stream state becomes `w`. -/
def setWave (m : Nat) (w : Wave) (c : Chip) : Chip :=
  { c with recd := { c.recd with waves := Tab.set {} c.recd.waves m w } }

/-- A source completed a reading `v`: every enabled stream with MEAN that names its code adds it (R332). -/
def feedWaves (code : Nat) (v : Int) (c : Chip) : Chip :=
  c.forAll ((List.range 16).filter fun m => c.flag (F.REC_STm_CFG_EN m) && c.flag (F.REC_STm_CFG_MEAN m)
      && (waveCodes c m).contains code && recOn c) fun m c =>
    let w := wave c m
    setWave m { w with acc := Tab.upd (0, 0) w.acc code fun a => (a.1 + v, a.2 + 1) } c

/-- The WAVE record of the sets taken closes, under the stream's configuration in `g` (R332). -/
def closeWave (t : Time) (m : Nat) (g c : Chip) : Chip :=
  let w := wave c m
  if w.sets = 0 then c
  else
    let c := setWave m { at_ := w.at_ } c
    recWrite t (g.rd (F.REC_STm_CFG_RING m)) 0x03 0x10 (selfAddr c) w.first
      (bytesLE 1 m ++ bytesLE 1 (g.rd (F.REC_STm_CFG_NCH m) + 1) ++ bytesLE 2 0 ++ bytesLE 2 w.sets
        ++ bytesLE 2 (g.rd (F.REC_STm_CFG_INT m)) ++ w.data.flatMap (bytesLE 2)) c

/-- Every INT × 100 ns a stream takes a sample set; with MEAN, the mean of the readings completed in the interval,
rounded half to even, or the latest reading. A record closes at floor(2,008 / (2 × NCH)) sets (R332). -/
def waveSample (t : Time) (m : Nat) (c : Chip) : Chip :=
  let step := 40 * c.rd (F.REC_STm_CFG_INT m)
  if recOn c && c.flag (F.REC_STm_CFG_EN m) && decide ((wave c m).at_ + step ≤ t.tick) then
    let w := wave c m
    let codes := waveCodes c m
    let samples := codes.map fun code =>
      let a := Tab.get (0, 0) w.acc code
      if c.flag (F.REC_STm_CFG_MEAN m) && a.2 != 0 then ofInt 16 (divEven a.1 a.2) else sampleOf c code
    let w' : Wave := ⟨w.sets + 1, w.data ++ samples, if w.sets = 0 then t.stamps else w.first, [], w.at_ + step⟩
    let c := setWave m w' c
    if 2008 / (2 * codes.length) ≤ w'.sets then closeWave t m c c else c
  else c

/-- A NOTE record of LEN + 1 units of 8 bytes from REC_NOTE0 on (R334); LEN over 3 is refused (R350). -/
def noteWrite (t : Time) (len : Nat) (c : Chip) : Chip :=
  if 3 < len then raise t 0x10 0x80 0xC4 c else
  let words := [R.REC_NOTE0, R.REC_NOTE1, R.REC_NOTE2, R.REC_NOTE3, R.REC_NOTE4, R.REC_NOTE5, R.REC_NOTE6, R.REC_NOTE7]
  recWrite t (evRing c) 0x0D 0x10 (selfAddr c) t.stamps
    ((words.take (2 * (len + 1))).flatMap fun r => bytesLE 4 (c.rdR r)) c

/-! ### Triggers and windows -/

/-- REC_SEALST.NWIN follows the windows open or waiting (R350); a ring whose pinned span is released is not held (R330). -/
def setWindows (ws : List Window) (c : Chip) : Chip :=
  let c := ({ c with recd := { c.recd with windows := ws } } : Chip).wr F.REC_SEALST_NWIN (min 8 ws.length)
  c.forAll ((List.range 32).filter fun k => c.flag (F.RNG_RGk_STAT_PIN k) && (pinnedFrom c k).isNone) fun k c =>
    c.wrB (F.RNG_RGk_STAT_PIN k) false

/-- The checkpoint at or after the firing tick plus POST (R337). -/
def windowEnd (c : Chip) (j : Nat) : Nat :=
  if c.rd (F.REC_TGj_CFG_KIND j) = 6 then c.recd.ms else c.recd.ms + 1 + c.rd (F.REC_TGj_WIN_POST j)

/-- A firing of entry `j` (R336–R338): a TRIGGER record; an open window of the entry is extended, else a window opens
over its rings, unless eight are open or waiting. -/
def fireEntry (t : Time) (j fault addr : Nat) (c : Chip) : Chip :=
  if !recOn c then c
  else
    let rd := c.recd
    let isOpen := fun (w : Window) => w.entry == j && decide (rd.ms < w.toMs)
    let tag := match rd.windows.find? isOpen with
      | some w => w.tag
      | none => rd.nextTag
    let c := irq t 0x17 0 (recWrite t (evRing c) 0x0B 0x10 (selfAddr c) t.stamps
      (bytesLE 1 j ++ bytesLE 1 (c.rd (F.REC_TGj_CFG_KIND j)) ++ bytesLE 2 0 ++ bytesLE 4 tag) c)
    if rd.windows.any isOpen then
      setWindows (c.recd.windows.map fun w =>
        if isOpen w then { w with toMs := windowEnd c j, merged := true } else w) c
    else if 8 ≤ rd.windows.length then
      irq t 0x17 2 (raise t 0x10 0x04 j c)
    else
      let pre := c.rd (F.REC_TGj_WIN_PRE j)
      let rings := c.rdR (R.REC_TGj_RINGS j)
      let from_ := rd.ms - pre
      let w : Window :=
        { entry := j, tag := rd.nextTag, rings := rings, fromMs := from_, toMs := windowEnd c j
          spans := (bitsOf 32 rings).map fun k => (k, max (indexAt c k from_) (ring c k).old, 0)
          short := decide (rd.ms < pre) || (bitsOf 32 rings).any fun k => decide (indexAt c k from_ < (ring c k).old)
          lastGasp := rd.lastGasp && c.rd (F.REC_TGj_CFG_KIND j) == 6, at_ := t.stamps
          fault := fault, faultAddr := addr }
      setWindows (c.recd.windows ++ [w]) { c with recd := { c.recd with nextTag := (rd.nextTag + 1) % 2 ^ 32 } }

/-- A host write of REC_HTRIG fires the named entries that are on, whatever their KIND, in ascending order (R336). -/
def hostTrigger (v : Nat) (c : Chip) : Chip :=
  if recOn c then fireAll ((bitsOf 8 v).filter fun j => c.flag (F.REC_TGj_CFG_EN j)) 0 0 c else c

/-- A window's end checkpoint has passed and its rings have drained past it: it is ready (R339). Records lost in it are told
once for each ring (R348). -/
def windowReady (t : Time) (tag : Nat) (c : Chip) : Chip :=
  match c.recd.windows.find? fun w => w.tag == tag && !w.ready && decide (w.toMs ≤ c.recd.ms)
      && (bitsOf 32 w.rings).all fun k => decide (indexAt c k w.toMs ≤ (ring c k).outW) with
  | none => c
  | some w =>
    let lost : Tab Nat := ((bitsOf 32 w.rings).map fun k => (k, (checkAt c k w.toMs).2 - (checkAt c k w.fromMs).2)).filter (·.2 != 0)
    let w' := { w with
      ready := true, lost := lost, spans := w.spans.map fun x => (x.1, x.2.1, max x.2.1 (indexAt c x.1 w.toMs)) }
    let c := setWindows (c.recd.windows.map fun x => if x.tag = tag then w' else x) c
    c.forAll (lost.map Prod.fst) fun k c => irq t 0x17 2 (raise t 0x10 0x01 k c)

/-- The histories are gone (R330): what is kept of each ring, and of each window's span, starts at the present index. -/
def historyLost (c : Chip) : Chip :=
  let hist := (List.range 32).filter fun k => ringCons c k == 2
  let c := c.forAll hist fun k c => { c with rings := Tab.upd {} c.rings k fun r => { r with old := r.outW } }
  let now := fun (x : Nat × Nat × Nat) => (x.1, max x.2.1 (ring c x.1).old, max x.2.2 (max x.2.1 (ring c x.1).old))
  { c with recd := { c.recd with windows := c.recd.windows.map fun w => { w with
      short := w.short || w.spans.any fun x => decide (x.2.1 < (ring c x.1).old), spans := w.spans.map now } } }

/-! ### Sealing -/

/-- Bytes of a flash page (R350). -/
def flashPage (c : Chip) : Nat := match c.rd F.REC_FCFG_PAGE with | 0 => 256 | 1 => 2048 | _ => 4096

/-- Bytes of an erase block (R350). -/
def flashBlock (c : Chip) : Nat := match c.rd F.REC_FCFG_EBLK with | 0 => 4096 | 1 => 65536 | 2 => 131072 | _ => 262144

/-- Whole records in the bytes of a section. -/
def countRecords : Nat → List Byte → Nat
  | 0, _ => 0
  | fuel + 1, l =>
    match l with
    | _ :: n :: _ => if n = 0 then 0 else 1 + countRecords fuel (l.drop (8 * n.toNat))
    | _ => 0

/-- The section of ring `k` in a window: its 16-byte header and the ring's records, unchanged (R341). -/
def sealSection (c : Chip) (w : Window) (x : Nat × Nat × Nat) : List Byte :=
  let body := peekRegion c.ddr (spillBase c x.1) (spillSize c x.1) x.2.1 (x.2.2 - x.2.1)
  bytesLE 1 x.1 ++ bytesLE 3 0 ++ bytesLE 4 (countRecords body.length body) ++ bytesLE 4 (16 + body.length)
    ++ bytesLE 4 (Tab.get 0 w.lost x.1) ++ body

/-- The FLAGS of a window header (R341). -/
def windowFlags (c : Chip) (w : Window) : Nat :=
  w.trunc.toNat + 2 * w.lastGasp.toNat + 4 * w.merged.toNat + 8 * (!w.lost.isEmpty).toNat + 16 * w.short.toNat
    + 32 * c.recd.gapPrev.toNat + 64 * (!c.flag F.ANG_STAT_NSDISC).toNat + 128 * (isStandby c).toNat
    + 256 * c.rd F.PAR_STAT_POS

/-- The chain value of the last complete window, REC_CHAIN0–REC_CHAIN7 (R342, R343). -/
def chainBytes (c : Chip) : List Byte :=
  (List.range 8).flatMap fun i => bytesLE 4 (c.rdR ⟨0x17084 + 4 * i, 0⟩)

/-- REC_CHAIN0–REC_CHAIN7 become a chain value. -/
def setChain (h : List Byte) (c : Chip) : Chip :=
  c.forAll (List.range 8) fun i c => c.wrR ⟨0x17084 + 4 * i, 0⟩ (leNat ((h.drop (4 * i)).take 4))

/-- The 128-byte header of a window (R341). -/
def windowHeader (c : Chip) (w : Window) (wseq nsec bodyLen : Nat) : List Byte :=
  bytesLE 4 0x5752474F ++ bytesLE 2 1 ++ bytesLE 2 128 ++ bytesLE 4 wseq ++ bytesLE 4 (windowFlags c w)
    ++ bytesLE 4 (c.rdR R.CAP_ID_LO) ++ bytesLE 4 (c.rdR R.CAP_ID_HI) ++ bytesLE 4 (selfAddr c)
    ++ bytesLE 1 w.entry ++ bytesLE 1 nsec ++ bytesLE 2 0 ++ bytesLE 6 w.at_.stamp.toNat ++ bytesLE 2 0
    ++ bytesLE 8 w.at_.ns.toNat ++ bytesLE 8 bodyLen
    ++ bytesLE 2 w.fault ++ bytesLE 2 0 ++ bytesLE 4 w.faultAddr
    ++ chainBytes c ++ bytesLE 4 (c.rdR R.UPD_SUPVER) ++ bytesLE 4 (c.rdR R.UPD_CEVER) ++ bytesLE 24 0

/-- A window's bytes from its header and body, its trailer after them, padded with 0xFF to a page; and its chain value (R341,
R342). -/
def windowBytes (c : Chip) (head body : List Byte) (wseq : Nat) : List Byte × List Byte :=
  let h := sha256 (head ++ body)
  let all := head ++ body ++ bytesLE 4 0x444E4557 ++ bytesLE 4 wseq ++ bytesLE 8 body.length ++ h ++ bytesLE 16 0
  let page := flashPage c
  (all ++ List.replicate ((page - all.length % page) % page) 0xFF, h)

/-- The bytes of a window to be sealed, and its chain value. -/
def windowImage (c : Chip) (w : Window) (wseq : Nat) : List Byte × List Byte :=
  let body := w.spans.flatMap (sealSection c w)
  windowBytes c (windowHeader c w wseq w.spans.length body.length) body wseq

/-- The body bytes of a window image, by its header. -/
def bodyLen (img : List Byte) : Nat := leNat ((img.drop 48).take 8)

/-- The first record boundary of a body at or after byte `n`, from a boundary at `pos` on; `sect` bytes of the present section
are left there. -/
def recordCut (n : Nat) : Nat → Nat → Nat → List Byte → Nat
  | 0, pos, _, _ => pos
  | fuel + 1, pos, sect, l =>
    if n ≤ pos ∨ l.isEmpty then pos
    else if sect = 0 then
      recordCut n fuel (pos + 16) (leNat ((l.drop 8).take 4) - 16) (l.drop 16)
    else
      let len := max 8 (8 * leNat ((l.drop 1).take 1))
      recordCut n fuel (pos + len) (sect - len) (l.drop len)

/-- The next window to seal: the last-gasp window first, then ready ones in order of end checkpoint, and in ascending
entry number (R339, R344). -/
def nextReady (c : Chip) : Option Window :=
  let before := fun (a b : Window) =>
    if a.lastGasp != b.lastGasp then a.lastGasp
    else decide (a.toMs < b.toMs) || (a.toMs == b.toMs && decide (a.entry < b.entry))
  (c.recd.windows.filter Window.ready).foldl (fun best w => match best with
    | none => some w
    | some b => if before w b then some w else some b) none

/-- REC_SEALST.STATE (R350): 0 SCAN, 1 IDLE, 2 SEALING, 3 LASTGASP, 4 ERASING. -/
def setSealState (n : Nat) (c : Chip) : Chip := c.wr F.REC_SEALST_STATE n

/-- The state the sealer rests in: LASTGASP once entered, SEALING with a window in hand, else IDLE. -/
def sealRest (c : Chip) : Nat := if c.recd.lastGasp then 3 else if c.recd.sealing.isSome then 2 else 1

/-- Whether the last-gasp allowance still admits a window of `n` body bytes: MAXB body bytes in all over at most LGWIN
windows, in erased space (R344). -/
def lgAllows (c : Chip) (n : Nat) : Bool :=
  !c.recd.lastGasp || (decide (c.recd.lgBytes + n ≤ c.rd F.REC_SEAL_MAXB * 65536)
    && decide (c.recd.lgWin < c.rd F.REC_SEAL_LGWIN))

/-- The sealer takes the next ready window and gives it its WSEQ (R339). With WRAP 0 and no room in the area the seal is
refused with kind 0x20 (R340); after the warning it keeps to the allowance, in erased space only (R344). -/
def sealStart (t : Time) (c : Chip) : Chip :=
  if c.rd F.REC_SEALST_STATE = 1 ∨ (c.rd F.REC_SEALST_STATE = 3 ∧ c.recd.sealing = none) then
    match nextReady c with
    | none => c
    | some w =>
      let wseq := c.rdR R.REC_WSEQ
      let (img, h) := windowImage c w wseq
      let rest := c.recd.windows.filter fun x => x.tag != w.tag
      let full := !c.flag F.REC_FCFG_WRAP && decide (c.rdR R.REC_FSIZE < c.recd.used + img.length)
      if full then irq t 0x17 4 (raise t 0x10 0x20 wseq (setWindows rest c))
      else if !lgAllows c (bodyLen img) || (c.recd.lastGasp && decide (c.recd.erased < img.length)) then c
      else
        let rd := { c.recd with sealing := some w, done := [], image := img, chain := h.map BitVec.toNat, opAt := t.tick
                                lgBytes := c.recd.lgBytes + (if c.recd.lastGasp then bodyLen img else 0)
                                lgWin := c.recd.lgWin + c.recd.lastGasp.toNat }
        let c := setWindows rest { c with recd := rd }
        setSealState (if c.recd.lastGasp then 3 else 2) (c.wrR R.REC_WSEQ (wseq + 1))
  else c

/-- The window is complete: its chain value is the last one, its span is released (R341, R342). -/
def sealComplete (t : Time) (c : Chip) : Chip :=
  let trunc := (c.recd.sealing.map Window.trunc).getD false
  let wseq := c.rdR R.REC_WSEQ - 1
  let c := setChain (c.recd.chain.map (BitVec.ofNat 8)) c
  let c := setWindows c.recd.windows { c with recd := { c.recd with sealing := none, done := [], gapPrev := false } }
  let c := irq t 0x17 1 (setSealState (sealRest c) c)
  if trunc then irq t 0x17 3 (raise t 0x10 0x08 wseq c) else c

/-- A page program completes within TOUT: the page lies in the flash, and sealing continues or completes (R340, R342). Erased space
alone is programmed. -/
def pageProgrammed (t : Time) (nv : Nv) (c : Chip) : Nv × Chip :=
  if c.recd.sealing.isSome && !c.recd.erasing && decide (flashPage c ≤ c.recd.erased) then
    let page := flashPage c
    let size := max 1 (c.rdR R.REC_FSIZE)
    let nv := { nv with flash := Tab.setMany 0xFF nv.flash (c.rdR R.REC_FBASE + c.recd.wpoint % size) (c.recd.image.take page) }
    let rd := { c.recd with done := c.recd.done ++ c.recd.image.take page, image := c.recd.image.drop page, wpoint := (c.recd.wpoint + page) % size, opAt := t.tick
                            erased := c.recd.erased - page, used := min size (c.recd.used + page) }
    let c := { c with recd := rd }
    (nv, if rd.image.isEmpty then sealComplete t c else c)
  else (nv, c)

/-- Erase bytes of the flash: they read 0xFF. -/
def flashErase (lo hi : Nat) (nv : Nv) : Nv := { nv with flash := Tab.eraseRange nv.flash lo hi }

/-- When idle, REC starts an erase ahead while fewer than RESV bytes are erased, and while it seals, when no erased page is
left; with WRAP 0 only in space not yet used (R340). -/
def reserveErase (t : Time) (c : Chip) : Chip :=
  if recOn c ∧ (c.rd F.REC_SEALST_STATE = 1 ∧ c.recd.erased < c.rd F.REC_SEAL_RESV * 65536
        ∨ c.rd F.REC_SEALST_STATE = 2 ∧ c.recd.erased < flashPage c)
      ∧ (c.flag F.REC_FCFG_WRAP ∨ c.recd.used + c.recd.erased + flashBlock c ≤ c.rdR R.REC_FSIZE) then
    setSealState 4 { c with recd := { c.recd with erasing := true, opAt := t.tick } }
  else c

/-- A block erase completes within TOUT: the block ahead of the erased space is erased, or the whole area after a format
(R340, R350). -/
def eraseDone (t : Time) (nv : Nv) (c : Chip) : Nv × Chip :=
  let base := c.rdR R.REC_FBASE
  let size := max 1 (c.rdR R.REC_FSIZE)
  if c.recd.formatting then
    (flashErase base (base + size) nv,
     setSealState 1 { c with recd := { c.recd with formatting := false, erased := size, wpoint := 0, used := 0 } })
  else if c.recd.erasing then
    let n := flashBlock c
    let at_ := (c.recd.wpoint + c.recd.erased) % size
    (flashErase (base + at_) (base + at_ + n) nv,
     setSealState (sealRest c)
      { c with recd := { c.recd with
        erasing := false, opAt := t.tick, erased := c.recd.erased + n, used := min c.recd.used (size - (c.recd.erased + n)) } })
  else (nv, c)

/-- A program or erase fails or exceeds TOUT: kind 0x10; a window being sealed ends at its last good page, incomplete
(R340, R345, R342). -/
def flashTimeout (t : Time) (c : Chip) : Chip :=
  if c.recd.sealing.isSome ∨ c.recd.erasing ∨ c.recd.formatting then
    let off := c.rdR R.REC_FBASE + c.recd.wpoint
    let broken := c.recd.sealing.isSome
    let rd := { c.recd with sealing := none, done := [], image := [], erasing := false, formatting := false
                            gapPrev := c.recd.gapPrev || broken }
    let c := setWindows rd.windows { c with recd := rd }
    let c := irq t 0x17 4 (raise t 0x10 0x10 off (setSealState (sealRest c) c))
    if broken then irq t 0x17 3 c else c
  else c

/-- A program or erase has lasted longer than TOUT: its end is no completion any more (R340). -/
def opLate (t : Time) (c : Chip) : Bool := decide (c.recd.opAt + 40000 * c.rd F.REC_FCFG_TOUT < t.tick)

/-- A program or an erase ends, in its time or as a failure (R340). -/
def programEnds (t : Time) (nv : Nv) (c : Chip) : Nv × Chip :=
  if opLate t c then (nv, flashTimeout t c) else pageProgrammed t nv c
@[inherit_doc programEnds] def eraseEnds (t : Time) (nv : Nv) (c : Chip) : Nv × Chip :=
  if opLate t c then (nv, flashTimeout t c) else eraseDone t nv c

/-- `n` bytes of the area from an offset on, past its end from its start. -/
def areaBytes (nv : Nv) (c : Chip) (o n : Nat) : List Byte :=
  let size := max 1 (c.rdR R.REC_FSIZE)
  (List.range n).map fun i => Tab.get 0xFF nv.flash (c.rdR R.REC_FBASE + (o + i) % size)

/-- A window whose header stands at an offset of the area: its WSEQ, its bytes with the padding, and its chain value when it is
complete (R341–R343). A truncated window's trailer stands before the end that its header tells (R344). -/
def windowAt (nv : Nv) (c : Chip) (o : Nat) : Option (Nat × Nat × Option (List Byte)) :=
  let h := areaBytes nv c o 128
  let page := flashPage c
  if leNat (h.take 4) = 0x5752474F ∧ leNat ((h.drop 4).take 2) = 1 ∧ leNat ((h.drop 6).take 2) = 128 then
    let wseq := leNat ((h.drop 8).take 4)
    let body := min (bodyLen h) (c.rdR R.REC_FSIZE)
    let ends := fun n =>
      let x := areaBytes nv c (o + 128 + n) 16
      leNat (x.take 4) == 0x444E4557 && leNat ((x.drop 4).take 4) == wseq && leNat (x.drop 8) == n
    match (body :: (List.range (body / 8)).map (8 * ·)).find? ends with
    | some n => some (wseq, (192 + n + page - 1) / page * page, some (areaBytes nv c (o + 128 + n + 16) 32))
    | none => some (wseq, page, none)
  else none

/-- The windows of the area from offset `o` on, page by page where no header stands: offset, WSEQ, bytes, chain value. -/
def windowsFrom (nv : Nv) (c : Chip) : Nat → Nat → List (Nat × Nat × Nat × Option (List Byte))
  | 0, _ => []
  | fuel + 1, o =>
    if c.rdR R.REC_FSIZE ≤ o then []
    else match windowAt nv c o with
      | some (wseq, n, h) => (o, wseq, n, h) :: windowsFrom nv c fuel (o + n)
      | none => windowsFrom nv c fuel (o + flashPage c)

/-- Erased bytes of the area from an offset on. -/
def erasedFrom (nv : Nv) (c : Chip) (o : Nat) : Nat :=
  let base := c.rdR R.REC_FBASE
  let size := c.rdR R.REC_FSIZE
  let used := (nv.flash.filter fun e => decide (base ≤ e.1) && decide (e.1 < base + size)).map fun e => e.1 - base
  match used.find? fun k => decide (o ≤ k) with
  | some k => k - o
  | none => match used with | k :: _ => size - o + k | [] => size

/-- AREA_SCAN (R343): the last complete window's chain value and the next WSEQ, the write point behind the last window, and
whether an incomplete window follows the last complete one. -/
def areaScan (t : Time) (nv : Nv) (c : Chip) : Chip :=
  if recOn c ∧ c.rd F.REC_SEALST_STATE = 0 then
    let l := windowsFrom nv c (c.rdR R.REC_FSIZE / flashPage c + 1) 0
    let last := l.foldl (fun (m : Option (Nat × Nat × Nat × Option (List Byte))) x =>
      if x.2.2.2.isSome && decide (((m.map fun y => y.2.1 + 1).getD 0) ≤ x.2.1) then some x else m) none
    let next := (last.map fun x => x.2.1 + 1).getD 0
    let broken := l.find? fun x => x.2.2.2.isNone && decide (next ≤ x.2.1)
    let size := max 1 (c.rdR R.REC_FSIZE)
    let wpoint := match broken, last with
      | some x, _ => (x.1 + x.2.2.1) % size
      | none, some x => (x.1 + x.2.2.1) % size
      | none, none => 0
    let c := match last with
      | some (_, wseq, _, some h) => (setChain h c).wrR R.REC_WSEQ (wseq + 1)
      | _ => c
    let erased := erasedFrom nv c wpoint
    let c := setSealState 1 { c with recd := { c.recd with
      gapPrev := broken.isSome, wpoint := wpoint, used := size - erased, erased := erased } }
    match broken with
    | some x => raise t 0x10 0x40 x.1 c
    | none => c
  else c

/-- A write of REC_FOP.FORMAT: WSEQ and PREV return to 0 and the area is erased; refused with kind 0x80 while a window is
sealing or ready (R346, R350). -/
def areaFormat (t : Time) (c : Chip) : Chip :=
  if c.recd.sealing.isSome ∨ c.recd.windows.any Window.ready then
    raise t 0x10 0x80 0xA4 c
  else
    setSealState 4 (setChain [] (c.wrR R.REC_WSEQ 0) |> fun c =>
      { c with recd := { c.recd with formatting := true, erasing := false, opAt := t.tick, gapPrev := false } })

/-- A read of REC_FRD: 4 bytes of the area at REC_FADDR, which advances by 4 (R343, R350). -/
def flashRead (nv : Nv) (c : Chip) : Chip × Nat :=
  let a := c.rdR R.REC_FADDR
  (c.wrR R.REC_FADDR (a + 4), leNat (Tab.getMany 0xFF nv.flash (c.rdR R.REC_FBASE + a) 4))

/-- Body bytes that the last-gasp window may take: what MAXB leaves, in erased space (R344). -/
def lgRoom (c : Chip) : Nat :=
  min (c.rd F.REC_SEAL_MAXB * 65536 - c.recd.lgBytes) (c.recd.erased - (192 + flashPage c))

/-- The start of the last-gasp window moves later by whole checkpoints until it fits (R344). -/
def lgFit (c : Chip) : Nat → Window → Window
  | 0, w => w
  | fuel + 1, w =>
    let n := (w.spans.map fun x => 16 + (indexAt c x.1 w.toMs - x.2.1)).foldl (· + ·) 0
    if n ≤ lgRoom c ∨ w.toMs ≤ w.fromMs then w
    else lgFit c fuel { w with fromMs := w.fromMs + 1, trunc := true
                               spans := w.spans.map fun x => (x.1, max x.2.1 (indexAt c x.1 (w.fromMs + 1)), x.2.2) }

/-- A window being sealed stops at its last complete record: the one that lies wholly in programmed pages, or that they end
in. Its trailer follows with the body bytes written; a header not yet programmed carries TRUNC (R341, R344). -/
def truncate (c : Chip) (w : Window) : Chip :=
  let all := c.recd.done ++ c.recd.image
  let body := (all.drop 128).take (bodyLen all)
  let cut := min body.length (recordCut (c.recd.done.length - 128) body.length 0 0 body)
  let wseq := leNat ((all.drop 8).take 4)
  let head :=
    if c.recd.done.isEmpty then
      all.take 12 ++ bytesLE 4 (leNat ((all.drop 12).take 4) ||| 1) ++ (all.drop 16).take 32 ++ bytesLE 8 cut ++ (all.drop 56).take 72
    else all.take 128
  let (img, h) := windowBytes c head (body.take cut) wseq
  { c with recd := { c.recd with sealing := some { w with trunc := true }, image := img.drop c.recd.done.length
                                 chain := h.map BitVec.toNat, lgBytes := cut - (c.recd.done.length - 128) } }

/-- The last gasp of R344, steps 2 to 5: every open window ends at the present checkpoint, a window being sealed is
truncated at its last complete record, the entry of KIND 0b110 fires, and sealing goes on within the allowance. -/
def lastGasp (t : Time) (c : Chip) : Chip :=
  if recOn c && c.flag F.REC_CTL_LGEN && !c.recd.lastGasp then
    let c := setWindows (c.recd.windows.map fun w => if c.recd.ms < w.toMs then { w with toMs := c.recd.ms } else w) c
    let c := match c.recd.sealing with | some w => truncate c w | none => c
    let c := irq t 0x17 5 (setSealState 3 { c with recd := { c.recd with lastGasp := true } })
    let c := c.forAll (trigEntries c 6 fun _ => true) fun j c => fireEntry t j 0 0 c
    setWindows (c.recd.windows.map fun w => if w.lastGasp then lgFit c 65536 w else w) c
  else c

/-- A SWITCH record (R347). -/
def recSwitch (t : Time) (pos cause : Nat) (c : Chip) : Chip :=
  recWrite t (evRing c) 0x0C 0x12 (selfAddr c) t.stamps (bytesLE 1 pos ++ bytesLE 1 cause ++ bytesLE 6 0) c

/-- RNG_FREE.GRAN: granules in no enabled ring (R349). -/
def ringFree (c : Chip) : Chip :=
  c.wr F.RNG_FREE_GRAN (1024 - ((((List.range 32).filter fun k => c.flag (F.RNG_RGk_CFG_EN k)).map fun k =>
    c.rd (F.RNG_RGk_SEG_SIZE k)).foldl (· + ·) 0))

/-! ### Commits (R323, R335) -/

/-- The rate of stream `m` in units of 0.1 Mbit/s, rounded up: LEN × 64 / (NSET × INT × 100 ns) (R332). -/
def waveRate (c : Chip) (m : Nat) : Nat :=
  let nch := c.rd (F.REC_STm_CFG_NCH m) + 1
  let nset := 2008 / (2 * nch)
  let len := 4 + divUp (2 * nch * nset) 8
  divUp (len * 64 * 100) (nset * max 1 (c.rd (F.REC_STm_CFG_INT m)))

/-- The committed sustained load in 10 Mbit/s, rounded up (R335): the streams, the contexts, and 50 Mbit/s. -/
def recLoad (c : Chip) : Nat :=
  let streams := (((List.range 16).filter fun m => c.flag (F.REC_STm_CFG_EN m)).map fun m =>
    let nch := c.rd (F.REC_STm_CFG_NCH m) + 1
    let nset := 2008 / (2 * nch)
    (4 + divUp (2 * nch * nset) 8) * 64 * 10000000 / (nset * max 1 (c.rd (F.REC_STm_CFG_INT m)))).foldl (· + ·) 0
  let n := ((List.range 256).filter (ctxSelected c)).length
  divUp (streams + n * 512 * 2000 / max 1 (c.rd F.REC_CTXPER_PER) + 50000000) 10000000

/-- REC_LOAD and REC_STm_STAT.RATE follow the committed configuration (R335, R350). -/
def setRecLoad (c : Chip) : Chip :=
  let n := recLoad c
  let c := (c.wr F.REC_LOAD_LOAD (min 65535 n)).wrB F.REC_LOAD_OVER (decide (320 < n))
  c.forAll (List.range 16) fun m c =>
    c.wr (F.REC_STm_STAT_RATE m) (if c.flag (F.REC_STm_CFG_EN m) then min 65535 (waveRate c m) else 0)

/-- What an applied REC commit does beside its registers: a stream that is disabled, or set otherwise, closes its record with
the sets taken (R332, R346). -/
def recCommitted (t : Time) (was c : Chip) : Chip :=
  let cfg := fun (x : Chip) m => [x.rdR (R.REC_STm_CFG m), x.rdR (R.REC_STm_SRC0 m), x.rdR (R.REC_STm_SRC1 m)]
  setRecLoad (c.forAll ((List.range 16).filter fun m => cfg was m != cfg c m || !recOn c) fun m c =>
    setWave m { at_ := t.tick } (closeWave t m was c))

/-- Two enabled rings overlap, or one runs past granule 1,023: the offset of the ring's SEG register (R323). -/
def judgeRingLayout (c : Chip) : Option Nat :=
  let on := (List.range 32).filter fun k => c.flag (F.RNG_RGk_CFG_EN k)
  let lo := fun k => c.rd (F.RNG_RGk_SEG_BASE k)
  let hi := fun k => c.rd (F.RNG_RGk_SEG_BASE k) + c.rd (F.RNG_RGk_SEG_SIZE k)
  (on.find? fun k => decide (1024 < hi k) || on.any fun j => decide (j < k) && decide (lo k < hi j) && decide (lo j < hi k)).map
    fun k => 0x104 + 0x20 * k

/-- An RNG commit from `was` to `c`: the refusals of R323. -/
def judgeRng (was c : Chip) : Option Nat :=
  match judgeRingLayout c with
  | some o => some o
  | none =>
    ((List.range 32).find? fun k => was.flag (F.RNG_RGk_CFG_EN k) && was.rd (F.RNG_RGk_CFG_CONS k) != c.rd (F.RNG_RGk_CFG_CONS k)).map
      (fun k => 0x100 + 0x20 * k) |>.or
    (((List.range 32).find? fun k => was.flag (F.RNG_RGk_CFG_EN k) && was.rdR (R.RNG_RGk_SEG k) != c.rdR (R.RNG_RGk_SEG k)).map
      fun k => 0x104 + 0x20 * k)

end Sys2Proof.Machine
end

