-- ==== Sys2Proof/Machine/Ang.lean ====
section
/-! DEFINITION. ANG: the phase-locked loop, lock and loss, holdover, reacquisition, planned holdover, the schedule
banks, and the nanosecond time (R37–R57, R512, R513). -/

namespace Sys2Proof.Machine

/-- Frequency in mHz to phase increment: round(f × 2.5 ns × 2^48) (R39). -/
def incOf (mHz : Nat) : Nat := divNear (mHz * 25 * 2 ^ 48) (10 ^ 13)

/-- Phase increment to frequency in mHz. -/
def mHzOf (inc : Nat) : Nat := divNear (inc * 10 ^ 13) (25 * 2 ^ 48)

/-- ANG states (R44). -/
def angVIRT : Nat := 0
@[inherit_doc angVIRT] def angACQ : Nat := 1
@[inherit_doc angVIRT] def angLOCK : Nat := 2
@[inherit_doc angVIRT] def angHOLD : Nat := 3
@[inherit_doc angVIRT] def angFREE : Nat := 4

/-- The ANG state, ANG_STAT.STATE (R44). -/
def angState (c : Chip) : Nat := c.rd F.ANG_STAT_STATE

/-- ANG enters a state: STATE and LOCKED; DRIFT reads 0 in LOCK, ACQ and VIRT and 0xFFFF in FREE (R46). -/
def setAng (n : Nat) (c : Chip) : Chip :=
  let c := (c.wr F.ANG_STAT_STATE n).wrB F.ANG_STAT_LOCKED (n == angLOCK)
  if n = angHOLD then c else if n = angFREE then c.wr F.ANG_DRIFT_DRIFT 0xFFFF else c.wrR R.ANG_DRIFT 0

/-- The hidden state of ANG changes by `f`. -/
def modAng (f : Ang → Ang) (c : Chip) : Chip := { c with ang := f c.ang }

/-- The oscillator runs on at increment `inc`, phase-continuous; BINLEN follows (R39, R57). -/
def setInc (inc : Nat) (steer : Steer) (c : Chip) : Chip :=
  (modAng (fun a => { a with inc := inc, steer := steer }) c).wr F.ANG_BINLEN_DIV (divNear (2 ^ 36) (max 1 inc))

/-- The increment the tick applies: with HOLDCOR and a disciplined time, in VIRT, HOLD and FREE, the rate correction of
R53 applies too (R48). The corrected increment is rounded down; the manual states no rounding (log 27). -/
def effInc (c : Chip) : Nat :=
  if c.flag F.ANG_CTL_HOLDCOR && c.flag F.ANG_STAT_NSDISC && [angVIRT, angHOLD, angFREE].contains (angState c) then
    ((c.ang.inc : Int) * (65536000000 + c.rdI F.ANG_NSADJ_ADJ) / 65536000000).toNat
  else c.ang.inc

/-- ANG_BINLEN as it is read: the length of a bin at the present increment (R57). -/
def showBin (c : Chip) : Chip := c.wr F.ANG_BINLEN_DIV (divNear (2 ^ 36) (max 1 (effInc c)))

/-- Band limits as increments (R41). -/
def bandInc (c : Chip) : Nat × Nat :=
  if c.flag F.ANG_CTL_BAND then (incOf 380000, incOf 420000) else (incOf 14000, incOf 72000)

/-- A phase difference in bins lies below, or above, a threshold in tenths of a degree (R42, R47). -/
def phaseBelow (phi : Int) (tenths : Nat) : Bool := decide (phi.natAbs * 3600 < tenths * 65536)
@[inherit_doc phaseBelow] def phaseAbove (phi : Int) (tenths : Nat) : Bool := decide (tenths * 65536 < phi.natAbs * 3600)

/-- The held frequency and twice its spread over the window of per-cycle frequencies (R45). -/
def heldFreq (c : Chip) : Nat × Nat :=
  let w := c.ang.cycles.take (max 1 (c.rd F.ANG_HOLD_AVGCYC))
  match w with
  | [] => (c.ang.inc, 0)
  | x :: l => (divNear (w.foldl (· + ·) 0) w.length, l.foldl max x - l.foldl min x)

/-- Freeze fh and Δf (R45). -/
def freezeHeld (c : Chip) : Chip :=
  let (fh, df) := heldFreq c
  modAng (fun a => { a with fh := fh, df := df }) c

/-- The supply is below level on this sample (R42). -/
def isBelow (c : Chip) (mag : Nat) : Bool := decide (mag * 100 < c.rd F.ANG_LOSS_LEVEL * c.rd F.ANG_VNOM_VNOM)

/-- ANG reads its three inputs: in every state with MODE 0b00 or 0b10 (R39). -/
def angUsesSin (c : Chip) : Bool := c.blockOn 0x0A && [0, 2].contains (c.rd F.ANG_CTL_MODE)

/-- A free value has been read: the model's counter advances. -/
def tickFree (c : Chip) : Chip := { c with free := c.free + 1 }

/-- The first sample below level: in LOCK the oscillator runs on at fh, in ACQ at the estimate of the last sample at or
above level; the integral term holds still while samples are below level (R43). -/
def integratorFreeze (c : Chip) : Chip :=
  if angState c = angLOCK then
    let c := freezeHeld c
    setInc c.ang.fh c.ang.steer c
  else if angState c = angACQ ∧ c.ang.present then setInc c.ang.fLast c.ang.steer c
  else c

/-- ζ of the DAMP code, in thousandths (R40). -/
def damping (n : Nat) : Int := if n = 0 then 707 else if n = 1 then 1000 else 500

/-- fnom + Kp·e in 10^−20 · 2^−30 Hz, with Kp = 2ζ·fn and fn = BW × 0.5 Hz (R39, R40). -/
def pllBase (c : Chip) (e : Int) : Int :=
  (c.rd F.ANG_FNOM_FNOM * 2 ^ 30 + damping (c.rd F.ANG_PLL_DAMP) * c.rd F.ANG_PLL_BW * e) * 10 ^ 17

/-- Ki in 10^−20 Hz: 2π·fn²·20 µs, with π to 15 places (R39, R40). -/
def pllKi (c : Chip) : Int := 3141592653589793 * (c.rd F.ANG_PLL_BW) ^ 2

/-- The frequency estimate fnom + Kp·e + Ki·Σe as a phase increment (R39, steps 4 and 6). -/
def pllEstimate (c : Chip) (e sum : Int) : Nat :=
  divNear ((pllBase c e + pllKi c * sum).toNat * 25 * 2 ^ 18) (10 ^ 30)

/-- The integral term with which the estimate is increment `inc` at phase error `e` (R47). -/
def pllSeed (c : Chip) (e : Int) (inc : Nat) : Int :=
  ((inc : Int) * 10 ^ 30 / (25 * 2 ^ 18) - pllBase c e) / pllKi c

/-- |φ| lies below LOCKERR in a slew: ANG seeds the integral with the frequency in force and the filter runs on (R47). -/
def slewEnd (c : Chip) : Chip :=
  if c.ang.steer = .slew ∧ phaseBelow c.ang.phi (c.rd F.ANG_PLL_LOCKERR) then
    modAng (fun a => { a with steer := .pll, sumE := pllSeed c a.err a.inc }) c
  else c

/-- f̂ lies at a limit of the band, where step 5 of R39 holds it (R41, R42). -/
def atBandLimit (c : Chip) : Bool := decide (c.ang.fLast ≤ (bandInc c).1) || decide ((bandInc c).2 ≤ c.ang.fLast)

/-- A difference of two angles in 2^−48 turn, wrapped to (−180°, +180°]. -/
def wrapTurn (x : Int) : Int := let y := x % 2 ^ 48; if 2 ^ 47 < y then y - 2 ^ 48 else y

/-- A phase difference in bins (R47): the nearest, half to even, and +180° for −180° (log 27). -/
def phaseBins (d : Int) : Int := let b := divEven d (2 ^ 32); if b ≤ -32768 then 32768 else b

/-- The sine of a phase difference in 2^−48 turn as the phase error e, in 2^−30 (R39, step 3). -/
def phaseError (fine d : Int) : Int :=
  clampI (-(2 ^ 30)) (2 ^ 30) (64 * sineNear (d / 2 ^ 24 % 2 ^ 24).toNat + clampI (-64) 64 fine)

/-- A sample meets a criterion or not. -/
def CycleRun.sample (ok : Bool) (r : CycleRun) : CycleRun :=
  if ok then { r with seen := true } else { cycles := 0, holds := false, seen := true }

/-- A cycle has ended. -/
def CycleRun.cycle (r : CycleRun) : CycleRun := { cycles := if r.holds && r.seen then r.cycles + 1 else 0, holds := true }

/-- The tick since which a condition has held on every sample. -/
def sinceTick (t : Time) (on : Bool) (x : Option Nat) : Option Nat := if on then some (x.getD t.tick) else none

/-- The criteria of R42 on a sample. -/
def judgeSample (t : Time) (c : Chip) : Chip :=
  let below := c.ang.below
  let limit := atBandLimit c
  let good := !below && phaseBelow c.ang.phi (c.rd F.ANG_PLL_LOCKERR)
  let bad := phaseAbove c.ang.phi (c.rd F.ANG_PLL_UNLKERR)
  modAng (fun a => { a with
    good := a.good.sample good, level := a.level.sample (!below && !limit), limit := a.limit.sample (!below && limit)
    badAt := sinceTick t bad a.badAt, belowAt := sinceTick t below a.belowAt, aboveAt := sinceTick t (!below) a.aboveAt }) c

/-- The PLL on one sample set (R39). The positive-sequence pair gives |V| and θ; φ is θ − θ̂ and e its sine. Below level the
integrator stands still (R43), and DC is no longer detected (R42). Else f̂ is formed, in every state: while the filter tracks,
Σe grows by e; in a slew it is held and f̂ stays within fh ± SLEW (R47); otherwise it is held and f̂ steers nothing. -/
def pllSet (t : Time) (c : Chip) : Chip :=
  let b := c.rd F.ANG_CTL_SINBASE
  let u := fun i => c.rd (F.AFE_SINn_DATA_VALUE (b + i))
  let mag := Config.pllMagnitude c.free (u 0) (u 1) (u 2)
  let d := wrapTurn ((Config.pllAngle c.free (u 0) (u 1) (u 2) : Int) - (t.acc.toNat % 2 ^ 48 : Nat))
  let e := phaseError (Config.pllFine c.free) d
  let below := isBelow c mag
  let wasBelow := c.ang.below
  let c := tickFree (modAng (fun a => { a with mag := mag, phi := phaseBins d, err := e, below := below
                                               belowSince := a.belowSince || below }) c)
  if below then (if wasBelow then c.wrB F.ANG_STAT_DCDET false else integratorFreeze (c.wrB F.ANG_STAT_DCDET false))
  else
    let (lo, hi) := bandInc c
    let band := fun (f : Nat) => min hi (max lo f)
    let run := fun (f : Nat) (s : Steer) (c : Chip) =>
      setInc f s (modAng (fun a => { a with cycSum := a.cycSum + f, cycN := a.cycN + 1, fLast := f }) c)
    match c.ang.steer with
    | .pll =>
      let sum := c.ang.sumE + e
      run (band (pllEstimate c e sum)) .pll (modAng (fun a => { a with sumE := sum }) c)
    | .slew =>
      let d := incOf (c.rd F.ANG_HOLD_SLEW * c.rd F.ANG_FNOM_FNOM / 1000)
      slewEnd (run (band (min (c.ang.fh + d) (max (c.ang.fh - d) (pllEstimate c e c.ang.sumE)))) .slew c)
    | _ => modAng (fun a => { a with fLast := band (pllEstimate c e a.sumE) }) c

/-- A sample set: the PLL, and the criteria of R42. -/
def pllUpdate (t : Time) (c : Chip) : Chip := judgeSample t (pllSet t c)

/-- A sample of an input of ANG has come: the PLL computes once all three inputs have a sample of the set (R39). -/
def pllSample (t : Time) (n : Nat) (c : Chip) : Chip :=
  let b := c.rd F.ANG_CTL_SINBASE
  if angUsesSin c && decide (b ≤ n) && decide (n ≤ b + 2) then
    let got := setBit c.ang.got (n - b) true
    if got % 8 = 7 then pllUpdate t (modAng (fun a => { a with got := 0 }) c) else modAng (fun a => { a with got := got }) c
  else c

/-- ANG leaves LOCK: IRQRAW.UNLOCK (R57). -/
def leaveLock (t : Time) (c : Chip) : Chip := irq t 0x0A 1 c

/-- Enter HOLD at the held frequency, which FREQ shows; the holdover time starts (R44, R45, R57). The window of R45 ends
before the first sample below level, and on entry by unlock or out of band (`event`) before that event. -/
def enterHold (t : Time) (event : Bool) (c : Chip) : Chip :=
  let c := if c.ang.below && !event then c else freezeHeld c
  let c := (setInc c.ang.fh .held c).wr F.ANG_FREQ_FREQ (mHzOf c.ang.fh)
  leaveLock t (setAng angHOLD (modAng (fun a => { a with holdAt := t.tick }) (c.wrR R.ANG_DRIFT 0)))

/-- LOCK_ACQUIRED (R42, R44): |φ| has been below LOCKERR on every sample for LOCKCYC complete cycles. A slew that this ends is
seeded as in R47. -/
def lockAcquired (t : Time) (c : Chip) : Chip :=
  if angState c = angACQ ∧ c.ang.present ∧ !c.ang.paused ∧ c.rd F.ANG_PLL_LOCKCYC ≤ c.ang.good.cycles then
    irq t 0x0A 0 (setAng angLOCK ((slewEnd c).wrB F.ANG_STAT_PLANNED false) |> modAng fun a => { a with steer := .pll, lockAt := t.tick })
  else c

/-- UNLOCK_DECLARED (R42, R44): |φ| has been above UNLKERR on every sample for UNLKTIME; holdover with kind 0x01. -/
def unlockDeclared (t : Time) (c : Chip) : Chip :=
  if angState c = angLOCK ∧ heldFor t (c.rd F.ANG_PLL_UNLKTIME * 400000) c.ang.badAt then raise t 0x02 0x01 0x50 (enterHold t true c) else c

/-- OUT_OF_BAND (R41, R42, R44): f̂ has been held at a band limit for a cycle, or the sequence is reversed; holdover with kind 0x08. A reversed
sequence is shown; the manual does not say when the flag clears, and it stays until reset (log 27). -/
def outOfBand (t : Time) (reversed : Bool) (c : Chip) : Chip :=
  let c := if reversed then c.wrB F.ANG_STAT_SEQREV true else c
  if angState c = angLOCK ∧ (if reversed then !c.flag F.ANG_CTL_SEQREV else decide (1 ≤ c.ang.limit.cycles)) then
    raise t 0x02 0x08 0x40 (enterHold t true c)
  else c

/-- Masked windows run (R49). -/
def maskOn (c : Chip) : Bool := !c.ang.opened.isEmpty

/-- A start stamp passed by BUS is reached: its masked window runs, and from LOCK only, with no fault, ANG enters a planned
holdover (R49). -/
def plannedStart (t : Time) (c : Chip) : Chip :=
  match c.ang.planned.find? fun w => t.stamp.reached w.1 with
  | none => c
  | some w =>
    let c := modAng (fun a => { a with planned := a.planned.erase w, opened := a.opened ++ [(w.1, w.2, t.tick)] }) c
    if angState c = angLOCK then
      (enterHold t false (modAng (fun a => { a with belowSince := false }) c)).wrB F.ANG_STAT_PLANNED true
    else c

/-- ANG declares supply loss: IRQRAW.LOSS and kind 0x02 (R44, R49, R57). -/
def declareLoss (t : Time) (c : Chip) : Chip := raise t 0x02 0x02 0x54 (irq t 0x0A 2 c)

/-- A loss in a masked window is an event for the recorder only (R49); else it is declared. -/
def tellLoss (t : Time) (c : Chip) : Chip :=
  if maskOn c then
    let c := if recOn c then recEvent t 0x0A 2 (c.rdR (irqRaw 0x0A)) t.stamps c else c
    modAng (fun a => { a with maskLoss := true }) c
  else declareLoss t c

/-- SUPPLY_LOSS_DECLARED (R42, R44): every sample for LOSS.TIME has been below level. In LOCK holdover with kind 0x02, a planned start in the same
tick first (R54); in ACQ once per episode, at the estimate of the last sample at or above level. -/
def supplyLoss (t : Time) (c : Chip) : Chip :=
  let c := plannedStart t c
  if !heldFor t (c.rd F.ANG_LOSS_TIME * 4000) c.ang.belowAt then c
  else if angState c = angLOCK then tellLoss t (enterHold t false c)
  else if angState c = angACQ ∧ c.ang.present then
    let c := setInc c.ang.fLast .held c
    let again := c.ang.lossEp
    let masked := maskOn c
    let c := modAng (fun a => { a with lossEp := !masked || a.lossEp, present := false, paused := false }) c
    if again then irq t 0x0A 2 c else tellLoss t c
  else if maskOn c then tellLoss t c else c

/-- The reacquisition rule R47: slew, forward jump or pause by the measured phase difference, which PHERR holds. -/
def reacquire (t : Time) (c : Chip) : Chip :=
  let phi := c.ang.phi
  let step := c.rd F.ANG_HOLD_STEPMAX * 65536 / 720
  let c := c.wrI F.ANG_PHERR_PHERR phi
  let c := modAng (fun a => { a with paused := false }) c
  if phi.natAbs ≤ step then slewEnd (modAng (fun a => { a with steer := .slew }) c)
  else
    let c := raise t 0x02 0x10 0x68 (irq t 0x0A 4 (c.wrI F.ANG_PHERR_JUMP phi))
    if 0 < phi then (modAng (fun a => { a with steer := .pll }) c).askTime (.jump (BitVec.ofNat 16 phi.toNat))
    else modAng (fun a => { a with paused := true, pauseTo := t.tick + divUp (phi.natAbs * 2 ^ 32) (max 1 a.inc) }) c

/-- Entry to ACQ with the supply present (R44, R47). Before a first holdover, and in ACQ, the frequency in force takes the
place of fh. -/
def acquire (t : Time) (c : Chip) : Chip :=
  reacquire t (setAng angACQ (modAng (fun a => { a with present := true, lossEp := false, below := false, maskLoss := false
                                                        fh := if angState c = angACQ then a.inc else a.fh }) c))

/-- SUPPLY_PRESENT (R42, R44): |V| has been at level at a frequency in band on every sample for RETDB complete cycles. In ACQ
once, until it is lost again, and from HOLD and FREE; in a planned holdover only
after a sample below level since the start stamp (R49). A supply that rotates in band is no DC: the manual does not say when
DCDET clears, and it does so here and on a sample below level (log 27). -/
def supplyPresent (t : Time) (c : Chip) : Chip :=
  let seen := decide (c.rd F.ANG_LOSS_RETDB ≤ c.ang.level.cycles)
  let c := if angUsesSin c && seen then c.wrB F.ANG_STAT_DCDET false else c
  if !seen then c
  else if (angState c = angACQ ∧ !c.ang.present) ∨ ((angState c = angFREE ∨ angState c = angHOLD) ∧ (!c.flag F.ANG_STAT_PLANNED || c.ang.belowSince)) then
    acquire t c
  else c

/-- ANG steps to VIRT at VFREQ, phase-continuous (R44, R48); a pause ends with it. -/
def toVirt (c : Chip) : Chip :=
  setAng angVIRT (setInc (incOf (c.rd F.ANG_VFREQ_VFREQ)) .virt (modAng (fun a => { a with paused := false }) c))

/-- DC_DETECTED (R42, R44): |V| has been at level for 200 ms; DCDET is shown, and in ACQ with MODE 0b10 ANG steps to VIRT with
kind 0x08. -/
def dcDetected (t : Time) (c : Chip) : Chip :=
  if angUsesSin c && heldFor t 80000000 c.ang.aboveAt then
    let c := c.wrB F.ANG_STAT_DCDET true
    if angState c = angACQ ∧ c.rd F.ANG_CTL_MODE = 2 then
      raise t 0x02 0x08 0x40 (toVirt c)
    else c
  else c

/-- PAUSE_END, |φ| / (360° × f̂) after its start (R47): the stamp advances again and the filter tracks. -/
def pauseEnd (t : Time) (c : Chip) : Chip :=
  if c.ang.paused && decide (c.ang.pauseTo ≤ t.tick) then modAng (fun a => { a with paused := false, steer := .pll }) c else c

/-- In FREE the oscillator runs at VFREQ with HOLDEXIT = 1, else at fh (R48). -/
def freeRun (c : Chip) : Chip :=
  if c.flag F.ANG_CTL_HOLDEXIT then setInc (incOf (c.rd F.ANG_VFREQ_VFREQ)) .virt c else setInc c.ang.fh .held c

/-- HOLDOVER_EXPIRED: the holdover time has reached MAXT (R44, R48): FREE with kind 0x04, at fh or at VFREQ. -/
def holdoverExpired (t : Time) (c : Chip) : Chip :=
  if angState c = angHOLD ∧ c.ang.holdAt + c.rd F.ANG_HOLD_MAXT * 40000000 ≤ t.tick then raise t 0x02 0x04 0x58 (irq t 0x0A 3 (setAng angFREE (freeRun c))) else c

/-- A masked window whose end has come: start + duration + GAPX (R49). -/
def windowOver (t : Time) (c : Chip) (w : Stamp × Nat × Nat) : Bool :=
  decide (w.2.2 + (w.2.1 + c.rd F.ANG_HOLD_GAPX * 10) * 400000 ≤ t.tick)

/-- The masked windows end without the supply present: a planned holdover with a sample below level since its start, or a loss
that the mask has kept from being declared (R49). -/
def endsLost (t : Time) (c : Chip) : Bool :=
  maskOn c && c.ang.opened.all (windowOver t c)
    && (c.ang.maskLoss
      || (c.flag F.ANG_STAT_PLANNED && c.ang.belowSince && (angState c == angHOLD || angState c == angFREE)))

/-- PLANNED_WINDOW_END (R49): the windows whose end has come close. With the last of them, a planned holdover whose supply was
never below level since the start stamp reacquires (R47); without the supply present, supply loss is declared and the holdover
goes on as an ordinary one. -/
def plannedWindowEnd (t : Time) (c : Chip) : Chip :=
  let left := c.ang.opened.filter fun w => !windowOver t c w
  if !maskOn c || !left.isEmpty then modAng (fun a => { a with opened := left }) c
  else
    let lost := endsLost t c
    let stays := c.flag F.ANG_STAT_PLANNED && !c.ang.belowSince && (angState c == angHOLD || angState c == angFREE)
    let c := (modAng (fun a => { a with opened := [], maskLoss := false }) c).wrB F.ANG_STAT_PLANNED false
    if lost then declareLoss t (modAng (fun a => { a with lossEp := angState c == angACQ }) c)
    else if stays then acquire t c else c

/-- DRIFT_UPDATE: with the holdover time the bound is ceil(65,536 × t × (Δf + fh × ε)) bins, saturating; 0xFFFF in FREE (R46). -/
def driftUpdate (t : Time) (c : Chip) : Chip :=
  if angState c = angHOLD then
    let n := min 65535 ((t.tick - c.ang.holdAt) / 4000000)
    let eps := if c.flag F.ANG_CTL_HOLDCOR && c.flag F.ANG_STAT_NSDISC then 1 else 50
    let d := divUp (n * (c.ang.df * 500000 + c.ang.fh * eps) * 4) (2 ^ 32)
    (c.wr F.ANG_DRIFT_HOLDT n).wr F.ANG_DRIFT_DRIFT (min 0xFFFF d)
  else c

/-- ANG_CYCTS latches the nanosecond time (R53). -/
def latchCycle (t : Time) (c : Chip) : Chip :=
  (c.wrR R.ANG_CYCTS_LO (t.ns.toNat % 2 ^ 32)).wrR R.ANG_CYCTS_HI (t.ns.toNat / 2 ^ 32)

/-- CYCLE_START, once in each cycle (R53): CYCTS latches the nanosecond time; the per-cycle frequency of the cycle that ended enters the
window of R45 and ANG_FREQ. -/
def cycleStart (t : Time) (c : Chip) : Chip :=
  if c.ang.cycOf = some t.stamp.cycle then c else
  let c := latchCycle t c
  let f := if c.ang.cycN = 0 then c.ang.inc else divNear c.ang.cycSum c.ang.cycN
  let c := modAng (fun a => { a with
    cycles := (f :: a.cycles).take 15, cycSum := 0, cycN := 0, cycAt := some t.tick, cycOf := some t.stamp.cycle
    good := a.good.cycle, level := a.level.cycle, limit := a.limit.cycle }) c
  c.wr F.ANG_FREQ_FREQ (mHzOf (if angState c = angHOLD then c.ang.fh else f))

/-- ANGLE_NOW_READ (R53): the angle, with cycle count and nanosecond time of the same tick. -/
def angleNow (t : Time) (c : Chip) : Chip × Nat :=
  let c := (c.wr F.ANG_NOWA_ANGLE t.stamp.angle).wrR R.ANG_NOWC t.stamp.cycle
  ((c.wrR R.ANG_NOWT_LO (t.ns.toNat % 2 ^ 32)).wrR R.ANG_NOWT_HI (t.ns.toNat / 2 ^ 32), t.stamp.angle)

/-- NS_TIME_STEP: a write of ANG_NSSTEP_HI adds the signed step and sets NSDISC (R53). -/
def nsStep (hi : Nat) (c : Chip) : Chip :=
  let step := toInt 64 (c.rdR R.ANG_NSSTEP_LO + 2 ^ 32 * (hi % 2 ^ 32))
  ((c.wrR R.ANG_NSSTEP_HI hi).wrB F.ANG_STAT_NSDISC true).askTime (.nsStep step)

/-- NS_RATE_ADJUST: a write of ANG_NSADJ sets the rate correction and NSDISC (R53). -/
def nsRate (v : Nat) (c : Chip) : Chip := (c.wrR R.ANG_NSADJ v).wrB F.ANG_STAT_NSDISC true

/-! ### The schedule banks (R50–R52, R512) -/

/-- Entry `i` of a bank. -/
def schedEntry (bank : Tab SchedEntry) (i : Nat) : SchedEntry := Tab.get {} bank i

/-- Fields of an entry (R50). -/
def SchedEntry.angle (e : SchedEntry) : Nat := e.w0 % 65536
@[inherit_doc SchedEntry.angle] def SchedEntry.action (e : SchedEntry) : Nat := bits e.w0 23 16
@[inherit_doc SchedEntry.angle] def SchedEntry.en (e : SchedEntry) : Bool := bit e.w0 24
@[inherit_doc SchedEntry.angle] def SchedEntry.once (e : SchedEntry) : Bool := bit e.w0 25
@[inherit_doc SchedEntry.angle] def SchedEntry.fireLate (e : SchedEntry) : Bool := bit e.w0 26
@[inherit_doc SchedEntry.angle] def SchedEntry.mark (e : SchedEntry) : Bool := bit e.w0 27
@[inherit_doc SchedEntry.angle] def SchedEntry.period (e : SchedEntry) : Nat := max 1 (e.w1 % 65536)
@[inherit_doc SchedEntry.angle] def SchedEntry.phase (e : SchedEntry) : Nat := bits e.w1 31 16

/-- The entry fires in cycle `cy` (R50). -/
def SchedEntry.inCycle (e : SchedEntry) (cy : Nat) : Bool :=
  if e.once then e.w1 == cy else cy % e.period == e.phase

/-- TARGET and ARG lie in the table of R51. -/
def SchedEntry.argsOk (e : SchedEntry) : Bool :=
  match e.action with
  | 0x00 => e.w2 == 0 && e.w3 == 0
  | 0x01 => decide (e.w2 ≤ 31) && e.w3 == 0
  | 0x02 => decide (e.w2 ≤ 0xFFFF) && e.w3 == 0
  | 0x03 => decide (e.w2 ≤ 5) && e.w3 == 0
  | 0x04 => decide (e.w2 ≤ 5) && decide (1 ≤ e.w3) && decide (e.w3 ≤ 7)
  | 0x05 => decide (e.w2 ≤ 15) && e.w3 == 0
  | 0x06 => decide (e.w2 ≤ 15) && e.w3 == 0
  | 0x07 => decide (e.w2 < 2 ^ 25) && bits e.w3 31 16 == 0 && bits e.w3 7 5 == 0 && bits e.w3 15 8 != 0
  | 0x08 => e.w2 == 0
  | 0x09 => e.w2 == 0
  | _ => false

/-- The first enabled entry of a bank that refuses a swapping commit (R52). -/
def judgeBank (bank : Tab SchedEntry) : Option Nat :=
  let on := bank.filter fun e => e.2.en
  (on.find? fun e => !e.2.argsOk || (!e.2.once && decide (e.2.period ≤ e.2.phase))
    || decide (16 < (on.filter fun x => x.2.angle == e.2.angle).length)).map Prod.fst

/-- The shadow bank becomes active; BUSY while the copy runs; BANKSW (R52). -/
def swapBanks (t : Time) (c : Chip) : Chip :=
  let clean := c.ang.shadow.map fun e => (e.1, { e.2 with hostWritten := false })
  let c := modAng (fun a => { a with active := clean.filter fun e => e.2 != {}, written := false, fired := [], late := [] }) c
  irq t 0x0A 6 ((c.wrB F.ANG_STAT_BUSY true).push .bankSwap)

/-- The words of an entry as ANG_SW0–ANG_SW3. -/
def setSW (e : SchedEntry) (c : Chip) : Chip :=
  (((c.wrR R.ANG_SW0 e.w0).wrR R.ANG_SW1 e.w1).wrR R.ANG_SW2 e.w2).wrR R.ANG_SW3 e.w3

/-- IDX advances when AUTOINC is 1, once the operation is carried out (R512). -/
def schedInc (auto : Bool) (c : Chip) : Chip :=
  if auto then c.wr F.ANG_SIDX_IDX (c.rd F.ANG_SIDX_IDX + 1) else c

/-- ANG_SOP carried out (R57, R512): 0b01 reads the entry at IDX of the bank named; 0b10 writes it and 0b11 clears the
shadow bank, which with BANK = 1 are not carried out and are a register-access fault. Where nothing is carried out, OP 0b00
among it, AUTOINC does not advance IDX (log 27). -/
def schedOp (t : Time) (op : Nat) (auto : Bool) (c : Chip) : Chip :=
  let i := c.rd F.ANG_SIDX_IDX
  let bank := c.flag F.ANG_SIDX_BANK
  match op with
  | 1 => schedInc auto (setSW (schedEntry (if bank then c.ang.active else c.ang.shadow) i) c)
  | 2 =>
    if bank then accessFault t 0xA09C c
    else
      let e : SchedEntry := ⟨c.rdR R.ANG_SW0, c.rdR R.ANG_SW1, c.rdR R.ANG_SW2, c.rdR R.ANG_SW3, true⟩
      schedInc auto (modAng (fun a => { a with shadow := Tab.set {} a.shadow i e, written := true }) c)
  | 3 =>
    if bank then accessFault t 0xA09C c
    else schedInc auto (modAng (fun a => { a with shadow := [], written := true }) c)
  | _ => c

/-- A write to ANG_SIDX, ANG_SW0–ANG_SW3 or ANG_SOP carried out (R512). -/
def schedWrite (t : Time) (w : HeldWrite) (c : Chip) : Chip :=
  if w.off = 0x9C then schedOp t (w.word % 4) (bit w.word 4) c
  else if w.off = 0x88 then
    (c.wr F.ANG_SIDX_IDX (w.word % 1024)).wrB F.ANG_SIDX_BANK (bit w.word 16)
  else c.wrR ⟨0xA000 + w.off, 0⟩ w.word

/-- A host write to one of these registers: at once, or held in a queue of 16 while BUSY is 1; a full queue ignores it
with a register-access fault (R512). -/
def schedHostWrite (t : Time) (off word : Nat) (c : Chip) : Chip :=
  if c.flag F.ANG_STAT_BUSY then
    if c.ang.held.length < 16 then modAng (fun a => { a with held := a.held ++ [⟨off, word⟩] }) c
    else accessFault t (0xA000 + off) c
  else schedWrite t ⟨off, word⟩ c

/-- BANK_COPY_DONE: the shadow bank holds the active one, BUSY clears, and the held writes are carried out in order
(R52, R512). -/
def bankCopyDone (t : Time) (c : Chip) : Chip :=
  if c.flag F.ANG_STAT_BUSY then
    let ws := c.ang.held
    let c := modAng (fun a => { a with shadow := a.active, held := [] }) (c.wrB F.ANG_STAT_BUSY false)
    c.forAll ws (schedWrite t)
  else c

/-- A fired or skipped ONCE entry: EN clears in the active bank, and in the shadow bank unless the host has written that
entry there since the last swap (R50, R54). -/
def clearOnce (i : Nat) (c : Chip) : Chip :=
  if (schedEntry c.ang.active i).once then
    let off := fun (e : SchedEntry) => { e with w0 := setBit e.w0 24 false }
    modAng (fun a => { a with
      active := Tab.upd {} a.active i off
      shadow := if (schedEntry a.shadow i).hostWritten then a.shadow else Tab.upd {} a.shadow i off }) c
  else c

/-- An entry is missed: counted in ANG_SMISS and reported with kind 0x20 (R51). -/
def schedMissed (t : Time) (i : Nat) (c : Chip) : Chip :=
  raise t 0x02 0x20 i (irq t 0x0A 5 ((c.count F.ANG_SMISS_COUNT).wr F.ANG_SMISS_LAST i))

/-! ### Commits (R40, R41, R44, R48, R52) -/

/-- The refusals of an ANG commit beside the ranges: damping code and natural frequency (R40), nominal frequency in the
band (R41), and the shadow bank when it has been written (R52): offset or entry index. -/
def judgeAng (c : Chip) : Option Nat :=
  let f := c.rd F.ANG_FNOM_FNOM
  if c.rd F.ANG_CTL_SINBASE > 29 ∨ c.rd F.ANG_CTL_MODE = 3 then some 0x40
  else if !(if c.flag F.ANG_CTL_BAND then decide (380000 ≤ f) && decide (f ≤ 420000)
            else decide (14000 ≤ f) && decide (f ≤ 72000)) then some 0x44
  else if c.rd F.ANG_PLL_DAMP = 3 ∨ c.rd F.ANG_PLL_BW * 2500 > f then some 0x50
  else if c.ang.written then judgeBank c.ang.shadow else none

/-- What an applied ANG commit does beside its registers: MODE 0b01 steps to VIRT; leaving it starts ACQ at FNOM
(R44); the frequencies in force follow FNOM and VFREQ (R44, R48); the banks swap after a shadow write (R52). -/
def angCommitted (t : Time) (was c : Chip) : Chip :=
  let mode := c.rd F.ANG_CTL_MODE
  let c :=
    if mode = 1 then toVirt c
    else if angState was = angVIRT then
      setAng angACQ (setInc (incOf (c.rd F.ANG_FNOM_FNOM)) .fnom
        (modAng (fun a => { a with present := false, lossEp := false, paused := false, sumE := 0
                                   fLast := incOf (c.rd F.ANG_FNOM_FNOM) }) c))
    else if angState was = angFREE then freeRun c
    else match c.ang.steer with
      | .fnom => setInc (incOf (c.rd F.ANG_FNOM_FNOM)) .fnom (modAng (fun a => { a with fLast := incOf (c.rd F.ANG_FNOM_FNOM) }) c)
      | .virt => setInc (incOf (c.rd F.ANG_VFREQ_VFREQ)) .virt c
      | _ => c
  let c := if mode = 1 ∧ angState was = angLOCK then leaveLock t c else c
  if c.ang.written then swapBanks t c else c

/-- A soft block reset of ANG, beside its registers (R513): banks, misses and the PLL are cleared, ACQ at FNOM with the
phase continuous; the windows passed by BUS and NSDISC are kept. -/
def angBlockReset (was c : Chip) : Chip :=
  let c := modAng (fun a => ({ planned := a.planned, opened := a.opened } : Ang)) c
  c.wrB F.ANG_STAT_NSDISC (was.flag F.ANG_STAT_NSDISC)

end Sys2Proof.Machine
end

