-- ==== Sys2Proof/Machine/Legs.lean ====
section
/-! DEFINITION. LEG: groups, duty and edges, shedding and balance, Step Catch, and holds (R58–R66, R77–R84). -/

namespace Sys2Proof.Machine

/-! ### Access -/

/-- The hidden state of group `k`. -/
def group (c : Chip) (k : Nat) : Group := Tab.get {} c.groups k

/-- The hidden state of group `k` changes by `f`. -/
def modGroup (k : Nat) (f : Group → Group) (c : Chip) : Chip := { c with groups := Tab.upd {} c.groups k f }

/-- The hidden state of leg `n`. -/
def leg (c : Chip) (n : Nat) : LegSt := Tab.get {} c.legs n

/-- The hidden state of leg `n` changes by `f`. -/
def modLeg (n : Nat) (f : LegSt → LegSt) (c : Chip) : Chip := { c with legs := Tab.upd {} c.legs n f }

/-- Group `k` runs: LEG_Gk_CFG.EN with a topology (R60). -/
def groupOn (c : Chip) (k : Nat) : Bool :=
  c.blockOn 0x0B && c.flag (F.LEG_Gk_CFG_EN k) && c.rd (F.LEG_Gk_CFG_TOPO k) != 0

/-- The legs of group `k` (R60). -/
def groupLegs (c : Chip) (k : Nat) : List Nat :=
  (List.range (c.rd (F.LEG_Gk_CFG_NLEG k))).map (· + c.rd (F.LEG_Gk_CFG_FIRST k))

/-- The group that leg `n` is allocated to (R60). -/
def groupOfLeg (c : Chip) (n : Nat) : Option Nat :=
  (List.range 6).find? fun k => c.rd (F.LEG_Gk_CFG_TOPO k) != 0 && (groupLegs c k).contains n

/-- The active legs: the first NACT of the group, since legs drop from the highest and return from the lowest
(R80, R81). -/
def activeLegs (c : Chip) (k : Nat) : List Nat := (groupLegs c k).take (c.rd (F.LEG_Gk_STAT_NACT k))

/-- A latched trip or a chatter hold of a latched-trip comparator names leg `n` (R72, R74): the legs it has taken stay off
until the clear, also when a commit takes them out of LEGS. -/
def legTripped (c : Chip) (n : Nat) : Bool :=
  (List.range 24).any fun i => bit (c.rdR R.CMP_LATCH) i && (bit (Tab.get {} c.cmps i).legs n
    || (c.rd (F.CMP_Cn_TM_ACT i) == 2 && bit (c.rd (F.CMP_Cn_TM_LEGS i)) n))

/-- Leg `n` holds both outputs low: by LEG_OUTCTL, a latched trip, a hold set by BUS or CPT, seal-only mode, the start
hold or the Bivouac (R59, R66, R77, R396, R469). -/
def legHeld (c : Chip) (n : Nat) : Bool :=
  bit (c.rd F.LEG_OUTCTL_OFF) n || legTripped c n || (leg c n).heldBy != 0 || c.flag F.PWR_STAT_SEALONLY
    || c.flt.held || c.flt.biv || c.hibHold

/-- LEG_Ln_STAT of every leg follows (R87); a hold by BUS reads as FORCED (R136). -/
def legStatus (c : Chip) : Chip :=
  c.forAll (List.range 12) fun n c =>
    let g := groupOfLeg c n
    let on := (g.map (groupOn c)).getD false
    let act := on && (g.map fun k => (activeLegs c k).contains n && (group c k).delivered).getD false
    let shed := on && (g.map fun k => !(activeLegs c k).contains n).getD false
    (((((c.wr (F.LEG_Ln_STAT_GROUP n) (g.getD 7)).wrB (F.LEG_Ln_STAT_ACT n) (act && !legHeld c n)).wrB
      (F.LEG_Ln_STAT_SHED n) shed).wrB (F.LEG_Ln_STAT_TRIP n) (legTripped c n)).wrB
      (F.LEG_Ln_STAT_FORCED n) (bit (c.rd F.LEG_OUTCTL_OFF) n || (leg c n).heldBy != 0))

/-! ### Duty and edges -/

/-- The compare value of a duty with its trim: the sum clamped to 0–MAXD, times PER, rounded half to even (R62). -/
def compareValue (c : Chip) (k : Nat) (duty trim : Int) : Nat :=
  let d := clampI 0 (c.rd (F.LEG_Gk_DLIM_MAXD k) * 256) (duty + trim)
  (divEven (d * c.rd (F.LEG_Gk_PER_PER k)) (2 ^ 24)).toNat

/-- The edges of GH within a leg's period for compare value `v`, in steps from its start (R61); no turn-on below MINPW (R62),
which is (0, 0). A half-period pulse is less the dead time DTH of leg `l`. -/
def edgesOf (c : Chip) (k l v : Nat) : Nat × Nat :=
  let per := (group c k).per
  match c.rd (F.LEG_Gk_CFG_MODE k) with
  | 0 => if v < c.rd (F.LEG_Gk_DLIM_MINPW k) * 16 then (0, 0) else (0, v)
  | 1 => if v < c.rd (F.LEG_Gk_DLIM_MINPW k) * 16 then (0, 0) else (per / 2 - v / 2, per / 2 + v / 2)
  | _ => if c.rd (F.LEG_Ln_DT_DTH l) < per / 2 then (c.rd (F.LEG_Ln_DT_DTH l), per / 2) else (0, 0)

/-- The delivered duty of the i-th leg of group `k`. -/
def dutyOf (c : Chip) (k i : Nat) : Int :=
  let g := group c k
  if c.rd (F.LEG_Gk_CFG_TOPO k) = 1 then g.duty.getD i 0 else g.duty.getD 0 0

/-- The shift of the i-th of n active legs in steps: interleave, or the bridges of a dual active bridge (R65), plus the
static trim of the leg. A half step rounds to even (log 28). -/
def shiftOf (c : Chip) (k i n leg : Nat) : Nat :=
  let per := (group c k).per
  let base : Int := match c.rd (F.LEG_Gk_CFG_TOPO k) with
    | 1 => 0
    | 3 => (if i % 2 = 1 then (per / 2 : Nat) else 0)
        + (if 2 ≤ i then divEven (clampI (-8388608) 8388608 (group c k).phi * per) (2 ^ 25) else 0)
    | _ => divEven ((i * per : Nat) : Int) (max 1 n)
  ((base + c.rdI (F.LEG_Ln_PHS_TRIM leg)) % (max 1 per : Nat)).toNat

/-! ### The gates of a leg in time (R58, R59, R61, R64, R71–R73, R77, R78)

A leg runs from one instant at which something may change to the next, under what has driven it since the last change. -/

/-- The pulse is there. -/
def Pulse.real (p : Pulse) : Bool := decide (p.on < p.off)

/-- The pulse of the leg's present period. -/
def LegSt.present (s : LegSt) : Pulse := match s.pulses with | p :: _ => if p.begun then p else {} | [] => {}

/-- The pulse of the leg's present period changes by `f`. -/
def LegSt.modPresent (f : Pulse → Pulse) (s : LegSt) : LegSt :=
  match s.pulses with
  | p :: ps => if p.begun then { s with pulses := f p :: ps } else s
  | [] => s

/-- The pulses from the latest that has begun by `x`. -/
def fromPresent (x : Nat) : List Pulse → List Pulse
  | p :: q :: ps => if q.base ≤ x then fromPresent x (q :: ps) else p :: q :: ps
  | ps => ps

/-- A limit acts on GH (`low` false) or GL: the gate stays low for the rest of the period (R73). -/
def LegSt.limited (low : Bool) (l : Limiter) (s : LegSt) : LegSt :=
  { s with ghLim := s.ghLim || !low, glLim := s.glLim || low, limBy := setBit s.limBy l.cmp true }

/-- A gate turns off at `x`. -/
def LegSt.highOff (x : Nat) (s : LegSt) : LegSt := if s.gh then { s with gh := false, ghOff := x } else s
@[inherit_doc LegSt.highOff] def LegSt.lowOff (x : Nat) (s : LegSt) : LegSt := if s.gl then { s with gl := false, glOff := x } else s

/-- The leg's own period begins: the limits of the last one end, and a gate whose limit asserts in this very tick is not
turned on in it (R73, R84). In a catch a limited catch switch stays low (R77). -/
def LegSt.enter (x : Nat) (s : LegSt) : LegSt :=
  let s := { s with pulses := fromPresent x s.pulses }
  match s.pulses with
  | p :: ps =>
    if p.begun || decide (x < p.base) then s
    else
      let s := { s with pulses := { p with begun := true } :: ps }
      if s.catchOn then s
      else
        let now := fun (l : Limiter) => l.since / 16 == p.base / 16
        let s := { s with ghLim := false, glLim := false }
        let s := match s.drive.limH.find? now with
          | some l => (s.limited false l).modPresent fun p => { p with off := p.on, done := true }
          | none => s
        match s.drive.limL.find? now with
        | some l => s.limited true l
        | none => s
  | [] => s

/-- A catch of the leg ends (R78): the catch switch turns off, its complementary gate follows, and a turn-on edge already
behind the counter is not issued. -/
def LegSt.leaveCatch (x : Nat) (s : LegSt) : LegSt :=
  let s := { s with catchOn := false, catchTo := 0 }
  if s.drive.low then
    let s := { s with glLim := false }.lowOff x
    if s.pulses.any (·.begun) then
      s.modPresent fun p => { p with on := x, off := if p.real && decide (x < p.off) then p.off else p.base + s.drive.per, done := true }
    else { s with pulses := { base := x, on := x, off := s.drive.bound, begun := true, done := true } :: s.pulses }
  else
    { s with ghLim := false }.highOff x |>.modPresent fun p =>
      if p.real && decide (x ≤ p.on) then p else { p with off := p.on, done := true }

/-- A limit on GL acts at `x`: GH follows, to its turn-off edge where that is still ahead, else to the end of the leg's
period (R73). -/
def LegSt.highFollows (x : Nat) (s : LegSt) : LegSt :=
  s.modPresent fun p =>
    if p.real && decide (x < p.on) then { p with on := x } else { p with on := x, off := p.base + s.drive.per, done := true }

/-- The limits whose blanking is over act on a gate that is on (R71, R73). -/
def LegSt.limits (x : Nat) (s : LegSt) : LegSt :=
  let s := match s.drive.limH.find? fun l => s.gh && decide (s.ghOn + l.blank ≤ x) with
    | some l =>
      let s := (s.limited false l).highOff x
      if s.catchOn then s else s.modPresent fun p => { p with off := min p.off x, done := true }
    | none => s
  match s.drive.limL.find? fun l => s.gl && decide (s.glOn + l.blank ≤ x) with
  | some l =>
    let s := (s.limited true l).lowOff x
    if s.catchOn then s else s.highFollows x
  | none => s

/-- GH is to be on at `x`. -/
def LegSt.wantsHigh (x : Nat) (s : LegSt) : Bool :=
  if s.catchOn then !s.drive.low && !s.ghLim else decide (s.present.on ≤ x) && decide (x < s.present.off)

/-- The turn-on points that are known, each with its turn-off point. -/
def LegSt.spans (s : LegSt) : List (Nat × Nat) :=
  ((s.pulses.filter Pulse.real).map fun p => (p.on, p.off)) ++ (if s.next = 0 then [] else [(s.next, s.next + 1)])

/-- GL is to be on at `x`: it is the complement of GH, and falls DTH ahead of GH's turn-on point (R61, R64). -/
def LegSt.wantsLow (x : Nat) (s : LegSt) : Bool :=
  if s.catchOn then s.drive.low && !s.glLim
  else !s.glLim && s.spans.all fun e => decide (x + s.drive.dth < e.1) || decide (e.2 ≤ x)

/-- A turn-on edge of a pin may come at `x` (R58, R59): the other gate has been low for the dead time, the pin itself since
MINPW, and no less than MINPW is left to its next turn-off edge. -/
def mayTurnOn (x other dead own minpw room : Nat) : Bool :=
  (other == 0 || decide (other + dead ≤ x)) && (own == 0 || decide (own + minpw ≤ x)) && decide (minpw ≤ room)

/-- The gates turn on that may. -/
def LegSt.turnOn (x : Nat) (s : LegSt) : LegSt :=
  let d := s.drive
  if s.wantsHigh x && !s.gh && !s.gl
      && mayTurnOn x s.glOff d.dth s.ghOff d.minpw (if s.catchOn then d.minpw else s.present.off - x) then
    { s with gh := true, ghOn := x, catchTo := if s.catchOn && s.catchTo == 0 then x + d.tcatch else s.catchTo }
  else if s.wantsLow x && !s.gl && !s.gh
      && mayTurnOn x s.ghOff d.dtl s.glOff d.minpw
        (if s.catchOn then d.minpw else ((s.spans.filter fun e => decide (x < e.1)).map fun e => e.1 - d.dth - x).foldl min d.minpw) then
    { s with gl := true, glOn := x, catchTo := if s.catchOn && s.catchTo == 0 then x + d.tcatch else s.catchTo }
  else s

/-- The leg at the instant `x`: its period, the end of its catch, limits, then turn-off edges, which nothing delays, and
turn-on edges (R59). A leg that may not switch is low. -/
def LegSt.at (x : Nat) (s : LegSt) : LegSt :=
  let s := { s with ranTo := x }.enter x
  if !s.drive.live then ({ s with catchOn := false, catchTo := 0 }.highOff x).lowOff x
  else
    let s := if s.catchOn && s.catchTo != 0 && decide (s.catchTo ≤ x) then s.leaveCatch x else s
    let s := s.limits x
    let s := if s.wantsHigh x then s else s.highOff x
    let s := if s.wantsLow x then s else s.lowOff x
    s.turnOn x

/-- The next instant at which something may change. -/
def LegSt.after (s : LegSt) : Option Nat :=
  let d := s.drive
  let ps := s.pulses.flatMap fun p => [p.base, p.on - d.dth, p.on, p.off]
  let xs := ps ++ [s.next - d.dth, s.next, s.glOff + d.dth, s.ghOff + d.dtl, s.ghOff + d.minpw, s.glOff + d.minpw, s.catchTo]
    ++ d.limH.map (fun l => s.ghOn + l.blank) ++ d.limL.map (fun l => s.glOn + l.blank)
  (xs.filter fun x => decide (s.ranTo < x)).min?

/-- The leg runs to the instant `till`, through at most `n` changes. -/
def LegSt.run (till : Nat) : Nat → LegSt → LegSt
  | 0, s => s
  | n + 1, s =>
    match s.after with
    | some x => if x ≤ till then LegSt.run till n (s.at x) else s
    | none => s

/-- More changes than the known pulses of a leg bring. -/
def legFuel : Nat := 256

/-- The asserted comparators that limit GH (`low` false) or GL (`low` true) of leg `l` (R72). -/
def limiters (c : Chip) (l : Nat) (low : Bool) : List Limiter :=
  ((List.range 24).filter fun n =>
    c.flag (F.CMP_Cn_CFG_EN n) && c.flag (F.CMP_Cn_STAT_OUT n) && c.rd (F.CMP_Cn_TM_ACT n) == 1
      && bit (c.rd (F.CMP_Cn_TM_LEGS n)) l && c.flag (F.CMP_Cn_TM_SIDE n) == low).map fun n =>
    ⟨n, 16 * c.rd (F.CMP_Cn_CFG_BLANK n), 16 * (Tab.get {} c.cmps n).outAt⟩

/-- Leg `n` may switch: its group runs with a first duty, the leg is active or in a catch, and nothing holds it off
(R58, R66). -/
def legLive (c : Chip) (n : Nat) : Bool :=
  match groupOfLeg c n with
  | none => false
  | some k => groupOn c k && (group c k).delivered && !legHeld c n && ((leg c n).catchOn || (activeLegs c k).contains n)

/-- The VDDIO bank that drives the gate pins of leg `n` (R507). -/
def legBank (n : Nat) : Nat := if n < 6 then 1 else 6

/-- What drives leg `n` now. A chip that does not act holds every gate low (R118, R353), and the pins of a lost bank are not
driven (R466, R507). -/
def legDrive (c : Chip) (n : Nat) : LegDrive :=
  match groupOfLeg c n with
  | none => {}
  | some k =>
    { live := legLive c n && acts c && bankUp c (legBank n)
      dth := c.rd (F.LEG_Ln_DT_DTH n)
      dtl := c.rd (F.LEG_Ln_DT_DTL n)
      minpw := 16 * c.rd (F.LEG_Gk_DLIM_MINPW k)
      tcatch := divNear (32 * c.rd (F.LEG_Gk_CATCH_TCATCH k)) 5
      bound := 16 * (group c k).periodAt + (group c k).per
      per := (group c k).per
      low := c.flag (F.LEG_Gk_CATCH_SW k)
      limH := limiters c n false
      limL := limiters c n true }

/-- A limit asserts while its gate is off, with the gate's turn-on edge still ahead in the period, or in the very tick of that
edge: the gate is not turned on in this period; in a catch it stays low until the catch ends (R73, R77, R84). -/
def LegSt.asserted (x : Nat) (low : Bool) (l : Limiter) (s : LegSt) : LegSt :=
  let p := s.present
  if s.catchOn then
    if (if low then s.gl else s.gh) || low != s.drive.low then s
    else { s.limited low l with catchTo := if s.catchTo = 0 then x + s.drive.tcatch else s.catchTo }
  else if low then
    if !s.gl && p.real && decide (x < p.off + s.drive.dtl) then s.limited true l else s
  else if (!s.gh && p.real && decide (x < p.off)) || (s.gh && s.ghOn == x && p.base == x) then
    { s.limited false l with gh := false }.modPresent fun p => { p with off := p.on, done := true }
  else s

/-- The leg under its new drive `d` from the instant `x` on. -/
def LegSt.under (x : Nat) (d : LegDrive) (s : LegSt) : LegSt :=
  let new := fun (old now : List Limiter) => now.filter fun l => !old.contains l
  let h := new s.drive.limH d.limH
  let l := new s.drive.limL d.limL
  let s := { s with drive := d }.enter x
  let s := h.foldl (fun s i => s.asserted x false i) s
  (l.foldl (fun s i => s.asserted x true i) s).at x

/-- Leg `n` up to the present tick, under what has driven it. -/
def legRan (t : Time) (c : Chip) (n : Nat) : LegSt := (leg c n).run (16 * t.tick - 1) legFuel

/-- Leg `n` has run up to the present tick. -/
def legSync (t : Time) (n : Nat) (c : Chip) : Chip := modLeg n (fun _ => legRan t c n) c

/-- Leg `n` in the present tick, with what drives it now. -/
def legNow (t : Time) (c : Chip) (n : Nat) : LegSt := (legRan t c n).under (16 * t.tick) (legDrive c n)

/-- Every leg follows what has changed in this tick. -/
def legsFollow (t : Time) (c : Chip) : Chip :=
  if c.groups.any (fun g => g.2.delivered) || c.legs.any (fun l => l.2.gh || l.2.gl) then
    { c with legs := (List.range 12).foldl (fun m n => Tab.set {} m n (legNow t c n)) c.legs }
  else c

/-- The gate pins GHn and GLn in the present tick; never both high (R58). -/
def gatePins (t : Time) (c : Chip) (n : Nat) : Bool × Bool :=
  if (legDrive c n).live then ((legNow t c n).gh, (legNow t c n).gl && !(legNow t c n).gh) else (false, false)

/-! ### Periods and duties (R61–R66) -/

/-- A pulse for a new compare value or a shift moved by `d` steps, at the instant `now` (R63): an edge still ahead moves; a
turn-off edge moved behind the counter with GH on is at once; a turn-on edge moved behind the counter is not issued. -/
def Pulse.moved (now : Nat) (d : Int) (e : Nat × Nat) (p : Pulse) : Pulse :=
  let p := { p with base := ((p.base : Int) + d).toNat }
  if p.done then p
  else if p.real && decide (p.on ≤ now) then (if now < p.off then { p with off := max now (p.base + e.2) } else p)
  else if e.2 ≤ e.1 then { p with on := p.base, off := p.base }
  else if p.base + e.1 < now then { p with on := p.base, off := p.base, done := true }
  else { p with on := p.base + e.1, off := p.base + e.2 }

/-- The turn-on point foreseen after the last known pulse; 0: none. -/
def foreseen (per : Nat) (e : Nat × Nat) (ps : List Pulse) : Nat :=
  if e.2 ≤ e.1 then 0 else (ps.getLast?.map fun p => p.base + per + e.1).getD 0

/-- The pulses of a leg with shift `sh` in a period of its group that began at `start`, for edges `e` at the instant `now`. The
first duty seeds them; else they move, and where a shift moves the last of them ahead, the one after it is known too. -/
def LegSt.takeEdges (now start per sh : Nat) (e : Nat × Nat) (s : LegSt) : LegSt :=
  let seed : List Pulse := (if start + sh < per then [] else [{ base := start + sh - per }]) ++ [{ base := start + sh }]
  let up := (sh + per - s.shift % max 1 per) % max 1 per
  let d : Int := if 2 * up ≤ per then up else (up : Int) - per
  let ps := if s.pulses.isEmpty then seed.map (Pulse.moved now 0 e) else s.pulses.map (Pulse.moved now d e)
  let last := (ps.getLast?.map Pulse.base).getD 0
  let ps := if last + per < start + per then ps ++ [({ base := last + per } : Pulse).moved now 0 e] else ps
  { s with pulses := ps, next := foreseen per e ps, shift := sh }

/-- The new period of group `k` begins: counter 0, the PER of the register comes into force (R84), and every active leg takes
its shift and its pulse in this period (R61–R65). -/
def startPeriod (t : Time) (k : Nat) (c : Chip) : Chip :=
  let n := c.rd (F.LEG_Gk_STAT_NACT k)
  let now := 16 * t.tick
  let c := c.forAll (groupLegs c k) (legSync t)
  let c := modGroup k (fun g => { g with periodAt := t.tick, per := c.rd (F.LEG_Gk_PER_PER k), periods := g.periods + 1 }) c
  c.forAll ((groupLegs c k).zipIdx) fun (l, i) c =>
    if i < n ∧ (group c k).delivered then
      let sh := shiftOf c k i n l
      let e := edgesOf c k l (compareValue c k (dutyOf c k i) (leg c l).trim)
      modLeg l (fun s =>
        let ps := s.pulses.filter (fun p => decide (p.base < now)) ++ [({ base := now + sh } : Pulse).moved now 0 e]
        { s with pulses := ps, next := foreseen (group c k).per e ps, shift := sh }) c
    else modLeg l (fun s => { s with pulses := s.pulses.filter fun p => decide (p.base < now), next := 0 }) c

/-- DUTY_DELIVERY (R63): CEN delivers the duties, or the phase, of group `k`. The first duty of an enabled group starts its
legs at their shifts (R65, R66). During a catch duties are discarded (R77). -/
def deliverDuty (t : Time) (k : Nat) (duty : List Int) (phi : Int) (c : Chip) : Chip :=
  if !groupOn c k || c.flag (F.LEG_Gk_STAT_CATCH k) then c
  else
    let first := !(group c k).delivered
    let c := modGroup k (fun g => { g with duty := duty, phi := phi, delivered := true }) c
    let n := c.rd (F.LEG_Gk_STAT_NACT k)
    let c := c.forAll ((activeLegs c k).zipIdx) fun (l, i) c =>
      let c := legSync t l c
      let e := edgesOf c k l (compareValue c k (dutyOf c k i) (leg c l).trim)
      let sh := if first || c.rd (F.LEG_Gk_CFG_TOPO k) == 3 then shiftOf c k i n l else (leg c l).shift
      modLeg l (LegSt.takeEdges (16 * t.tick) (16 * (group c k).periodAt) (group c k).per sh e) c
    if first then legStatus c else c

/-- A group is enabled: its counter starts at 0, all its legs are active, and they stay low until the first duty; or
disabled: both outputs of every leg go low (R66). What stands at its depth comparator and its slope input stands (R76). -/
def setGroup (t : Time) (k : Nat) (on : Bool) (c : Chip) : Chip :=
  let g := group c k
  let kept : Group := { depthOn := g.depthOn, depthEnd := g.depthEnd, slopeOn := g.slopeOn, slopeEnd := g.slopeEnd }
  let c := modGroup k (fun _ => { kept with periodAt := t.tick, per := c.rd (F.LEG_Gk_PER_PER k) }) c
  let c := c.forAll (groupLegs c k) fun l c =>
    modLeg l (fun s => { s with pulses := [], next := 0, trim := 0, catchOn := false, catchTo := 0, limBy := 0 }) (legSync t l c)
  let keep := c.rdR (R.LEG_Gk_STAT k) / 256 * 256
  legStatus (c.wrR (R.LEG_Gk_STAT k) (keep + if on then c.rd (F.LEG_Gk_CFG_NLEG k) else 0))

/-- LEG_FORCE_OFF: a write of LEG_OUTCTL (R66). -/
def forceOff (v : Nat) (c : Chip) : Chip := legStatus (c.wr F.LEG_OUTCTL_OFF v)

/-- BUS (bit 0), CPT (bit 1) hold a leg off or release it (R59). -/
def holdLeg (who n : Nat) (on : Bool) (c : Chip) : Chip :=
  legStatus (modLeg n (fun s => { s with heldBy := setBit s.heldBy who on }) c)

/-- BUS or CPT hold every leg of group `k` off, or release it. -/
def holdGroup (who k : Nat) (on : Bool) (c : Chip) : Chip :=
  c.forAll (groupLegs c k) fun n c => holdLeg who n on c

/-! ### Shedding and balance (R79–R82) -/

/-- The phase current of the i-th leg: the calibrated value of FIN(BALFIN + i) (R79). -/
def phaseCurrent (c : Chip) (k i : Nat) : Int := c.rdI (F.AFE_FINn_DATA_VALUE (c.rd (F.LEG_Gk_BAL_BALFIN k) + i))

/-- A shed announcement ends without a drop (R80, R81, R84). -/
def withdrawShed (t : Time) (k : Nat) (c : Chip) : Chip :=
  modGroup k (fun g => { g with dropFired := false }) (irq t 0x0B 3 (c.wrB (F.LEG_Gk_STAT_SHEDANN k) false))

/-- The average and the drop count anew after a change of the number of phases (R80). -/
def phasesChanged (k n : Nat) (c : Chip) : Chip :=
  legStatus (modGroup k (fun g => { g with acc := 0, accN := 0, fresh := true }) (c.wr (F.LEG_Gk_STAT_NACT k) n))

/-- PHASE_DROP: the announced leg stops at the boundary; its trim is 0 (R80, R82). -/
def phaseDrop (t : Time) (k : Nat) (c : Chip) : Chip :=
  let n := c.rd (F.LEG_Gk_STAT_NACT k)
  let c := c.forAll ((groupLegs c k).drop (n - 1)) fun l c => modLeg l (fun s => { s with trim := 0, pulses := [], next := 0 }) (legSync t l c)
  let c := modGroup k (fun g => { g with dropFired := false }) (c.wrB (F.LEG_Gk_STAT_SHEDANN k) false)
  irq t 0x0B 2 (phasesChanged k (n - 1) c)

/-- PHASE_ADD: the lowest-numbered shed legs rejoin at the boundary (R81). -/
def phaseAdd (t : Time) (k m : Nat) (c : Chip) : Chip :=
  let n := c.rd (F.LEG_Gk_STAT_NACT k)
  let n' := min (c.rd (F.LEG_Gk_CFG_NLEG k)) (n + m)
  let c := modGroup k (fun g => { g with addPend := 0 }) c
  if n' = n then c else irq t 0x0B 4 (phasesChanged k n' c)

/-- What was announced or requested takes effect at this boundary: the adds first, which withdraw an announcement
(R81, R84), else the drop (R80). -/
def applyPhases (t : Time) (k : Nat) (c : Chip) : Chip :=
  let g := group c k
  if g.addPend ≠ 0 then
    let c := if c.flag (F.LEG_Gk_STAT_SHEDANN k) then withdrawShed t k c else c
    phaseAdd t k g.addPend c
  else if c.flag (F.LEG_Gk_STAT_SHEDANN k) && (!c.flag (F.LEG_Gk_SHED_MODE k) || g.dropFired) then phaseDrop t k c
  else c

/-- The judgement of R79 at a boundary: the phase currents of the period that ends enter the average, and after 2^AVG periods a
drop or an add falls due; then the next 2^AVG periods are averaged (log 28). The period in which the number of phases has changed
does not count (R80), and a frozen group judges no drop (R78, R81). -/
def judgeShed (t : Time) (k : Nat) (c : Chip) : Chip :=
  if (group c k).fresh then modGroup k (fun g => { g with fresh := false }) c
  else if c.flag (F.LEG_Gk_SHED_EN k) && !c.flag (F.LEG_Gk_STAT_CATCH k) then
    let n := c.rd (F.LEG_Gk_STAT_NACT k)
    let sum := ((List.range n).map (phaseCurrent c k)).foldl (· + ·) 0
    let g := group c k
    let acc := g.acc + sum
    let m := 2 ^ c.rd (F.LEG_Gk_SHED_AVG k)
    if g.accN + 1 < m then modGroup k (fun g => { g with acc := acc, accN := g.accN + 1 }) c
    else
      let c := modGroup k (fun g => { g with acc := 0, accN := 0 }) c
      if n < c.rd (F.LEG_Gk_CFG_NLEG k) ∧ c.rd (F.LEG_Gk_SHEDTH_ADD k) * n * m < acc.natAbs then
        let c := if c.flag (F.LEG_Gk_STAT_SHEDANN k) then withdrawShed t k c else c
        modGroup k (fun g => { g with addPend := max 1 g.addPend }) c
      else if c.rd (F.LEG_Gk_SHED_MINPH k) < n ∧ acc.natAbs < c.rd (F.LEG_Gk_SHEDTH_DROP k) * (n - 1) * m
          ∧ !c.flag (F.LEG_Gk_STAT_SHEDANN k) ∧ !c.flag (F.LEG_Gk_STAT_SHEDFRZ k) then
        irq t 0x0B 1 (modGroup k (fun g => { g with annAt := t.tick }) (c.wrB (F.LEG_Gk_STAT_SHEDANN k) true))
      else c
  else c

/-- BALANCE_TRIM at a boundary: b ← clamp(b − GAIN × (I − Ī) × 2^−20, ±BALMAX) for each active phase (R82). -/
def balanceTrim (k : Nat) (c : Chip) : Chip :=
  if c.flag (F.LEG_Gk_BAL_BALEN k) then
    let n := c.rd (F.LEG_Gk_STAT_NACT k)
    let sum := ((List.range n).map (phaseCurrent c k)).foldl (· + ·) 0
    let top : Int := c.rd (F.LEG_Gk_BAL_BALMAX k) * 256
    c.forAll ((activeLegs c k).zipIdx) fun (l, i) c =>
      let d := divEven ((c.rd (F.LEG_Gk_BAL_GAIN k) : Int) * (phaseCurrent c k i * n - sum) * 16) (max 1 n)
      modLeg l (fun s => { s with trim := clampI (-top) top (s.trim - d) }) c
  else c

/-- Schedule action 0x03: an announced drop takes effect at the first boundary from now on (R80); nothing is kept when
none is announced, or when a catch runs (R84). -/
def schedDrop (k : Nat) (c : Chip) : Chip :=
  if c.flag (F.LEG_Gk_STAT_SHEDANN k) && c.flag (F.LEG_Gk_SHED_MODE k) && !c.flag (F.LEG_Gk_STAT_CATCH k) then
    modGroup k (fun g => { g with dropFired := true }) c
  else c

/-- Schedule action 0x04: ARG phases are added at the first boundary from now on, limited to NLEG − n (R81). -/
def schedAdd (k m : Nat) (c : Chip) : Chip :=
  if groupOn c k && !c.flag (F.LEG_Gk_STAT_CATCH k) then
    modGroup k (fun g => { g with
      addPend := min (g.addPend + m) (c.rd (F.LEG_Gk_CFG_NLEG k) - c.rd (F.LEG_Gk_STAT_NACT k)) }) c
  else c

/-- SHED_ANNOUNCE_TIMEOUT: no schedule action 0x03 within ANNTO; withdrawn with LEG kind 0x02 (R80). -/
def shedTimeout (t : Time) (k : Nat) (c : Chip) : Chip :=
  if c.flag (F.LEG_Gk_STAT_SHEDANN k) && c.flag (F.LEG_Gk_SHED_MODE k) && !(group c k).dropFired
      && decide ((group c k).annAt + 400000 * c.rd (F.LEG_Gk_SHED_ANNTO k) ≤ t.tick) then
    raise t 0x03 0x02 k (withdrawShed t k c)
  else c

/-! ### Step Catch (R76–R78, R84) -/

/-- A condition counts as true: it holds, or held no longer than COINC × 10 ns ago (R76). -/
def countsTrue (t : Time) (c : Chip) (k : Nat) (on : Bool) (ended : Option Nat) : Bool :=
  on || (ended.map fun e => decide (t.tick ≤ e + 4 * c.rd (F.CMP_SCk_CFG_COINC k))).getD false

/-- A condition of group `k` has newly become true (R76): with the other counting as true, Step Catch fires in the next
tick; during a catch or holdoff the detection is counted, with kind 0x04 once for the catch. -/
def stepDetect (t : Time) (k : Nat) (c : Chip) : Chip :=
  let g := group c k
  if c.flag (F.CMP_SCk_CFG_EN k) && countsTrue t c k g.depthOn g.depthEnd && countsTrue t c k g.slopeOn g.slopeEnd then
    if c.flag (F.LEG_Gk_STAT_CATCH k) || c.flag (F.LEG_Gk_STAT_HOLDOFF k) then
      let c := c.count (F.LEG_Gk_STAT_HOLDCNT k)
      if g.holdEp then c
      else irq t 0x0D 3 (raise t 0x05 0x04 k (modGroup k (fun g => { g with holdEp := true }) c))
    else modGroup k (fun g => { g with armed := true }) c
  else c

/-- A leg takes part in a catch on GL (`low`) or GH at the instant `now` (R77): the catch time of a switch that is already on
runs from now; of one that a limit keeps low, from where it would have turned on. -/
def LegSt.intoCatch (now : Nat) (low : Bool) (s : LegSt) : LegSt :=
  let on := if low then s.gl else s.gh
  let lim := if low then s.glLim else s.ghLim
  { s with
    catchOn := true
    catchTo := if on then now + s.drive.tcatch else if lim then now + (if low then s.drive.dtl else s.drive.dth) + s.drive.tcatch else 0 }

/-- STEP_CATCH_FIRE: every leg of the group takes part but those held off; an announced shed is aborted with LEG kind
0x01 and shedding frozen; pending drops and adds lapse; CMP kind 0x02 (R76, R77, R84). -/
def stepCatchFire (t : Time) (k : Nat) (c : Chip) : Chip :=
  let was := c
  let g := group c k
  if groupOn c k && g.armed && countsTrue t c k g.depthOn g.depthEnd && countsTrue t c k g.slopeOn g.slopeEnd && c.flag (F.LEG_Gk_CATCH_EN k) && !c.flag (F.LEG_Gk_STAT_CATCH k)
      && !c.flag (F.LEG_Gk_STAT_HOLDOFF k) then
    let shed := c.flag (F.LEG_Gk_STAT_SHEDANN k)
    let low := c.flag (F.LEG_Gk_CATCH_SW k)
    let c := modGroup k (fun g => { g with armed := false, holdEp := false, addPend := 0, dropFired := false }) c
    let c := (c.wrB (F.LEG_Gk_STAT_CATCH k) true).count (F.LEG_Gk_STAT_CATCHCNT k)
    let c := c.forAll (groupLegs c k) fun l c =>
      if legHeld c l then c else modLeg l (fun _ => (legNow t was l).intoCatch (16 * t.tick) low) c
    let c := if shed then raise t 0x03 0x01 k ((withdrawShed t k c).wrB (F.LEG_Gk_STAT_SHEDFRZ k) true) else c
    raise t 0x05 0x02 k c
  else c

/-- STEP_CATCH_END: once the catch of every leg has ended, all phases return, holdoff and the shedding freeze start (R78). -/
def stepCatchEnd (t : Time) (k : Nat) (c : Chip) : Chip :=
  if c.flag (F.LEG_Gk_STAT_CATCH k) && (groupLegs c k).all (fun l => !(legNow t c l).catchOn) then
    let c := ((c.wrB (F.LEG_Gk_STAT_CATCH k) false).wrB (F.LEG_Gk_STAT_HOLDOFF k) true).wrB (F.LEG_Gk_STAT_SHEDFRZ k) true
    let c := modGroup k (fun g => { g with endAt := t.tick }) c
    irq t 0x0B 0 (phasesChanged k (c.rd (F.LEG_Gk_CFG_NLEG k)) c)
  else c

/-- CATCH_HOLDOFF_END: HOLDOFF µs have passed since the catch ended (R78). -/
def holdoffEnd (t : Time) (k : Nat) (c : Chip) : Chip :=
  if t.tick < (group c k).endAt + 400 * c.rd (F.LEG_Gk_CATCH_HOLDOFF k) then c else
  modGroup k (fun g => { g with holdEp := false }) (c.wrB (F.LEG_Gk_STAT_HOLDOFF k) false)

/-- SHED_FREEZE_END: SHED.HOLD ms have passed since the catch ended (R78). -/
def freezeEnd (t : Time) (k : Nat) (c : Chip) : Chip :=
  if c.flag (F.LEG_Gk_STAT_CATCH k) || decide (t.tick < (group c k).endAt + 400000 * c.rd (F.LEG_Gk_SHED_HOLD k)) then c else c.wrB (F.LEG_Gk_STAT_SHEDFRZ k) false

/-! ### Commits (R60, R62, R79) -/

/-- The row of R60 for an enabled group, and R62, R79: the offset within the group that breaks them. -/
def judgeGroup (c : Chip) (k : Nat) : Option Nat :=
  let topo := c.rd (F.LEG_Gk_CFG_TOPO k)
  let first := c.rd (F.LEG_Gk_CFG_FIRST k)
  let n := c.rd (F.LEG_Gk_CFG_NLEG k)
  let mode := c.rd (F.LEG_Gk_CFG_MODE k)
  let shed := c.flag (F.LEG_Gk_SHED_EN k)
  let catch_ := c.flag (F.LEG_Gk_CATCH_EN k)
  let ok := match topo with
    | 0 => true
    | 1 => n == 3 && [0, 3, 6, 9].contains first && mode == 1
    | 2 => decide (2 ≤ n) && decide (n ≤ 6) && decide (mode ≤ 1)
    | 3 => n == 4 && [0, 2, 6, 8].contains first && mode == 2
    | 4 => decide (2 ≤ n) && decide (n ≤ 8) && decide (mode ≤ 1)
    | _ => false
  let cmax := divEven ((c.rd (F.LEG_Gk_DLIM_MAXD k) * c.rd (F.LEG_Gk_PER_PER k) : Nat) : Int) 65536
  let dead := (groupLegs c k).any fun l =>
    decide ((c.rd (F.LEG_Gk_PER_PER k) : Int) - cmax
      < (c.rd (F.LEG_Gk_DLIM_MINPW k) * 16 + c.rd (F.LEG_Ln_DT_DTH l) + c.rd (F.LEG_Ln_DT_DTL l) : Nat))
  if topo = 0 then none
  else if !ok then some 0x00
  else if (topo = 1 ∨ topo = 3) ∧ shed then some 0x10
  else if (topo = 1 ∨ topo = 3) ∧ catch_ then some 0x18
  else if dead then some 0x08
  else if shed ∧ (c.rd (F.LEG_Gk_SHEDTH_ADD k) * (n - 1) ≤ c.rd (F.LEG_Gk_SHEDTH_DROP k) * n) then some 0x14
  else if shed ∧ (n ≤ c.rd (F.LEG_Gk_SHED_MINPH k)) then some 0x10
  else if (shed ∨ c.flag (F.LEG_Gk_BAL_BALEN k)) ∧ 16 < c.rd (F.LEG_Gk_BAL_BALFIN k) + n then some 0x0C
  else none

/-- The refusals of a LEG commit from `was` to `c` (R60, R62, R79): allocation over every group in use, no change of TOPO,
FIRST or NLEG of an enabled group, and the rows for enabled groups. -/
def judgeLeg (was c : Chip) : Option Nat :=
  let base := fun k => 0x40 + 0x40 * k
  let used := (List.range 6).filter fun k => c.rd (F.LEG_Gk_CFG_TOPO k) != 0
  let alloc := used.find? fun k =>
    decide (12 < c.rd (F.LEG_Gk_CFG_FIRST k) + c.rd (F.LEG_Gk_CFG_NLEG k))
      || used.any fun j => decide (j < k) && (groupLegs c k).any (groupLegs c j).contains
  let frozen := (List.range 6).find? fun k => was.flag (F.LEG_Gk_CFG_EN k)
    && (was.rd (F.LEG_Gk_CFG_TOPO k) != c.rd (F.LEG_Gk_CFG_TOPO k)
      || was.rd (F.LEG_Gk_CFG_FIRST k) != c.rd (F.LEG_Gk_CFG_FIRST k)
      || was.rd (F.LEG_Gk_CFG_NLEG k) != c.rd (F.LEG_Gk_CFG_NLEG k))
  let code := (List.range 6).find? fun k => c.flag (F.LEG_Gk_CFG_EN k) && decide (5 ≤ c.rd (F.LEG_Gk_CFG_TOPO k))
  let rows := ((List.range 6).filter fun k => c.flag (F.LEG_Gk_CFG_EN k)).findSome? fun k =>
    (judgeGroup c k).map (base k + ·)
  ((code.map base).or (alloc.map base)).or ((frozen.map base).or rows)

/-- What an applied LEG commit does beside its registers: groups start and stop (R66), and where no balance is kept there are no
trims (R82). -/
def legCommitted (t : Time) (was c : Chip) : Chip :=
  legStatus (c.forAll (List.range 6) fun k c =>
    let a := was.flag (F.LEG_Gk_CFG_EN k)
    let b := c.flag (F.LEG_Gk_CFG_EN k)
    let c := if a == b then c else setGroup t k b c
    if c.flag (F.LEG_Gk_BAL_BALEN k) then c
    else c.forAll (groupLegs c k) fun l c => modLeg l (fun s => { s with trim := 0 }) c)

end Sys2Proof.Machine
end

