-- ==== Sys2Proof/Machine/Sensing.lean ====
section
/-! DEFINITION. AFE and CMP: fast and slow inputs, the open-wire test, comparators, trips and chatter (R67–R76). -/

namespace Sys2Proof.Machine

/-! ### Fast inputs -/

/-- The hidden state of FINn. -/
def fin (c : Chip) (n : Nat) : Fin16 := Tab.get {} c.fins n

/-- The hidden state of FINn changes by `f`. -/
def modFin (n : Nat) (f : Fin16 → Fin16) (c : Chip) : Chip := { c with fins := Tab.upd {} c.fins n f }

/-- The hidden state of SINn. -/
def sin (c : Chip) (n : Nat) : Sin32 := Tab.get {} c.sins n

/-- The hidden state of SINn changes by `f`. -/
def modSin (n : Nat) (f : Sin32 → Sin32) (c : Chip) : Chip := { c with sins := Tab.upd {} c.sins n f }

/-- The instant at the middle of two sampling instants, to the nearest tick below (R67, R69); the angle between them is
taken as linear. -/
def middle (a b : Samp) : Samp :=
  let m := (a.tick + b.tick) / 2
  ⟨m, a.acc + BitVec.ofNat 80 ((b.acc - a.acc).toNat * (m - a.tick) / max 1 (b.tick - a.tick))⟩

/-- The instant at tick `at_`, before or after the present one, its angle by the present increment. -/
def instant (t : Time) (at_ : Nat) (c : Chip) : Samp :=
  if !t.running then ⟨at_, 0⟩
  else if t.tick ≤ at_ then ⟨at_, t.acc + BitVec.ofNat 80 ((at_ - t.tick) * effInc c)⟩
  else ⟨at_, t.acc - BitVec.ofNat 80 ((t.tick - at_) * effInc c)⟩

/-- FINn samples at tick `at_`, or at the 100 ns mark after its previous sampling instant when the trigger comes before it (R67). -/
def finSample (t : Time) (n at_ : Nat) (c : Chip) : Chip :=
  modFin n (fun s =>
    let at_ := if s.lastAt = 0 then at_ else max at_ (s.lastAt + 40)
    { s with flight := s.flight ++ [instant t at_ c], lastAt := at_ }) c

/-- A trigger at tick `at_` starts the 2^AVG conversions of a reading, 100 ns apart (R67). -/
def finBurst (t : Time) (n at_ : Nat) (c : Chip) : Chip :=
  c.forAll (List.range (2 ^ c.rd (F.AFE_FINn_CFG_AVG n))) fun _ c => finSample t n at_ c

/-- A point of group `k` has come, the period boundary or PER/2: it triggers the inputs placed at it, DELAY × 2.5 ns later (R67). -/
def finPoints (t : Time) (k : Nat) (half : Bool) (c : Chip) : Chip :=
  c.forAll ((List.range 16).filter fun n => c.flag (F.AFE_FINn_CFG_EN n) && c.rd (F.AFE_FINn_CFG_TRIG n) == 1
      && c.rd (F.AFE_FINn_CFG_GROUP n) == k && c.flag (F.AFE_FINn_CFG_POINT n) == half) fun n c =>
    modFin n (fun s => { s with points := s.points ++ [t.tick + c.rd (F.AFE_FINn_CFG_DELAY n)] }) c

/-- FAST_CONVERSION_START: an input placed at a point of a group is triggered once for each, no earlier than the point; a
continuous input samples each time; one that a schedule action triggers is not triggered so (R67). -/
def finStart (t : Time) (n : Nat) (c : Chip) : Chip :=
  if !c.flag (F.AFE_FINn_CFG_EN n) then c
  else match c.rd (F.AFE_FINn_CFG_TRIG n), (fin c n).points with
    | 1, at_ :: rest => if at_ ≤ t.tick then finBurst t n at_ (modFin n (fun s => { s with points := rest }) c) else c
    | 3, _ => finSample t n t.tick c
    | _, _ => c

/-- The calibrated value sat14(round((raw − OFS) × GAIN / 16,384)), half to even (R68). -/
def calibrate (c : Chip) (n : Nat) (raw : Int) : Int :=
  clampI (-8192) 8191 (divEven ((raw - c.rdI (F.AFE_FINn_CAL_OFS n)) * c.rd (F.AFE_FINn_CAL_GAIN n)) 16384)

/-- Overrange episode of an input (R68, R86): an end code on OVRCNT conversions in a row starts one; any other code ends
it. The answer: run length, episode, and whether it starts now. -/
def ovrStep (c : Chip) (isEnd : Bool) (run : Nat) (ep : Bool) : Nat × Bool × Bool :=
  if isEnd then
    let run := run + 1
    let start := !ep && decide (c.rd F.AFE_CTL_OVRCNT ≤ run)
    (run, ep || start, start)
  else (0, false, false)

/-- The slope condition of every detector on input `n` after a reading: s[m] − s[m − WIN] ≤ −SLOPE (R76). The latest
readings are newest first. -/
def slopeUpdate (t : Time) (n : Nat) (c : Chip) : Chip :=
  c.forAll ((List.range 6).filter fun k => c.flag (F.CMP_SCk_CFG_EN k) && c.rd (F.CMP_SCk_CFG_SLOPEFIN k) == n) fun k c =>
    let h := (fin c n).hist
    let w := c.rd (F.CMP_SCk_CFG_WIN k)
    let met := decide (w < h.length) && decide (h.getD 0 0 - h.getD w 0 ≤ -((c.rd (F.CMP_SCk_SLOPE_SLOPE k) : Nat) : Int))
    if met then stepDetect t k (modGroup k (fun g => { g with slopeOn := true, slopeEnd := none }) c)
    else modGroup k (fun g => { g with slopeOn := false, slopeEnd := if g.slopeOn then some t.tick else g.slopeEnd }) c

/-- FAST_READING_READY: a conversion of FINn gives `raw`. With AVG = a the mean of 2^a raw codes, half to even, is
calibrated once (R67, R68); the data register, the waves and the slope detectors take the reading. The answer tells
whether a reading was delivered. -/
def finReady (t : Time) (n : Nat) (raw : Int) (c : Chip) : Chip × Bool :=
  let s := fin c n
  match s.flight with
  | [] => (c, false)
  | smp :: flight =>
    let first := if s.n = 0 then smp else s.first
    let (run, ep, start) := ovrStep c (raw == -8192 || raw == 8191) s.run s.ep
    let m := 2 ^ c.rd (F.AFE_FINn_CFG_AVG n)
    let sum := s.sum + raw
    let anyEp := s.anyEp || ep
    let c := if start then irq t 0x0C 2 (raise t 0x04 0x04 n c) else c
    if s.n + 1 < m then
      (modFin n (fun s => { s with flight := flight, first := first, sum := sum, n := s.n + 1, run := run, ep := ep, anyEp := anyEp }) c, false)
    else
      let v := calibrate c n (divEven sum m)
      let c := modFin n (fun s => { s with flight := flight, sum := 0, n := 0, run := run, ep := ep, anyEp := false,
                                           smp := middle first smp,
                                           hist := (v :: s.hist).take 16 }) c
      let c := c.wr (F.AFE_FINn_DATA_SEQ n) (c.rd (F.AFE_FINn_DATA_SEQ n) + 1)
      let c := (c.wrB (F.AFE_FINn_DATA_OVR n) anyEp).wrB (F.AFE_FINn_DATA_OPEN n) (bit (c.rd F.AFE_OWSTAT_F_OPEN) n)
      let c := feedWaves n v (c.wrI (F.AFE_FINn_DATA_VALUE n) v)
      (slopeUpdate t n c, true)

/-! ### Slow inputs -/

/-- The angle-clock inputs that converter `j` serves first, and its other enabled inputs (R69). -/
def servedSet (c : Chip) (j : Nat) : List Nat × List Nat :=
  let all := (List.range 8).map (· + 8 * j)
  let b := c.rd F.ANG_CTL_SINBASE
  let ang := if angUsesSin c then all.filter fun n => decide (b ≤ n) && decide (n ≤ b + 2) else []
  (ang, all.filter fun n => c.flag (F.AFE_SINn_CFG_EN n) && !ang.contains n)

/-- The next slot of converter `j` (R69): at slot 0 the served set is formed anew, and with a change of it the averaging runs
start again; the angle-clock inputs come first, then the round goes on over the others and across frames. A change of the set interrupts the
runs of all eight inputs of the converter (log 28). The answer is the input converted in this slot. -/
def nextSlow (j : Nat) (c : Chip) : Chip × Option Nat :=
  let v := Tab.get ({} : SlowConv) c.convs j
  let fresh := v.slot == 0 && servedSet c j != (v.ang, v.rest)
  let c := if fresh then c.forAll ((List.range 8).map (· + 8 * j)) fun n =>
      modSin n fun s => { s with sum := 0, n := 0, anyEp := false } else c
  let v := if fresh then { v with ang := (servedSet c j).1, rest := (servedSet c j).2, pos := 0 } else v
  let slot' := (v.slot + 1) % 20
  if v.slot < v.ang.length then
    ({ c with convs := Tab.set {} c.convs j { v with slot := slot' } }, v.ang[v.slot]?)
  else if v.rest.isEmpty then ({ c with convs := Tab.set {} c.convs j { v with slot := slot' } }, none)
  else
    ({ c with convs := Tab.set {} c.convs j { v with slot := slot', pos := (v.pos + 1) % v.rest.length } },
     v.rest[v.pos % v.rest.length]?)

/-- A conversion of SINn gives `code`: averaging over 2^AVG, the overrange episode with kind 0x08, the data register, the
waves (R69, R86). -/
def sinReady (t : Time) (n code : Nat) (c : Chip) : Chip :=
  let s := sin c n
  let (run, ep, start) := ovrStep c (code == 0 || code == 65535) s.run s.ep
  let m := 2 ^ c.rd (F.AFE_SINn_CFG_AVG n)
  let sum := s.sum + code
  let anyEp := s.anyEp || ep
  let c := if start then irq t 0x0C 2 (raise t 0x04 0x08 n c) else c
  let now : Samp := ⟨t.tick - 400, if t.running then t.acc - BitVec.ofNat 80 (400 * effInc c) else 0⟩
  let first := if s.n = 0 then now else s.first
  if s.n + 1 < m then
    modSin n (fun s => { s with sum := sum, n := s.n + 1, run := run, ep := ep, anyEp := anyEp, first := first }) c
  else
    let v := (divEven sum m).toNat
    let c := modSin n (fun s => { s with
      sum := 0, n := 0, run := run, ep := ep, anyEp := false, first := first, smp := middle first now }) c
    let c := c.wr (F.AFE_SINn_DATA_SEQ n) (c.rd (F.AFE_SINn_DATA_SEQ n) + 1)
    let c := (c.wrB (F.AFE_SINn_DATA_OVR n) anyEp).wrB (F.AFE_SINn_DATA_OPEN n) (bit (c.rd F.AFE_OWSTAT_S_OPEN) n)
    feedWaves (0x40 + n) v (feedWaves (0x20 + n) v (c.wr (F.AFE_SINn_DATA_VALUE n) v))

/-- SLOW_CONVERSION: one slot of converter `j` ends with `code` (R69); when it completes a set of three line voltages,
the PLL computes (R39). -/
def slowConversion (t : Time) (j code : Nat) (c : Chip) : Chip :=
  let c := { c with convs := Tab.upd {} c.convs j fun v => { v with at_ := some t.tick } }
  match nextSlow j c with
  | (c, none) => c
  | (c, some n) => pllSample t n (sinReady t n code c)

/-! ### Open-wire test (R70) -/

/-- Counts of failing and passing tests in a row, and whether the input is declared open now or cleared now. -/
def owStep (fail : Bool) (was : Bool) (fails passes : Nat) : Nat × Nat × Bool :=
  if fail then (fails + 1, 0, was || decide (2 ≤ fails + 1)) else (0, passes + 1, was && decide (passes + 1 < 2))

/-- OWPER ms have passed since the last test of an input, made at tick `last` (R70). -/
def owDue (t : Time) (c : Chip) (last : Nat) : Bool := decide (last + 400000 * c.rd F.AFE_CTL_OWPER ≤ t.tick)

/-- No trigger of FINn falls within 200 ns of the present tick (R70). -/
def owQuiet (t : Time) (c : Chip) (n : Nat) : Bool :=
  (fin c n).points.all (fun p => decide (t.tick + 80 < p) || decide (p + 80 < t.tick))
    && (c.rd (F.AFE_FINn_CFG_TRIG n) == 3 || (fin c n).lastAt == 0 || decide ((fin c n).lastAt + 80 < t.tick))

/-- OPEN_WIRE_TEST of a fast or slow input whose code moved by `moved`, once per OWPER ms (R70). -/
def openWireTest (t : Time) (fast : Bool) (n moved : Nat) (c : Chip) : Chip :=
  if c.rd F.AFE_CTL_OWPER = 0 then c
  else if fast then
    if !c.flag (F.AFE_FINn_CFG_OW n) || !owDue t c (fin c n).owAt || !owQuiet t c n then c
    else
      let was := bit (c.rd F.AFE_OWSTAT_F_OPEN) n
      let s := fin c n
      let (f, p, o) := owStep (decide (c.rd F.AFE_OWTHR_FTHR < moved)) was s.owFail s.owPass
      let c := modFin n (fun s => { s with owFail := f, owPass := p, owAt := t.tick }) (c.wrR R.AFE_OWSTAT_F (setBit (c.rd F.AFE_OWSTAT_F_OPEN) n o))
      if o && !was then irq t 0x0C 0 (raise t 0x04 0x01 n c) else c
  else if !c.flag (F.AFE_SINn_CFG_OW n) || !owDue t c (sin c n).owAt then c
  else
    let was := bit (c.rd F.AFE_OWSTAT_S_OPEN) n
    let s := sin c n
    let (f, p, o) := owStep (decide (c.rd F.AFE_OWTHR_STHR < moved)) was s.owFail s.owPass
    let c := modSin n (fun s => { s with owFail := f, owPass := p, owAt := t.tick }) (c.wrR R.AFE_OWSTAT_S (setBit (c.rd F.AFE_OWSTAT_S_OPEN) n o))
    if o && !was then irq t 0x0C 1 (raise t 0x04 0x02 n c) else c

/-! ### Comparators -/

/-- The hidden state of CMPn. -/
def cmpSt (c : Chip) (n : Nat) : CmpSt := Tab.get {} c.cmps n

/-- The hidden state of CMPn changes by `f`. -/
def modCmp (n : Nat) (f : CmpSt → CmpSt) (c : Chip) : Chip := { c with cmps := Tab.upd {} c.cmps n f }

/-- The chatter window of comparator `n` is over (R74). -/
def windowLapsed (t : Time) (c : Chip) (n : Nat) : Bool := decide ((cmpSt c n).winAt + 400 * c.rd F.CMP_CHAT_WIN ≤ t.tick)

/-- STAT.EDGES counts the edges of the present window: none once it is over (R89). -/
def showEdges (t : Time) (c : Chip) : Chip :=
  c.forAll ((List.range 24).filter fun n => windowLapsed t c n) fun n c => c.wr (F.CMP_Cn_STAT_EDGES n) 0

/-- An output edge of a comparator that does not limit enters the count of the present window; the first edge after a window
begins the next (R72, R74, log 28). -/
def countEdge (t : Time) (n : Nat) (c : Chip) : Chip :=
  if c.rd (F.CMP_Cn_TM_ACT n) ≠ 1 then
    let c := if windowLapsed t c n then (modCmp n (fun s => { s with winAt := t.tick }) c).wr (F.CMP_Cn_STAT_EDGES n) 0 else c
    c.count (F.CMP_Cn_STAT_EDGES n)
  else c

/-- A latched trip: the latch bit sets, kind 0x01 once, the named legs are off (R74). -/
def latchTrip (t : Time) (n : Nat) (c : Chip) : Chip :=
  if bit (c.rd F.CMP_LATCH_LATCH) n then c
  else
    let c := (c.wrR R.CMP_LATCH (setBit (c.rd F.CMP_LATCH_LATCH) n true)).wrB (F.CMP_Cn_STAT_LATCHED n) true
    let c := modCmp n (fun s => { s with legs := c.rd (F.CMP_Cn_TM_LEGS n) }) c
    legStatus (raise t 0x05 0x01 n (irq t 0x0D 0 c))

/-- The depth condition of the detectors on comparator `n` (R76). -/
def depthUpdate (t : Time) (n : Nat) (on : Bool) (c : Chip) : Chip :=
  c.forAll ((List.range 6).filter fun k => c.flag (F.CMP_SCk_CFG_EN k) && c.rd (F.CMP_SCk_CFG_DEPTHCMP k) == n) fun k c =>
    if on then stepDetect t k (modGroup k (fun g => { g with depthOn := true, depthEnd := none }) c)
    else modGroup k (fun g => { g with depthOn := false, depthEnd := if g.depthOn then some t.tick else g.depthEnd }) c

/-- The depth condition no longer counts as true: its comparator is held released (R74, R76). -/
def depthLost (n : Nat) (c : Chip) : Chip :=
  c.forAll ((List.range 6).filter fun k => c.rd (F.CMP_SCk_CFG_DEPTHCMP k) == n) fun k c =>
    modGroup k (fun g => { g with armed := false, depthOn := false, depthEnd := none }) c

/-- The threshold (THR − 512) × 2 mV of comparator `n`, in µV (R71). -/
def threshold (c : Chip) (n : Nat) : Int := ((c.rd (F.CMP_Cn_THR_THR n) : Int) - 512) * 2000

/-- The voltage at FIN(SRC) is beyond the threshold, above it or with POL below it, and has been for DEGL × 2.5 ns (R71). -/
def seenAssert (c : Chip) (e : CmpSeen) : Bool :=
  (if c.flag (F.CMP_Cn_CFG_POL e.n) then decide (e.pin < threshold c e.n) else decide (threshold c e.n < e.pin))
    && decide (c.rd (F.CMP_Cn_CFG_DEGL e.n) ≤ e.held)

/-- The voltage at FIN(SRC) has come back to the threshold less HYST × 4 mV, with POL plus it (R71). -/
def seenRelease (c : Chip) (e : CmpSeen) : Bool :=
  let h : Int := 4000 * c.rd (F.CMP_Cn_CFG_HYST e.n)
  if c.flag (F.CMP_Cn_CFG_POL e.n) then decide (threshold c e.n + h ≤ e.pin) else decide (e.pin ≤ threshold c e.n - h)

/-- COMPARATOR_ASSERT after the deglitch time: the trip-matrix action acts (R71–R74, R76); a held clear lapses (R74). A limit
acts on the gates by the asserted output. -/
def cmpAssert (t : Time) (n : Nat) (c : Chip) : Chip :=
  if c.flag (F.CMP_Cn_CFG_EN n) && !c.flag (F.CMP_Cn_STAT_OUT n) then
    let c := countEdge t n (c.wrB (F.CMP_Cn_STAT_OUT n) true)
    let c := modCmp n (fun s => { s with heldClear := false, outAt := t.tick }) c
    match c.rd (F.CMP_Cn_TM_ACT n) with
    | 2 => latchTrip t n c
    | 3 => if c.flag (F.CMP_Cn_STAT_HELD n) then c else depthUpdate t n true c
    | _ => c
  else c

/-- COMPARATOR_RELEASE (R71). -/
def cmpRelease (t : Time) (n : Nat) (c : Chip) : Chip :=
  if c.flag (F.CMP_Cn_STAT_OUT n) then
    let c := countEdge t n (c.wrB (F.CMP_Cn_STAT_OUT n) false)
    let c := modCmp n (fun s => { s with relAt := t.tick }) c
    if c.rd (F.CMP_Cn_TM_ACT n) = 3 then depthUpdate t n false c else c
  else c

/-- A clear takes effect: the latch and the safe state end (R74). -/
def applyClear (n : Nat) (c : Chip) : Chip :=
  let c := c.wrR R.CMP_LATCH (setBit (c.rd F.CMP_LATCH_LATCH) n false)
  let c := ((c.wrB (F.CMP_Cn_STAT_LATCHED n) false).wrB (F.CMP_Cn_STAT_HELD n) false).wrB (F.CMP_Cn_STAT_CHAT n) false
  legStatus (modCmp n (fun s => { s with heldClear := false, stuckEp := false, legs := 0 }) c)

/-- One bit of a write to CMP_TRIPCLR: ignored with kind 0x20 once while the output is asserted; applied when the input has
stayed released for the deglitch time; else held (R74). -/
def tripClear1 (t : Time) (n : Nat) (c : Chip) : Chip :=
  if !bit (c.rd F.CMP_LATCH_LATCH) n then c
  else if c.flag (F.CMP_Cn_STAT_OUT n) then
    if (cmpSt c n).stuckEp then c
    else irq t 0x0D 2 (raise t 0x05 0x20 n (modCmp n (fun s => { s with stuckEp := true }) c))
  else if (cmpSt c n).relAt + c.rd (F.CMP_Cn_CFG_DEGL n) ≤ t.tick then applyClear n c
  else modCmp n (fun s => { s with heldClear := true }) c

/-- TRIP_CLEAR: a write of CMP_TRIPCLR (R74). -/
def tripClear (t : Time) (v : Nat) (c : Chip) : Chip := c.forAll (bitsOf 24 v) (tripClear1 t)

/-- The input of comparator `n` has stayed released for its deglitch time (R74). -/
def stayedReleased (t : Time) (c : Chip) (n : Nat) : Bool :=
  !c.flag (F.CMP_Cn_STAT_OUT n) && decide ((cmpSt c n).relAt + c.rd (F.CMP_Cn_CFG_DEGL n) ≤ t.tick)

/-- HELD_CLEAR_APPLY (R74). -/
def heldClearApply (t : Time) (n : Nat) (c : Chip) : Chip :=
  if (cmpSt c n).heldClear && stayedReleased t c n then applyClear n c else c

/-- CHATTER_DETECTED: more than COUNT edges in the window; kind 0x10 once, and the safe state: a latched trip held
tripped, a depth input held released (R74). -/
def cmpChatter (t : Time) (n : Nat) (c : Chip) : Chip :=
  if 2 ≤ c.rd (F.CMP_Cn_TM_ACT n) && decide (c.rd F.CMP_CHAT_COUNT < c.rd (F.CMP_Cn_STAT_EDGES n))
      && !c.flag (F.CMP_Cn_STAT_CHAT n) then
    let c := (c.wrB (F.CMP_Cn_STAT_CHAT n) true).wrB (F.CMP_Cn_STAT_HELD n) true
    let c := c.wrR R.CMP_LATCH (setBit (c.rd F.CMP_LATCH_LATCH) n true)
    let c := if c.rd (F.CMP_Cn_TM_ACT n) = 3 then depthLost n c
      else modCmp n (fun s => { s with legs := c.rd (F.CMP_Cn_TM_LEGS n) }) c
    legStatus (raise t 0x05 0x10 n (irq t 0x0D 2 c))
  else c

/-! ### The limits of a period (R73) -/

/-- Consecutive limited periods of leg `l` by comparator `n`. -/
def limRun (c : Chip) (n l : Nat) : Nat := Tab.get 0 c.limRuns (16 * n + l)

/-- The legs of group `k` on which comparator `n` has limited in the period that ends. -/
def limitedLegs (c : Chip) (n k : Nat) : List Nat :=
  (groupLegs c k).filter fun l => c.rd (F.CMP_Cn_TM_ACT n) == 1 && bit (c.rd (F.CMP_Cn_TM_LEGS n)) l && bit (leg c l).limBy n

/-- At the boundary of group `k`: the runs of limited periods, LIMRUN, LEG_Ln_STAT.LIMIT, and kind 0x08 once per episode of
a comparator (R73). -/
def limitPeriod (t : Time) (k : Nat) (c : Chip) : Chip :=
  let c := c.forAll (groupLegs c k) fun l c => c.wrB (F.LEG_Ln_STAT_LIMIT l) ((leg c l).limBy != 0)
  c.forAll ((List.range 24).filter fun n => c.rd (F.CMP_Cn_TM_ACT n) == 1
      && (groupLegs c k).any (bit (c.rd (F.CMP_Cn_TM_LEGS n)))) fun n c =>
    let lim := limitedLegs c n k
    let c := c.forAll ((groupLegs c k).filter (bit (c.rd (F.CMP_Cn_TM_LEGS n)))) fun l c =>
      { c with limRuns := Tab.set 0 c.limRuns (16 * n + l) (if lim.contains l then limRun c n l + 1 else 0) }
    let run := ((bitsOf 12 (c.rd (F.CMP_Cn_TM_LEGS n))).map (limRun c n)).foldl max 0
    let c := c.wr (F.CMP_Cn_STAT_LIMRUN n) (min 255 run)
    if c.rd F.CMP_CHAT_LIMPERS ≤ run then
      if (cmpSt c n).limEp then c
      else irq t 0x0D 1 (raise t 0x05 0x08 n (modCmp n (fun s => { s with limEp := true }) c))
    else if run = 0 then modCmp n (fun s => { s with limEp := false }) c else c

/-- PWM_PERIOD_BOUNDARY of group `k` on LEG's side (R61, R65, R73, R79–R82): limits, phases that drop or join, trims, the
judgement of the load, and the new period's edges. -/
def periodBoundary (t : Time) (k : Nat) (c : Chip) : Chip :=
  if groupOn c k then
    let c := limitPeriod t k (c.forAll (groupLegs c k) (legSync t))
    let c := c.forAll (groupLegs c k) fun l c => modLeg l (fun s => { s with limBy := 0 }) c
    let c := if c.flag (F.LEG_Gk_STAT_CATCH k) then c else applyPhases t k c
    let c := judgeShed t k (balanceTrim k c)
    startPeriod t k c
  else c

/-! ### Commits -/

/-- The refusals of an AFE commit beside the ranges (R67): a group above 5. -/
def judgeAfe (c : Chip) : Option Nat :=
  ((List.range 16).find? fun n => c.flag (F.AFE_FINn_CFG_EN n) && decide (5 < c.rd (F.AFE_FINn_CFG_GROUP n))
    && c.rd (F.AFE_FINn_CFG_TRIG n) == 1).map fun n => 0x100 + 0x10 * n

/-- The refusals of a CMP commit beside the ranges (R76): SLOPEFIN is not continuous with AVG 0, or DEPTHCMP has another
action than 0b11. A commit of AFE is not judged by it (log 28). -/
def judgeCmp (c : Chip) : Option Nat :=
  ((List.range 6).find? fun k => c.flag (F.CMP_SCk_CFG_EN k) &&
    (c.rd (F.AFE_FINn_CFG_TRIG (c.rd (F.CMP_SCk_CFG_SLOPEFIN k))) != 3
      || c.rd (F.AFE_FINn_CFG_AVG (c.rd (F.CMP_SCk_CFG_SLOPEFIN k))) != 0
      || decide (23 < c.rd (F.CMP_SCk_CFG_DEPTHCMP k))
      || c.rd (F.CMP_Cn_TM_ACT (c.rd (F.CMP_SCk_CFG_DEPTHCMP k))) != 3)).map fun k => 0x40 + 8 * k

/-- An applied CMP commit: a comparator switched off reads released; an asserted one whose action has become a latched trip
trips (R74); a detector whose registers have changed judges its conditions by what stands (R76). -/
def cmpCommitted (t : Time) (was c : Chip) : Chip :=
  let c := c.forAll (List.range 24) fun n c =>
    if !c.flag (F.CMP_Cn_CFG_EN n) then (if c.flag (F.CMP_Cn_STAT_OUT n) then cmpRelease t n c else c)
    else if c.flag (F.CMP_Cn_STAT_OUT n) && c.rd (F.CMP_Cn_TM_ACT n) == 2 && was.rd (F.CMP_Cn_TM_ACT n) != 2 then latchTrip t n c
    else c
  legStatus (c.forAll (List.range 6) fun k c =>
    if was.rdR (R.CMP_SCk_CFG k) = c.rdR (R.CMP_SCk_CFG k) ∧ was.rdR (R.CMP_SCk_SLOPE k) = c.rdR (R.CMP_SCk_SLOPE k) then c
    else if !c.flag (F.CMP_SCk_CFG_EN k) then
      modGroup k (fun g => { g with armed := false, depthOn := false, depthEnd := none, slopeOn := false, slopeEnd := none }) c
    else
      let d := c.rd (F.CMP_SCk_CFG_DEPTHCMP k)
      let h := (fin c (c.rd (F.CMP_SCk_CFG_SLOPEFIN k))).hist
      let w := c.rd (F.CMP_SCk_CFG_WIN k)
      let depth := c.flag (F.CMP_Cn_STAT_OUT d) && !c.flag (F.CMP_Cn_STAT_HELD d)
      let slope := decide (w < h.length) && decide (h.getD 0 0 - h.getD w 0 ≤ -((c.rd (F.CMP_SCk_SLOPE_SLOPE k) : Nat) : Int))
      stepDetect t k (modGroup k (fun g => { g with armed := false, depthOn := depth, depthEnd := none
                                                    slopeOn := slope, slopeEnd := none }) c))

/-- An applied AFE commit: an averaging run of an input switched on or off starts again (R69). -/
def afeCommitted (was c : Chip) : Chip :=
  let c := c.forAll (List.range 16) fun n c =>
    if was.rdR (R.AFE_FINn_CFG n) = c.rdR (R.AFE_FINn_CFG n) then c
    else modFin n (fun s => { s with flight := [], points := [], sum := 0, n := 0, anyEp := false }) c
  c.forAll (List.range 32) fun n c =>
    if was.rdR (R.AFE_SINn_CFG n) = c.rdR (R.AFE_SINn_CFG n) then c
    else modSin n (fun s => { s with sum := 0, n := 0, anyEp := false }) c

end Sys2Proof.Machine
end

