-- ==== Sys2Proof/Machine/Cen.lean ====
section
/-! DEFINITION. CEN: exact arithmetic, slot triggers, one iteration, loop groups, load intents, seeding, coefficient
memory, and the committed load (R90–R120, R515). -/

namespace Sys2Proof.Machine

/-! ### Words and arithmetic (R90–R92) -/

/-- Top of the signal range, of the accumulator range (R90). -/
def sigMax : Int := 2 ^ 31 - 1
@[inherit_doc sigMax] def accMax : Int := 2 ^ 55 - 1

/-- A value with the flag that it saturated on its way. -/
structure SatVal where
  v   : Int
  sat : Bool
  deriving DecidableEq, Repr

/-- Add into the accumulator, saturating (R91). -/
def accAdd (a : SatVal) (x : Int) : SatVal :=
  ⟨clampI (-accMax - 1) accMax (a.v + x), a.sat || decide (accMax < a.v + x) || decide (a.v + x < -accMax - 1)⟩

/-- Accumulate the terms of a list from a starting value, in order (R91). -/
def accSum (start : Int) (l : List Int) : SatVal := l.foldl accAdd ⟨start, false⟩

/-- Write-back of a value by `sh` bits: half to even, then saturated to the signal range (R92). -/
def writeBack (sh : Nat) (v : Int) : SatVal :=
  let q := divEven v (2 ^ sh)
  ⟨clampI (-sigMax - 1) sigMax q, decide (sigMax < q) || decide (q < -sigMax - 1)⟩

/-- What an iteration has saturated: the accumulator, a write-back. -/
structure SatFlags where
  acc : Bool := false
  wb  : Bool := false
  deriving DecidableEq, Repr

/-- The union of two sets of flags. -/
def SatFlags.join (a b : SatFlags) : SatFlags := ⟨a.acc || b.acc, a.wb || b.wb⟩

/-- A row: accumulate and write back (R94). -/
def rowWb (start : Int) (l : List Int) : Int × SatFlags :=
  let a := accSum start l
  let w := writeBack 20 a.v
  (w.v, ⟨a.sat, w.sat⟩)

/-- Rows in ascending order, with the union of their flags. -/
def rowsWb (n : Nat) (row : Nat → Int × SatFlags) : List Int × SatFlags :=
  let rs := (List.range n).map row
  (rs.map Prod.fst, rs.foldl (fun f r => f.join r.2) {})

/-! ### Memory (R115, R116) -/

/-- Key of a coefficient word. -/
def coefKey (s set off : Nat) : Nat := 2048 * s + 1024 * set + off

/-- A coefficient of slot `s`, set `set`: bits 23:0, two's complement (R115). -/
def coef (c : Chip) (s set off : Nat) : Int := toInt 24 (Tab.get 0 c.cenMem (coefKey s set off)).toNat

/-- A signal word of coefficient memory, UMIN and UMAX. -/
def coefSig (c : Chip) (s set off : Nat) : Int := toInt 32 (Tab.get 0 c.cenMem (coefKey s set off)).toNat

/-- A word of the state area of slot `s` (R115). -/
def stWord (c : Chip) (s off : Nat) : Int := toInt 32 (Tab.get 0 c.cenSt (32 * s + off)).toNat

/-- Words of the state area from `off` on become `l`. -/
def setStWords (s off : Nat) (l : List Int) (c : Chip) : Chip :=
  { c with cenSt := Tab.setMany 0 c.cenSt (32 * s + off) (l.map fun x => BitVec.ofInt 32 x) }

/-- The word a coefficient write stores: sign-extended, TSREC zero-extended, UMIN and UMAX whole (R115). -/
def coefStore (off v : Nat) : Word :=
  if off = 0x2A8 then BitVec.ofNat 32 (v % 2 ^ 24)
  else if 0x2A0 ≤ off ∧ off ≤ 0x2A7 then BitVec.ofNat 32 v
  else BitVec.ofInt 32 (toInt 24 v)

/-! ### Slots -/

/-- The hidden state of slot `s`. -/
def slot (c : Chip) (s : Nat) : Slot := Tab.get {} c.slots s

/-- The hidden state of slot `s` changes by `f`. -/
def modSlot (s : Nat) (f : Slot → Slot) (c : Chip) : Chip := { c with slots := Tab.upd {} c.slots s f }

/-- Slot `s` is enabled. -/
def slotOn (c : Chip) (s : Nat) : Bool := c.blockOn 0x0E && c.flag (F.CEN_LPs_CFG_EN s)

/-- Byte `j` of ODST: the FLOOR bit and the actuator code (R103). -/
def actuatorOf (c : Chip) (s j : Nat) : Nat := bits (c.rdR (R.CEN_LPs_ODST s)) (8 * j + 6) (8 * j)
@[inherit_doc actuatorOf] def isFloor (c : Chip) (s j : Nat) : Bool := bit (c.rdR (R.CEN_LPs_ODST s)) (8 * j + 7)

/-- The group that an actuator code drives (R103). -/
def groupOfActuator (c : Chip) (a : Nat) : Option Nat :=
  if 0x01 ≤ a ∧ a ≤ 0x0C then groupOfLeg c (a - 1)
  else if 0x10 ≤ a ∧ a ≤ 0x15 then some (a - 0x10)
  else if 0x18 ≤ a ∧ a ≤ 0x1D then some (a - 0x18)
  else none

/-- The slot has an output that drives group `k` (R112). -/
def drivesGroup (c : Chip) (s k : Nat) : Bool :=
  (List.range (c.rd (F.CEN_LPs_CFG_NIN s))).any fun j => groupOfActuator c (actuatorOf c s j) == some k

/-- A Step Catch runs in a group that the slot drives. -/
def slotCaught (c : Chip) (s : Nat) : Bool :=
  (List.range 6).any fun k => c.flag (F.LEG_Gk_STAT_CATCH k) && drivesGroup c s k

/-- A trigger is dropped and counted (R112). -/
def dropTrigger (s : Nat) (c : Chip) : Chip := c.count (F.CEN_LPs_CNT_DROP s)

/-- A trigger reaches slot `s` (R97): it waits, merges as an overrun with kind 0x01, is dropped during a catch (R112), or is
ignored. -/
def slotTrigger (t : Time) (s : Nat) (c : Chip) : Chip :=
  if !slotOn c s || sealOnly c then c
  else if slotCaught c s then dropTrigger s c
  else match (slot c s).waiting with
    | none => modSlot s (fun x => { x with waiting := some t.tick }) c
    | some _ =>
      let c := ((c.count F.CEN_OVR_COUNT).wr F.CEN_OVR_LAST s) |> setFlag t (F.CEN_LPs_STAT_OVR s)
      raise t 0x06 0x01 s (irq t 0x0E 0 c)

/-- Slots triggered by a PWM point of group `k` in the group's present period (R96). -/
def pwmTriggers (t : Time) (k : Nat) (half : Bool) (c : Chip) : Chip :=
  c.forAll ((List.range 32).filter fun s => c.rd (F.CEN_LPs_CFG_TRIG s) == 1 && c.rd (F.CEN_LPs_TRG_SRC s) == k
      && c.flag (F.CEN_LPs_TRG_POINT s) == half
      && (group c k).periods % (c.rd (F.CEN_LPs_TRG_DIV s) + 1) == c.rd (F.CEN_LPs_TRG_PHASE s)) (slotTrigger t)

/-- Slots triggered by a reading of FINn (R96). -/
def readyTriggers (t : Time) (n : Nat) (c : Chip) : Chip :=
  c.forAll ((List.range 32).filter fun s => c.rd (F.CEN_LPs_CFG_TRIG s) == 3 && c.rd (F.CEN_LPs_TRG_SRC s) == n)
    (slotTrigger t)

/-- CEN_HOST_TRIGGER: a write of CEN_HTRIG; within 100 µs of the slot's last host trigger it is deferred to that mark, and
a further one merges with the deferred one as an overrun (R96, R97). -/
def hostTriggers (t : Time) (v : Nat) (c : Chip) : Chip :=
  c.forAll ((bitsOf 32 v).filter fun s => slotOn c s && c.rd (F.CEN_LPs_CFG_TRIG s) == 4) fun s c =>
    let x := slot c s
    if x.deferred then
      raise t 0x06 0x01 s (irq t 0x0E 0
        (setFlag t (F.CEN_LPs_STAT_OVR s) ((c.count F.CEN_OVR_COUNT).wr F.CEN_OVR_LAST s)))
    else if (x.hostAt.map fun a => decide (t.tick < a + 40000)).getD false then
      modSlot s (fun x => { x with deferred := true }) c
    else slotTrigger t s (modSlot s (fun x => { x with hostAt := some t.tick }) c)

/-- DEFERRED_HOST_TRIGGER (R96). -/
def deferredTrigger (t : Time) (s : Nat) (c : Chip) : Chip :=
  if (slot c s).deferred && periodOver t 40000 (slot c s).hostAt then
    slotTrigger t s (modSlot s (fun x => { x with deferred := false, hostAt := some t.tick }) c)
  else c

/-- SEED_REQUEST: a write of CEN_SEED (R111). -/
def seedRequest (v : Nat) (c : Chip) : Chip :=
  c.forAll (bitsOf 32 v) fun s c => modSlot s (fun x => { x with seedDue := true }) c

/-- A Step Catch has fired in group `k`: the waiting triggers of its slots are dropped and counted, and what a running
iteration has still to give the group is discarded (R77, R78, R112). -/
def catchDrops (k : Nat) (c : Chip) : Chip :=
  let drop := fun (r : EngineRun) => { r with outs := r.outs.filter fun o => groupOfActuator c o.1 != some k }
  let c := { c with engine := c.engine.map drop }
  c.forAll ((List.range 32).filter fun s => (slot c s).waiting.isSome && drivesGroup c s k) fun s c =>
    dropTrigger s (modSlot s (fun x => { x with waiting := none }) c)

/-- A Step Catch has ended in group `k`: its slots are seeded (R78, R111). -/
def catchSeeds (k : Nat) (c : Chip) : Chip :=
  c.forAll ((List.range 32).filter fun s => slotOn c s && drivesGroup c s k) fun s c =>
    modSlot s (fun x => { x with seedDue := true }) c

/-! ### Measurements and references (R93, R101, R102) -/

/-- A source as a signal word before SCALE (R93, R101). -/
def sourceWord (c : Chip) (code : Nat) : Int :=
  if code ≤ 0x0F then c.rdI (F.AFE_FINn_DATA_VALUE code) * 2048
  else if 0x20 ≤ code ∧ code ≤ 0x3F then c.rd (F.AFE_SINn_DATA_VALUE (code - 0x20)) * 256
  else if 0x40 ≤ code ∧ code ≤ 0x5F then ((c.rd (F.AFE_SINn_DATA_VALUE (code - 0x40)) : Int) - 32768) * 512
  else if 0x80 ≤ code ∧ code ≤ 0xFE then slotOutput c (code - 0x80)
  else 0

/-- A measurement with its scale (R93). -/
def measure (c : Chip) (code : Nat) (scale : Int) : Int × SatFlags := rowWb 0 [sourceWord c code * scale]

/-- Byte `i` of YSRC0 and YSRC1. -/
def ysrc (c : Chip) (s i : Nat) : Nat :=
  if i < 4 then bits (c.rdR (R.CEN_LPs_YSRC0 s)) (8 * i + 7) (8 * i)
  else bits (c.rdR (R.CEN_LPs_YSRC1 s)) (8 * (i - 4) + 7) (8 * (i - 4))

/-- Byte `j` of RSRC. -/
def rsrc (c : Chip) (s j : Nat) : Nat := bits (c.rdR (R.CEN_LPs_RSRC s)) (8 * j + 7) (8 * j)

/-- A reference as a signal word (R102). -/
def reference (c : Chip) (code : Nat) : Int :=
  if code = 0x01 then 2 ^ 24
  else if 0x10 ≤ code ∧ code ≤ 0x15 then
    (if c.rd (F.LEG_Gk_CFG_TOPO (code - 0x10)) = 4 then c.rd (F.LEG_Gk_VREF_VREF (code - 0x10)) * 1024 else 0)
  else if 0x18 ≤ code ∧ code ≤ 0x1D then
    (if c.flag (F.LEG_Gk_THERM_TEN (code - 0x18)) then c.rd (F.LEG_Gk_THERM_TLIM (code - 0x18)) * 1024 else 0)
  else if 0x20 ≤ code ∧ code ≤ 0x67 then refOf c code
  else if 0x80 ≤ code then slotOutput c (code - 0x80)
  else 0

/-- The slot outputs that slot `s` names and that have not been produced since their slot was enabled: kind 0x40 once per
enable (R102). -/
def absentSources (t : Time) (s : Nat) (c : Chip) : Chip :=
  let codes := ((List.range (c.rd (F.CEN_LPs_CFG_NOUT s))).map (ysrc c s)).filter (· != 0xFF)
    ++ (List.range (c.rd (F.CEN_LPs_CFG_NREF s))).map (rsrc c s)
    ++ (if c.flag (F.CEN_LPs_CFG_GEN s) then [c.rd (F.CEN_LPs_TIM_FSRC s)].filter (· != 0xFF) else [])
  c.forAll (codes.filter (0x80 ≤ ·)) fun code c =>
    let src := (code - 0x80) / 4
    if bit (slot c src).produced (code % 4) || (slot c src).absentEp then c
    else raise t 0x06 0x40 src (modSlot src (fun x => { x with absentEp := true }) c)

/-- The engine's sine: within 2^−22 of exact, otherwise free (R102). -/
def engineSine (p : Nat) : Int :=
  let w := sineNear p + clampI (-4) 4 (Config.sineError (p % 2 ^ 24))
  if (w * 2 ^ 16 - sineFine p).natAbs ≤ 2 ^ 18 then w else sineNear p

/-- The rotation of R102: r[0] × sin(2π(θ + r[1])) and −r[0] × cos(2π(θ + r[1])), θ in bins. -/
def rotate (theta : Nat) (r0 r1 : Int) : (Int × Int) × SatFlags :=
  let p := (((theta * 256 : Nat) : Int) + r1) % (2 ^ 24 : Nat) |>.toNat
  let a := writeBack 24 (r0 * engineSine p)
  let b := writeBack 24 (-(r0 * engineSine (p + 2 ^ 22)))
  ((a.v, b.v), ⟨false, a.sat || b.sat⟩)

/-- The sampling instant of a source: a fast or slow reading's own; the present tick for the others (R105). -/
def sampleAt (t : Time) (c : Chip) (code : Nat) : Samp :=
  if code ≤ 0x0F then (fin c code).smp
  else if 0x20 ≤ code ∧ code ≤ 0x3F then (sin c (code - 0x20)).smp
  else if 0x40 ≤ code ∧ code ≤ 0x5F then (sin c (code - 0x40)).smp
  else ⟨t.tick, if t.running then t.acc else 0⟩

/-! ### One iteration (R94, R95, R99, R105) -/

/-- The cost of an iteration in engine cycles (R99). -/
def slotCost (c : Chip) (s : Nat) : Nat :=
  let n := c.rd (F.CEN_LPs_CFG_NST s)
  let m := c.rd (F.CEN_LPs_CFG_NIN s)
  35 + (n + c.rd (F.CEN_LPs_CFG_NREF s) + c.rd (F.CEN_LPs_CFG_GEN s)) + n
    + (n + m + c.rd (F.CEN_LPs_CFG_NOUT s) + m * (c.rd (F.CEN_LPs_CFG_B1EN s) + c.rd (F.CEN_LPs_CFG_EEN s)))

/-- The coefficient set of the next iteration (R113). -/
def slotSet (c : Chip) (s : Nat) : Nat :=
  if c.flag (F.CEN_LPs_CFG_SHEDSW s) then
    match groupOfActuator c (actuatorOf c s 0) with
    | some k => (decide (c.rd (F.LEG_Gk_STAT_NACT k) < c.rd (F.LEG_Gk_CFG_NLEG k))).toNat
    | none => 0
  else c.rd (F.CEN_LPs_CFG_SET s)

/-- The members of the loop group of actuator `a`: slot, output, floor, held value if any (R106, R107). -/
def groupMembers (c : Chip) (a : Nat) : List (Nat × Nat × Bool × Int) :=
  (List.range 32).flatMap fun s =>
    ((List.range (c.rd (F.CEN_LPs_CFG_NIN s))).filter fun j => actuatorOf c s j == a && bit (slot c s).heldSet j).map fun j =>
      (s, j, isFloor c s j, stWord c s (0x10 + j))

/-- The smallest of a list, the largest of a list. -/
def minOf : List Int → Option Int
  | [] => none
  | x :: l => some (l.foldl min x)
@[inherit_doc minOf] def maxOf : List Int → Option Int
  | [] => none
  | x :: l => some (l.foldl max x)

/-- The selected value of a loop group: the larger of the largest floor and the smallest ordinary member (R107). -/
def selectGroup (ms : List (Nat × Nat × Bool × Int)) : Option Int :=
  let lo := maxOf ((ms.filter fun m => m.2.2.1).map fun m => m.2.2.2)
  let hi := minOf ((ms.filter fun m => !m.2.2.1).map fun m => m.2.2.2)
  match lo, hi with
  | some a, some b => some (max a b)
  | some a, none => some a
  | none, b => b

/-- WIN of every member of the group: the first member whose value is the applied one (R107). -/
def markWinner (ms : List (Nat × Nat × Bool × Int)) (v : Int) (c : Chip) : Chip :=
  let win := ms.find? fun m => m.2.2.2 == v
  c.forAll ms fun m c =>
    c.wr (F.CEN_LPs_STAT_WIN m.1) (setBit (c.rd (F.CEN_LPs_STAT_WIN m.1)) m.2.1
      ((win.map fun w => w.1 == m.1 && w.2.1 == m.2.1).getD false))

/-- An applied value reaches its actuator (R103): a leg's duty, a group's duty, the phase of a bridge, or a set-point
channel, which BUS reads. -/
def deliver (t : Time) (a : Nat) (v : Int) (c : Chip) : Chip :=
  let c := { c with applied := Tab.set 0 c.applied a v }
  if 0x01 ≤ a ∧ a ≤ 0x0C then
    match groupOfLeg c (a - 1) with
    | none => c
    | some k =>
      let l := ((group c k).duty ++ List.replicate 3 0).take 3
      deliverDuty t k (l.set (a - 1 - c.rd (F.LEG_Gk_CFG_FIRST k)) v) 0 c
  else if 0x10 ≤ a ∧ a ≤ 0x15 then deliverDuty t (a - 0x10) [v] 0 c
  else if 0x18 ≤ a ∧ a ≤ 0x1D then deliverDuty t (a - 0x18) [] v c
  else c

/-- The selection stage of output `j` of slot `s` with clamped value `v` (R107): the applied value. A standby takes the
mirrored value in place of its own selection (R118). -/
def selectOutput (s j : Nat) (v : Int) (c : Chip) : Chip × Int :=
  let a := actuatorOf c s j
  if a = 0 then (c, v)
  else
    let ms := groupMembers c a
    let own := (selectGroup ms).getD v
    let app := if isStandby c then (Tab.get none c.mirrored a).getD own else own
    (markWinner ms app c, app)

/-- The outputs of an iteration pass selection in ascending order. -/
def selectAll (s : Nat) : List (Nat × Int) → Chip → Chip × List Int
  | [], c => (c, [])
  | (j, v) :: l, c =>
    let (c, a) := selectOutput s j v c
    let (c, r) := selectAll s l c
    (c, a :: r)

/-- The tick in which an actuator takes its value from an iteration dispatched at `disp`: the first tick after it for a leg or a
group, the tick of the dispatch for the others (R105). -/
def dispatchTick (disp a : Nat) : Nat := disp / 5 + (decide (0x01 ≤ a ∧ a ≤ 0x1D)).toNat

/-- What the engine does in a tick (R95): the outputs whose tick has come reach their actuators, and an iteration that ends
writes its state back. -/
def engineTick (t : Time) (c : Chip) : Chip :=
  match c.engine with
  | none => c
  | some r =>
    let now := fun (o : Nat × Int) => decide (dispatchTick r.disp o.1 ≤ t.tick)
    let c := { c with engine := some { r with outs := r.outs.filter fun o => !now o } }
    let c := c.forAll (r.outs.filter now) fun o c => deliver t o.1 o.2 c
    if r.fin < 5 * (t.tick + 1) then { setStWords r.slot 0x00 r.x (setStWords r.slot 0x14 r.uprev c) with engine := none } else c

/-- The x̂ after the intents of the slot that are due, in order of arrival, and their number (R94, R110). -/
def applyIntents (c : Chip) (s set : Nat) (x : List Int) : List Int → List Int × SatFlags
  | [] => (x, {})
  | d :: l =>
    let (x', f) := rowsWb x.length fun i => rowWb (x.getD i 0 * 2 ^ 20) [coef c s set (0x224 + i) * d]
    let (x'', f') := applyIntents c s set x' l
    (x'', f.join f')

/-- δ of R105 in units of 2^−20. -/
def delayFraction (tau tau0 tsrec : Nat) : Int :=
  clampI (-(2 ^ 20)) (2 ^ 20) (divEven (((tau : Int) - tau0) * tsrec) 4096)

/-- SAT and WSAT of the slot, with kind 0x02 on the rise of each (R91, R92, R119). -/
def noteSat (t : Time) (s : Nat) (f : SatFlags) (c : Chip) : Chip :=
  let one := fun (fl : Fld) (b : Bool) (c : Chip) =>
    if !b then c else if c.flag fl then setFlag t fl c else raise t 0x06 0x02 s (irq t 0x0E 1 (setFlag t fl c))
  one (F.CEN_LPs_STAT_WSAT s) f.wb (one (F.CEN_LPs_STAT_SAT s) f.acc c)

/-- The busy share of the engine: cycles are summed by millisecond, and BUSY shows the last whole one (R120). -/
def noteBusy (t : Time) (cycles : Nat) (c : Chip) : Chip :=
  let ms := t.tick / 400000
  if ms = c.cenMs then { c with cenBusy := c.cenBusy + cycles }
  else ({ c with cenMs := ms, cenBusy := cycles } : Chip).wr F.CEN_LOAD_BUSY
    (if ms = c.cenMs + 1 then min 100 (c.cenBusy / 5000) else 0)

/-- BUSY as it is read: the last whole millisecond (R120, log 29). -/
def showBusy (t : Time) (c : Chip) : Chip := noteBusy t 0 c

/-- One iteration of slot `s` (R94), its trigger of tick `trig`: it is worked out at its start, and what it gives and leaves
waits for its dispatch and its end (R95). -/
def iterate (t : Time) (s trig : Nat) (c : Chip) : Chip :=
  let n := c.rd (F.CEN_LPs_CFG_NST s)
  let m := c.rd (F.CEN_LPs_CFG_NIN s)
  let p := c.rd (F.CEN_LPs_CFG_NOUT s)
  let q := c.rd (F.CEN_LPs_CFG_NREF s)
  let gen := c.flag (F.CEN_LPs_CFG_GEN s)
  let set := slotSet c s
  let k := coef c s set
  let sl := slot c s
  -- the start, the dispatch and the end of the iteration, in half nanoseconds
  let start := max (5 * t.tick) c.cenFree
  let wait := (start - 5 * trig) / 4
  let disp := start + 4 * (23 + n + q + gen.toNat)
  let c := absentSources t s (noteBusy t (slotCost c s) { c with cenFree := start + 4 * slotCost c s })
  -- fetch
  let (y, f0) := rowsWb p fun i => measure c (ysrc c s i) (k (0x290 + i))
  let tsrc := ysrc c s (c.rd (F.CEN_LPs_TIM_TSEL s))
  let smp := sampleAt t c tsrc
  let r := (List.range q).map fun j => reference c (rsrc c s j)
  let (r, f1) := if c.flag (F.CEN_LPs_CFG_ROT s) then
      let (rr, f) := rotate ((smp.acc >>> 32).setWidth 16).toNat (r.getD 0 0) (r.getD 1 0)
      ([rr.1, rr.2] ++ r.drop 2, f)
    else (r, {})
  let (ff, f2) := if gen then measure c (c.rd (F.CEN_LPs_TIM_FSRC s)) (k 0x2A9) else (0, {})
  -- seed and intent
  let x := (List.range n).map (stWord c s)
  let (x, f3) := if sl.seedDue then
      rowsWb n fun i => if bit (c.rd (F.CEN_LPs_KEEP_KEEP s)) i then (x.getD i 0, {})
        else rowWb 0 ((List.range p).map fun j => k (0x230 + 8 * i + j) * y.getD j 0)
    else (x, {})
  let due := c.intents.filter fun i => i.slot == s && t.stamp.reached i.due
  let (x, f4) := applyIntents c s set x (due.map Intent.delta)
  -- output
  let (u, f5) := rowsWb m fun o => rowWb 0
    ((List.range n).map (fun i => -(k (0x1E0 + 12 * o + i) * x.getD i 0))
      ++ (List.range q).map (fun j => k (0x210 + 4 * o + j) * r.getD j 0) ++ (if gen then [k (0x220 + o) * ff] else []))
  -- select
  let (a, f6) := rowsWb m fun o =>
    let (v, f) := rowWb 0 [u.getD o 0 * k (0x298 + o)]
    (clampI (coefSig c s set (0x2A0 + o)) (coefSig c s set (0x2A4 + o)) v, f)
  let c := setStWords s 0x10 a c
  let c := modSlot s (fun z => { z with
    waiting := none, seedDue := false
    produced := z.produced ||| (2 ^ m - 1)
    heldSet := (if sl.seedDue then 0 else z.heldSet) ||| (2 ^ m - 1) }) c
  let c := c.forAll (a.zipIdx) fun (v, o) c => feedWaves (0x80 + 4 * s + o) (clampI (-32768) 32767 (divEven v 1024)) c
  let (c, app) := selectAll s (a.zipIdx.map fun (v, o) => (o, v)) c
  let (ua, f7) := rowsWb m fun o => rowWb 0 [app.getD o 0 * k (0x29C + o)]
  let uprev := if sl.seedDue then ua else (List.range m).map fun o => stWord c s (0x14 + o)
  let tau := min 65535 (dispatchTick disp (actuatorOf c s 0) - smp.tick)
  let delta := delayFraction tau (c.rd (F.CEN_LPs_TIM_TAU0 s)) (Tab.get 0 c.cenMem (coefKey s set 0x2A8)).toNat
  let (w, f8) := rowsWb m fun o => rowWb 0 [delta * clampI (-sigMax - 1) sigMax (uprev.getD o 0 - ua.getD o 0)]
  -- innovate and update
  let (e, f9) := rowsWb p fun i => rowWb (y.getD i 0 * 2 ^ 20)
    ((List.range n).map fun j => -(k (0x180 + 12 * i + j) * x.getD j 0))
  let (xn, f10) := rowsWb n fun i => rowWb 0
    ((List.range n).map (fun j => k (12 * i + j) * x.getD j 0)
      ++ (List.range m).map (fun o => k (0x90 + 4 * i + o) * ua.getD o 0)
      ++ (if c.flag (F.CEN_LPs_CFG_B1EN s) then (List.range m).map (fun o => k (0xC0 + 4 * i + o) * uprev.getD o 0) else [])
      ++ (if c.flag (F.CEN_LPs_CFG_EEN s) then (List.range m).map (fun o => k (0xF0 + 4 * i + o) * w.getD o 0) else [])
      ++ (List.range p).map (fun j => k (0x120 + 8 * i + j) * e.getD j 0))
  let outs := (app.zipIdx.map fun (v, o) => (actuatorOf c s o, v)).filter fun o => o.1 != 0
  let c := { c with engine := some { slot := s, disp := disp, fin := start + 4 * slotCost c s, outs := outs, x := xn, uprev := ua } }
  let c := setStWords s 0x0C u (setStWords s 0x18 y c)
  -- reports
  let c := (c.wr (F.CEN_LPs_DLY_WAIT s) (min 65535 wait)).wr (F.CEN_LPs_DLY_TAU s) tau
  let c := (c.wr (F.CEN_LPs_DLYMAX_WAIT s) (max (c.rd (F.CEN_LPs_DLYMAX_WAIT s)) (min 65535 wait))).wr (F.CEN_LPs_DLYMAX_TAU s)
    (max (c.rd (F.CEN_LPs_DLYMAX_TAU s)) tau)
  let c := (c.wr (F.CEN_LPs_STAT_ACTSET s) set).wr (F.CEN_LPs_CNT_ITER s) (c.rd (F.CEN_LPs_CNT_ITER s) + 1)
  let c := if sl.seedDue then irq t 0x0E 2 (setFlag t (F.CEN_LPs_STAT_SEEDED s) c) else c
  let c := if due.isEmpty then c else
    irq t 0x0E 3 ({ c with intents := c.intents.filter fun i => !(i.slot == s && t.stamp.reached i.due) })
  let c := c.wr F.CEN_INTSTAT_COUNT c.intents.length
  noteSat t s ([f0, f1, f2, f3, f4, f5, f6, f7, f8, f9, f10].foldl SatFlags.join {}) c

/-- The slot whose iteration the engine starts now: with no iteration running beyond this tick, the highest-priority slot with a
waiting trigger (R97). -/
def nextSlot (t : Time) (c : Chip) : Option Nat :=
  if 5 * (t.tick + 1) ≤ c.cenFree then none
  else (List.range 32).find? fun s => slotOn c s && (slot c s).waiting.isSome

/-- CEN_ITERATION: the engine starts an iteration (R97). -/
def cenIteration (t : Time) (c : Chip) : Chip :=
  match nextSlot t c with
  | none => c
  | some s => iterate t s ((slot c s).waiting.getD t.tick) c

/-! ### Load intents (R110) -/

/-- An intent is refused or discarded: kind 0x10 (R110). -/
def refuseIntent (t : Time) (s : Nat) (c : Chip) : Chip := raise t 0x06 0x10 s (irq t 0x0E 4 c)

/-- CAP delivers a load intent (R110): queued, late with kind 0x04, or refused. -/
def postIntent (t : Time) (i : Intent) (c : Chip) : Chip :=
  if !c.flag F.CEN_CTL_INTEN || !slotOn c i.slot || decide (32 ≤ c.intents.length) then refuseIntent t i.slot c
  else
    let c := { c with intents := c.intents ++ [i] }
    let c := c.wr F.CEN_INTSTAT_COUNT c.intents.length
    if t.stamp.later i.due then raise t 0x06 0x04 i.slot (irq t 0x0E 4 c) else c

/-! ### Coefficient and state memory (R115, R116) -/

/-- CEN_CADDR advances with AUTOINC. -/
def caddrNext (c : Chip) : Chip :=
  if c.flag F.CEN_CADDR_AUTOINC then c.wr F.CEN_CADDR_WORD (c.rd F.CEN_CADDR_WORD + 1) else c

/-- COEFFICIENT_READ: the word at CEN_CADDR; reserved words read 0. -/
def cdataRead (c : Chip) : Chip × Nat :=
  let s := c.rd F.CEN_CADDR_SLOT
  let w := c.rd F.CEN_CADDR_WORD
  let v := if c.flag F.CEN_CADDR_REGION then (if w < 0x20 then Tab.get 0 c.cenSt (32 * s + w) else 0)
    else if w < 0x2AA then Tab.get 0 c.cenMem (coefKey s (c.rd F.CEN_CADDR_SET) w) else 0
  (caddrNext c, v.toNat)

/-- A write that R116 refuses: to a set in use by an enabled slot, to the state area of an enabled slot, to a read-only
state word. -/
def cdataRefused (c : Chip) : Bool :=
  let s := c.rd F.CEN_CADDR_SLOT
  if c.flag F.CEN_CADDR_REGION then slotOn c s || decide (0x0C ≤ c.rd F.CEN_CADDR_WORD)
  else slotOn c s && (c.flag (F.CEN_LPs_CFG_SHEDSW s) || c.rd (F.CEN_LPs_CFG_SET s) == c.rd F.CEN_CADDR_SET)

/-- The word at CEN_CADDR is reserved (R115). -/
def cdataReserved (c : Chip) : Bool :=
  if c.flag F.CEN_CADDR_REGION then decide (0x20 ≤ c.rd F.CEN_CADDR_WORD) else decide (0x2AA ≤ c.rd F.CEN_CADDR_WORD)

/-- COEFFICIENT_WRITE (R115, R116). -/
def cdataWrite (t : Time) (v : Nat) (c : Chip) : Chip :=
  let s := c.rd F.CEN_CADDR_SLOT
  let w := c.rd F.CEN_CADDR_WORD
  if cdataReserved c then caddrNext c
  else if cdataRefused c then
    let a := c.rdR R.CEN_CADDR
    caddrNext (raise t 0x06 0x20 a (irq t 0x0E 6 c))
  else if c.flag F.CEN_CADDR_REGION then
    caddrNext { c with cenSt := Tab.set 0 c.cenSt (32 * s + w) (BitVec.ofNat 32 v) }
  else caddrNext { c with cenMem := Tab.set 0 c.cenMem (coefKey s (c.rd F.CEN_CADDR_SET) w) (coefStore w v) }

/-! ### The committed load (R100) -/

/-- Sum of two fractions. -/
def addFrac (a b : Nat × Nat) : Nat × Nat := (a.1 * b.2 + b.1 * a.2, a.2 * b.2)

/-- The rate of entries of the active bank that a test accepts, per second (R100). -/
def angleRate (c : Chip) (named : SchedEntry → Bool) : Nat × Nat :=
  let base := if c.flag F.ANG_CTL_BAND then 420000 else 72000
  let hz := if c.rd F.ANG_CTL_MODE ≠ 0 then max base (c.rd F.ANG_VFREQ_VFREQ) else base
  let es := c.ang.active.filter fun e => e.2.en && named e.2
  let (a, b) := es.foldl (fun f e => addFrac f (1, if e.2.once then 1 else e.2.period)) (0, 1)
  (a * hz, b * 1000)

/-- The rate counted for slot `s`, per second (R100). -/
def slotRate (c : Chip) (s : Nat) : Nat × Nat :=
  let src := c.rd (F.CEN_LPs_TRG_SRC s)
  match c.rd (F.CEN_LPs_CFG_TRIG s) with
  | 1 => (6400000000, max 1 (c.rd (F.LEG_Gk_PER_PER src)) * (c.rd (F.CEN_LPs_TRG_DIV s) + 1))
  | 2 => angleRate c fun e => e.action == 1 && e.w2 == s
  | 3 => match c.rd (F.AFE_FINn_CFG_TRIG src) with
    | 3 => (10000000, 2 ^ c.rd (F.AFE_FINn_CFG_AVG src))
    | 1 => (6400000000, max 1 (c.rd (F.LEG_Gk_PER_PER (c.rd (F.AFE_FINn_CFG_GROUP src)))))
    | 2 => angleRate c fun e => e.action == 2 && bit e.w2 src
    | _ => (0, 1)
  | 4 => (10000, 1)
  | _ => (0, 1)

/-- The committed load in cycles per second. -/
def engineLoad (c : Chip) : Nat × Nat :=
  ((List.range 32).filter fun s => c.flag (F.CEN_LPs_CFG_EN s)).foldl (fun f s =>
    let r := slotRate c s
    addFrac f (slotCost c s * r.1, r.2)) (0, 1)

/-- The load is above 450 × 10^6 per second. -/
def loadOver (l : Nat × Nat) : Bool := decide (450000000 * l.2 < l.1)

/-- The load formed anew in a tick in which a CEN, LEG or ANG commit takes effect; kind 0x08 at a rise of OVER that a LEG
or ANG commit causes (R100). -/
def loadRecompute (t : Time) (byCen : Bool) (c : Chip) : Chip :=
  let l := engineLoad c
  let was := c.flag F.CEN_LOAD_OVER
  let c := (c.wr F.CEN_LOAD_LOAD (min 65535 (divUp l.1 (l.2 * 100000)))).wrB F.CEN_LOAD_OVER (loadOver l)
  if loadOver l && !was then
    let c := irq t 0x0E 5 c
    if byCen then c else raise t 0x06 0x08 0x44 c
  else c

/-! ### Commits (R104, R111) -/

/-- Codes that R101, R102 and R103 list. -/
def sourceCodeOk (x : Nat) : Bool := decide (x ≤ 0x0F) || (decide (0x20 ≤ x) && decide (x ≤ 0x5F)) || decide (0x80 ≤ x)
@[inherit_doc sourceCodeOk] def refCodeOk (x : Nat) : Bool :=
  decide (x ≤ 1) || (decide (0x10 ≤ x) && decide (x ≤ 0x15)) || (decide (0x18 ≤ x) && decide (x ≤ 0x1D))
    || (decide (0x20 ≤ x) && decide (x ≤ 0x67)) || decide (0x80 ≤ x)

/-- An actuator code is listed and matches the topology of its leg or group (R103, R104). -/
def actuatorOk (c : Chip) (a : Nat) : Bool :=
  let topo := fun k => c.rd (F.LEG_Gk_CFG_TOPO k)
  if a = 0 then true
  else if a ≤ 0x0C then (groupOfLeg c (a - 1)).map topo == some 1
  else if 0x10 ≤ a ∧ a ≤ 0x15 then topo (a - 0x10) == 2 || topo (a - 0x10) == 4
  else if 0x18 ≤ a ∧ a ≤ 0x1D then topo (a - 0x18) == 3
  else decide (0x20 ≤ a) && decide (a ≤ 0x27)

/-- The outputs that name an actuator. -/
def namesOf (c : Chip) (a : Nat) : Nat :=
  ((List.range 32).flatMap fun s =>
    (List.range (c.rd (F.CEN_LPs_CFG_NIN s))).filter fun j => actuatorOf c s j == a).length

/-- The checks of R104 on slot `s`: the offset within the descriptor that breaks them. -/
def judgeSlot (c : Chip) (s : Nat) : Option Nat :=
  let n := c.rd (F.CEN_LPs_CFG_NST s)
  let m := c.rd (F.CEN_LPs_CFG_NIN s)
  let p := c.rd (F.CEN_LPs_CFG_NOUT s)
  let q := c.rd (F.CEN_LPs_CFG_NREF s)
  let trig := c.rd (F.CEN_LPs_CFG_TRIG s)
  let src := c.rd (F.CEN_LPs_TRG_SRC s)
  let acts := (List.range m).map (actuatorOf c s)
  if n < 1 ∨ 12 < n ∨ m < 1 ∨ 4 < m ∨ p < 1 ∨ 8 < p ∨ 4 < q ∨ 4 < trig ∨ (c.flag (F.CEN_LPs_CFG_ROT s) ∧ q < 2)
      ∨ (c.flag (F.CEN_LPs_CFG_SHEDSW s) ∧ !(decide (0x10 ≤ actuatorOf c s 0) && decide (actuatorOf c s 0 ≤ 0x15))) then some 0x00
  else if (trig = 1 ∧ 5 < src) ∨ (trig = 3 ∧ 15 < src) ∨ c.rd (F.CEN_LPs_TRG_DIV s) < c.rd (F.CEN_LPs_TRG_PHASE s) then some 0x04
  else if (List.range (min 4 p)).any (fun i => !sourceCodeOk (ysrc c s i)) then some 0x08
  else if (List.range p).any (fun i => !sourceCodeOk (ysrc c s i)) then some 0x0C
  else if (List.range q).any (fun j => !refCodeOk (rsrc c s j)) then some 0x10
  else if acts.any (fun a => !actuatorOk c a || (a != 0 && decide (8 < namesOf c a))) then some 0x14
  else if p ≤ c.rd (F.CEN_LPs_TIM_TSEL s) ∨ (c.flag (F.CEN_LPs_CFG_GEN s) ∧ !sourceCodeOk (c.rd (F.CEN_LPs_TIM_FSRC s))) then some 0x18
  else none

/-- A fraction is above another. -/
def fracAbove (a b : Nat × Nat) : Bool := decide (b.1 * a.2 < a.1 * b.2)

/-- The refusals of a CEN commit from `was` to `c` (R104): over every slot, enabled or not, then the load check of R100, which
a commit fails that raises the load and leaves it above the limit. -/
def judgeCen (was c : Chip) : Option Nat :=
  match (List.range 32).findSome? fun s => (judgeSlot c s).map (0x100 + 0x20 * s + ·) with
  | some o => some o
  | none =>
    if c.flag F.CEN_CTL_LOADCHK && loadOver (engineLoad c) && fracAbove (engineLoad c) (engineLoad was) then some 0x44 else none

/-- Slot `s` is enabled: it is seeded at its first iteration (R111); the 100 µs of its last host trigger still count (R96). -/
def enableSlot (s : Nat) (c : Chip) : Chip :=
  modSlot s (fun x => { seedDue := true, hostAt := x.hostAt }) c

/-- Slot `s` is disabled: its trigger lapses, and its intents are discarded with kind 0x10 (R110). -/
def disableSlot (t : Time) (s : Nat) (c : Chip) : Chip :=
  let lost := c.intents.filter fun i => i.slot == s
  let c := modSlot s (fun x => { hostAt := x.hostAt }) { c with intents := c.intents.filter fun i => i.slot != s }
  (c.wr F.CEN_INTSTAT_COUNT c.intents.length).forAll lost fun _ c => refuseIntent t s c

/-- COST of every slot follows the committed descriptors (R99). -/
def slotCosts (c : Chip) : Chip :=
  c.forAll (List.range 32) fun s c => c.wr (F.CEN_LPs_STAT_COST s) (slotCost c s)

/-- What an applied CEN commit does beside its registers. -/
def cenCommitted (t : Time) (was c : Chip) : Chip :=
  slotCosts (c.forAll (List.range 32) fun s c =>
    match was.flag (F.CEN_LPs_CFG_EN s), c.flag (F.CEN_LPs_CFG_EN s) with
    | false, true => enableSlot s c
    | true, false => disableSlot t s c
    | _, _ => c)

/-- A soft block reset of CEN, beside its registers: triggers, intents, held values and the iteration that runs go, whose
outputs are not delivered and whose state update is discarded; coefficients, states and what the actuators were given stay
(R515). -/
def cenBlockReset (c : Chip) : Chip := { c with slots := [], intents := [], engine := none, cenFree := 0, cenBusy := 0 }

end Sys2Proof.Machine
end

