-- ==== Sys2Proof/Machine/Ctx.lean ====
section
/-! DEFINITION. CTX: partner contexts, their allocation, linger and reclaim, and the host's view (R313–R316, R322). -/

namespace Sys2Proof.Machine

/-- Context states (R315). -/
def ctxFREE : Nat := 0
@[inherit_doc ctxFREE] def ctxJOINING : Nat := 1
@[inherit_doc ctxFREE] def ctxACTIVE : Nat := 2
@[inherit_doc ctxFREE] def ctxLINGER : Nat := 3

/-- The numbers of slots in use and in LINGER follow (R322). -/
def ctxStat (c : Chip) : Chip :=
  let n := (c.ctxs.filter fun e => e.2.state != 0).length
  let l := (c.ctxs.filter fun e => e.2.state == 3).length
  (c.wr F.CTX_STAT_USED n).wr F.CTX_STAT_LING l

/-- A context slot changes by `f`. -/
def modCtx (i : Nat) (f : Ctx → Ctx) (c : Chip) : Chip := ctxStat (setCtx i (f (ctx c i)) c)

/-- The slots that a test accepts, in ascending order. -/
def ctxFind (c : Chip) (ok : Nat → Ctx → Bool) : Option Nat := (List.range 256).find? fun i => ok i (ctx c i)

/-- The module number of a slot, from its base address (R12). -/
def ctxModule (x : Ctx) : Nat := x.base / 1024 % 64

/-- The BAT slot that serves a module number. -/
def slotOfModule (c : Chip) (n : Nat) : Option Nat :=
  (List.range 16).find? fun m => c.flag (F.BAT_Mm_CFG_EN m) && c.rd (F.BAT_Mm_CFG_MOD m) == n

/-- POLLPER of a context in 100 µs (R302): in partner mode that of the ASSIGN (R305); for a battery module the period of R201,
in IDLE, while a window of its string is open, and else; for any other context SLK_TIM.POLLPER. -/
def pollperOf (c : Chip) (x : Ctx) : Nat :=
  if x.path = 1 ∧ c.flag (F.SLK_SEGn_CFG_MODE (x.loc / 64 % 2)) then x.pollper
  else match (if c.blockOn 0x12 && c.flag F.BAT_CTL_EN then slotOfModule c (ctxModule x) else none) with
    | some m =>
      if c.flag F.BAT_STAT_IDLE then 10000
      else if (Tab.get {} c.bat.strs (c.rd (F.BAT_Mm_CFG_STR m))).win.isSome then 5 else 100
    | none => c.rd F.SLK_TIM_POLLPER

/-- A request for a context (R313): the identity, path and attributes of the partner. -/
structure CtxReq where
  id     : Nat
  path   : Nat
  pclass : Nat
  loc    : Nat := 0
  caps   : Nat := 0
  irated : Nat := 0
  prated : Nat := 0
  nelem  : Nat := 0
  vnom   : Nat := 0
  respt  : Nat := 0
  deriving DecidableEq, Repr

/-- CTX_LAST and CTX_LASTID of a judged request. -/
def ctxLast (q : CtxReq) (res i : Nat) (c : Chip) : Chip :=
  let c := (((c.wrB F.CTX_LAST_VALID true).wr F.CTX_LAST_PATH q.path).wr F.CTX_LAST_RES res).wr F.CTX_LAST_CTX i
  (c.wrR R.CTX_LASTID_LO (q.id % 2 ^ 32)).wrR R.CTX_LASTID_HI (q.id / 2 ^ 32)

/-- A request is refused with a CTX kind (R313, R319). -/
def ctxRefuse (t : Time) (q : CtxReq) (res kind : Nat) (c : Chip) : Chip :=
  ctxLast q res 0 (raise t 0x0F kind (q.id % 2 ^ 32) (irq t 0x16 1 c))

/-- A slot is granted: a shelf-link partner joins, any other is active at once (R313). -/
def ctxGrant (t : Time) (q : CtxReq) (i module : Nat) (bound safe : Bool) (c : Chip) : Chip :=
  let old := ctx c i
  let keep := old.state == ctxLINGER
  let x : Ctx := { old with
    id := q.id, state := if q.path = 1 then ctxJOINING else ctxACTIVE, bound := bound, safe := safe, path := q.path
    pclass := q.pclass, loc := q.loc, caps := q.caps, base := ownAddr c module 0, irated := q.irated, prated := q.prated
    nelem := q.nelem, vnom := q.vnom, respt := q.respt, pollper := 0, capab := 0
    tx1 := 0, tx2 := 0, tx3 := 0, rx1 := 0, rx2 := 0, rx3 := 0, rxv := 0, att := t.stamps
    tEnd := t.tick + c.rd F.CTX_CTL_JOINTO * 400000, missrun := 0, lastrep := 0
    reatt := if keep then satAdd 65535 old.reatt 1 else 0 }
  let c := modCtx i (fun _ => x) (ctxLast q (if keep then 1 else 0) i c)
  irq t 0x16 (if keep then 4 else 0) c

/-- The binding of an identity (R24). -/
def bindingOf (c : Chip) (id : Nat) : Option Binding := (c.bindings.find? fun e => e.2.valid && e.2.id == id).map Prod.snd

/-- A request is judged in the order of R313; the answer is the slot granted, or the refusal code of R305. -/
def ctxRequest (t : Time) (q : CtxReq) (c : Chip) : Chip × Except Nat Nat :=
  let held := ctxFind c fun _ x => x.state != 0 && x.id == q.id
  let linger := ctxFind c fun _ x => x.state == ctxLINGER && x.id == q.id && x.path == q.path
  let reserved := fun i => c.bindings.any fun e => e.2.valid && e.2.ctx == i
  let used := fun m => c.ctxs.any fun e => e.2.state != 0 && ctxModule e.2 == m
  match linger with
  | some i => (ctxGrant t q i (ctxModule (ctx c i)) (ctx c i).bound (ctx c i).safe c, .ok i)
  | none =>
    if held.isSome then (ctxRefuse t q 4 0x04 c, .error 3)
    else match bindingOf c q.id with
      | some b => (ctxGrant t q b.ctx b.module true b.safe c, .ok b.ctx)
      | none =>
        match ctxFind c fun i x => x.state == 0 && !reserved i with
        | none => (ctxRefuse t q 2 0x01 c, .error 1)
        | some i =>
          match ((List.range 16).map (· + 40)).find? fun m => !used m with
          | none => (ctxRefuse t q 3 0x02 c, .error 2)
          | some m => (ctxGrant t q i m false false c, .ok i)

/-- A partner is detached: its context enters LINGER (R306, R314). -/
def ctxDetach (t : Time) (i : Nat) (c : Chip) : Chip :=
  let x := ctx c i
  if x.state = ctxJOINING ∨ x.state = ctxACTIVE then
    irq t 0x16 2 (modCtx i (fun x => { x with
      state := ctxLINGER, tEnd := t.tick + c.rd F.CTX_CTL_LINGER * 40000000, missrun := 0 }) c)
  else c

/-- A slot is cleared to 0 and becomes FREE (R313, R314). -/
def ctxClear (i : Nat) (c : Chip) : Chip := ctxStat { c with ctxs := Tab.erase c.ctxs i }

/-- JOIN_TIMEOUT (R313). -/
def joinTimeout (t : Time) (i : Nat) (c : Chip) : Chip :=
  if (ctx c i).state = ctxJOINING then raise t 0x0F 0x08 i (ctxClear i c) else c

/-- LINGER_END: the slot is reclaimed (R314). -/
def ctxReclaim (t : Time) (i : Nat) (c : Chip) : Chip :=
  if (ctx c i).state = ctxLINGER then irq t 0x16 3 (ctxClear i c) else c

/-- The 256 bytes of a slot (R315). -/
def ctxBytes (t : Time) (x : Ctx) : List Byte :=
  bytesLE 8 x.id ++ bytesLE 1 (ctxStateByte x) ++ bytesLE 1 (ctxTypeByte x) ++ bytesLE 1 x.loc ++ bytesLE 1 x.caps
    ++ bytesLE 4 x.base ++ bytesLE 2 x.irated ++ bytesLE 2 x.prated ++ bytesLE 2 x.nelem ++ bytesLE 2 x.vnom
    ++ bytesLE 1 x.respt ++ bytesLE 1 0 ++ bytesLE 2 x.pollper ++ bytesLE 2 x.capab ++ bytesLE 2 0
    ++ bytesLE 2 x.tx1 ++ bytesLE 2 x.tx2 ++ bytesLE 2 x.tx3 ++ bytesLE 2 0
    ++ bytesLE 2 x.rx1 ++ bytesLE 2 x.rx2 ++ bytesLE 2 x.rx3 ++ bytesLE 1 x.rxv ++ bytesLE 1 0
    ++ bytesLE 6 x.att.stamp.toNat ++ bytesLE 2 0 ++ bytesLE 8 x.att.ns.toNat
    ++ bytesLE 6 x.last.stamp.toNat ++ bytesLE 2 0
    ++ bytesLE 4 (if x.state = ctxJOINING ∨ x.state = ctxLINGER then divUp (x.tEnd - t.tick) 40000 else 0)
    ++ bytesLE 2 x.missrun ++ bytesLE 2 x.reatt ++ bytesLE 4 x.rxok ++ bytesLE 4 x.rxdisc ++ bytesLE 4 x.dup
    ++ bytesLE 4 x.txok ++ bytesLE 4 x.cut ++ bytesLE 4 x.miss ++ bytesLE 24 x.lastrep ++ bytesLE 64 x.data ++ bytesLE 64 0

/-- A slot from its 256 bytes (R315), as a pair mirrors it (R369). -/
def ctxOfBytes (t : Time) (b : List Byte) : Ctx :=
  let f := fun o n => leNat ((b.drop o).take n)
  let stamps := fun o n => ({ stamp := BitVec.ofNat 48 (f o 6), ns := BitVec.ofNat 64 (if n = 0 then 0 else f (o + 8) 8) } : Stamps)
  { id := f 0 8, state := f 8 1 % 4, bound := bit (f 8 1) 2, safe := bit (f 8 1) 3, path := f 9 1 % 4, pclass := f 9 1 / 4 % 32
    loc := f 10 1, caps := f 11 1, base := f 12 4, irated := f 16 2, prated := f 18 2, nelem := f 20 2, vnom := f 22 2
    respt := f 24 1, pollper := f 26 2, capab := f 28 2, tx1 := f 32 2, tx2 := f 34 2, tx3 := f 36 2, rx1 := f 40 2, rx2 := f 42 2
    rx3 := f 44 2, rxv := f 46 1, att := stamps 48 8, last := stamps 64 0, tEnd := t.tick + f 72 4 * 40000, missrun := f 76 2
    reatt := f 78 2, rxok := f 80 4, rxdisc := f 84 4, dup := f 88 4, txok := f 92 4, cut := f 96 4, miss := f 100 4
    lastrep := f 104 24, data := f 128 64 }

/-- The 64 words of a slot. -/
def ctxWords (t : Time) (x : Ctx) : List Nat :=
  let b := ctxBytes t x
  (List.range 64).map fun w => leNat ((b.drop (4 * w)).take 4)

/-- A slot as it shows, with the POLLPER in force. -/
def shownCtx (c : Chip) (x : Ctx) : Ctx := if x.state = ctxFREE then x else { x with pollper := pollperOf c x }

/-- CONTEXT_SLOT_READ: a read of CTX_SDATA; word 0 latches the whole slot (R316). -/
def ctxRead (t : Time) (c : Chip) : Chip × Nat :=
  let w := c.rd F.CTX_SIDX_WORD
  let c := if w = 0 then { c with ctxLatch := ctxWords t (shownCtx c (ctx c (c.rd F.CTX_SIDX_SLOT))) } else c
  let c' := if c.flag F.CTX_SIDX_AUTOINC then c.wr F.CTX_SIDX_WORD (w + 1) else c
  (c', c.ctxLatch.getD w 0)

/-- A read of CTX_BDATA (R322). -/
def bindingRead (c : Chip) : Chip × Nat :=
  let w := c.rd F.CTX_BIDX_WORD
  let b := Tab.get {} c.bindings (c.rd F.CTX_BIDX_ENTRY)
  let v := match w with
    | 0 => b.id % 2 ^ 32
    | 1 => b.id / 2 ^ 32
    | 2 => b.module % 64 + 256 * (b.ctx % 256) + 2 ^ 16 * b.safe.toNat + 2 ^ 31 * b.valid.toNat
    | _ => 0
  (if c.flag F.CTX_BIDX_AUTOINC then c.wr F.CTX_BIDX_WORD (w + 1) else c, v)

end Sys2Proof.Machine
end

