-- ==== Sys2Proof/Machine/Slk.lean ====
section
/-! DEFINITION. SLK: frames, queues and sequence numbers, polls and grants, discovery and joining, segment loss, and the
segment in partner mode (R293–R309, R320). -/

namespace Sys2Proof.Machine

/-- The hidden state of segment `n`. -/
def seg (c : Chip) (n : Nat) : Seg := Tab.get {} c.segs n

/-- The hidden state of segment `n` changes by `f`; C0Q follows. -/
def modSeg (n : Nat) (f : Seg → Seg) (c : Chip) : Chip :=
  let g := f (seg c n)
  ({ c with segs := Tab.set {} c.segs n g } : Chip).wr (F.SLK_SEGn_STAT_C0Q n) g.c0.length

/-- Segment `n` runs; in controller mode; in partner mode (R293). -/
def segOn (c : Chip) (n : Nat) : Bool := decide (n < 2) && c.blockOn 0x14 && c.flag F.SLK_CTL_EN && c.flag (F.SLK_SEGn_CFG_EN n)
@[inherit_doc segOn] def segCtl (c : Chip) (n : Nat) : Bool := segOn c n && !c.flag (F.SLK_SEGn_CFG_MODE n)
@[inherit_doc segOn] def segPart (c : Chip) (n : Nat) : Bool := segOn c n && c.flag (F.SLK_SEGn_CFG_MODE n)

/-- Number `a` is later than `b` under R10 applied modulo 2^16 (R131, R299). -/
def later16 (a b : Nat) : Bool :=
  let d := (a + 65536 - b % 65536) % 65536
  decide (1 ≤ d) && decide (d ≤ 32767)

/-- Segment and node of a shelf-link context (R315). -/
def ctxSeg (x : Ctx) : Nat := x.loc / 64 % 2
@[inherit_doc ctxSeg] def ctxNode (x : Ctx) : Nat := x.loc % 64

/-- The sequence number of class `k` sent to, or accepted from, a context, and its change (R299, R315). -/
def Ctx.txSeq (x : Ctx) (k : Nat) : Nat := match k with | 1 => x.tx1 | 2 => x.tx2 | _ => x.tx3
@[inherit_doc Ctx.txSeq] def Ctx.rxSeq (x : Ctx) (k : Nat) : Nat := match k with | 1 => x.rx1 | 2 => x.rx2 | _ => x.rx3
@[inherit_doc Ctx.txSeq] def Ctx.setTx (x : Ctx) (k v : Nat) : Ctx :=
  match k with | 1 => { x with tx1 := v } | 2 => { x with tx2 := v } | _ => { x with tx3 := v }
@[inherit_doc Ctx.txSeq] def Ctx.setRx (x : Ctx) (k v : Nat) : Ctx :=
  let x := { x with rxv := setBit x.rxv (k - 1) true }
  match k with | 1 => { x with rx1 := v } | 2 => { x with rx2 := v } | _ => { x with rx3 := v }

/-! ### Queues (R300) -/

/-- The six header bytes of a frame (R296). -/
def frameHeader (up : Bool) (pos : Nat) (f : Frame) : List Byte :=
  bytesLE 1 (f.cls + 4 * f.ty) ++ bytesLE 1 f.ctx ++ bytesLE 2 f.seq
    ++ bytesLE 1 (f.words.length % 64 + 64 * f.bc.toNat + 128 * up.toNat) ++ bytesLE 1 (f.node % 64 + 64 * pos)

/-- Header and payload of a frame, and the levels of the pair while segment `n` sends (R295): none between two frames. -/
def frameBytes (up : Bool) (pos : Nat) (f : Frame) : List Byte := frameHeader up pos f ++ f.words.flatMap (bytesLE 4)
@[inherit_doc frameBytes] def segLevels (c : Chip) (n : Nat) : List Bool :=
  match (seg c n).sending with
  | some f => slLevels (frameBytes (segPart c n) (if segPart c n then 0 else c.rd F.PAR_STAT_POS) f)
  | none => []

/-- A frame as an entry of its class's ring: TYPE 0xA0, LEN, header, payload (R325). -/
def frameEntry (up : Bool) (pos : Nat) (f : Frame) : List Byte :=
  let body := frameBytes up pos f
  let n := (2 + body.length + 7) / 8
  pad8 (bytesLE 1 0xA0 ++ bytesLE 1 n ++ body)

/-- The frame that a ring entry holds. -/
def entryFrame (l : List Byte) : Frame :=
  let b := fun i => ((l.drop i).headD 0).toNat
  let n := b 6 % 64
  { cls := b 2 % 4, ty := b 2 / 4, ctx := b 3, seq := b 4 + 256 * b 5, bc := bit (b 6) 6, node := b 7 % 64
    words := (List.range n).map fun w => leNat ((l.drop (8 + 4 * w)).take 4) }

/-- The ring of class `k` of segment `n`. -/
def classRing (c : Chip) (n k : Nat) : Nat :=
  match k with
  | 1 => c.rd (F.SLK_SEGn_RING_C1 n)
  | 2 => c.rd (F.SLK_SEGn_RING_C2 n)
  | _ => c.rd (F.SLK_SEGn_RING_C3 n)

/-- A frame enters its queue: C0 the queue of eight, where SHEDALL goes ahead and stands once; C1–C3 the class's ring, where
a frame that does not fit is dropped with kind 0x10 (R300). In the Bivouac no RELEASE, SETPT or MCAP is sent (R395). -/
def enqueueFrame (t : Time) (n : Nat) (f : Frame) (c : Chip) : Chip :=
  if !segOn c n || isStandby c || (c.flt.biv && (f.ty == 0x04 || f.ty == 0x08 || f.ty == 0x09)) then c
  else if f.cls = 0 then
    modSeg n (fun g => { g with
      c0 := if f.ty = 1 then f :: (g.c0.filter (·.ty != 1)).take 7 else if g.c0.length < 8 then g.c0 ++ [f] else g.c0 }) c
  else
    let k := classRing c n f.cls
    let e := frameEntry (segPart c n) (c.rd F.PAR_STAT_POS) f
    let fits := ringFits c k e.length
    let c := ringWrite t k e c
    if fits then c else irq t 0x14 6 (raise t 0x0D 0x10 k c)

/-- A unicast frame to the partner of context `i`, numbered in its class (R299); a standby sends none of its own (R366). -/
def sendTo (t : Time) (i cls ty : Nat) (words : List Nat) (c : Chip) : Chip :=
  let x := ctx c i
  if x.path = 1 ∧ !isStandby c then
    let n := ctxSeg x
    let f : Frame := if segPart c n then ⟨cls, ty, (seg c n).ownCtx, x.txSeq cls, false, ctxNode x, words, false⟩
      else ⟨cls, ty, i, if cls = 0 then 0 else x.txSeq cls, false, ctxNode x, words, false⟩
    let c := if cls = 0 then c else setCtx i (x.setTx cls ((x.txSeq cls + 1) % 65536)) c
    enqueueFrame t n f c
  else c

/-- FORGET to the partner of context `i` (R306), from a controller, unless its node address now serves another partner. -/
def sendForget (t : Time) (i : Nat) (c : Chip) : Chip :=
  let x := ctx c i
  let other := c.ctxs.any fun e => e.1 != i && e.2.path == 1 && e.2.loc == x.loc && (e.2.state == 1 || e.2.state == 2)
  if segCtl c (ctxSeg x) && !other then sendTo t i 1 0x0E [] c else c

/-- A broadcast frame on segment `n` (R299). -/
def broadcast (t : Time) (n cls ty : Nat) (words : List Nat) (c : Chip) : Chip :=
  let g := seg c n
  let s := if cls = 0 then 0 else g.tx.getD (cls - 1) 0
  if isStandby c then c else
  let c := if cls = 0 then c else modSeg n (fun g => { g with tx := g.tx.set (cls - 1) ((s + 1) % 65536) }) c
  enqueueFrame t n ⟨cls, ty, 0, s, true, 0, words, false⟩ c

/-- SHEDALL in the C0 queue of each controller-mode segment (R301, R390). -/
def shedAll (t : Time) (c : Chip) : Chip :=
  c.forAll ([0, 1].filter (segCtl c)) fun n c => broadcast t n 0 0x01 [] c

/-- A queued unicast frame whose partner has left is dropped, FORGET excepted (R314). -/
def frameLapsed (c : Chip) (n : Nat) (f : Frame) : Bool :=
  !f.bc && f.ty != 0x0E && !segPart c n && !((ctx c f.ctx).state == ctxJOINING || (ctx c f.ctx).state == ctxACTIVE)

/-- Take the oldest frame of class `k` that has not lapsed from its ring. -/
def popRing (t : Time) (n k : Nat) : Nat → Chip → Chip × Option Frame
  | 0, c => (c, none)
  | fuel + 1, c =>
    let r := classRing c n k
    if ringOn c r ∧ 8 ≤ ringFill c r then
      let o := (ring c r).outW
      let len := 8 * leNat (ringPeek c r (o + 1) 1)
      if len = 0 then (c, none)
      else
        let f := entryFrame (ringPeek c r o len)
        let c := ringTake t r len c
        if frameLapsed c n f then popRing t n k fuel c else (c, some f)
    else (c, none)

/-- The next frame of classes C1–C3: of the highest class that has one, a frame at the front before the ring (R300). -/
def popClasses (t : Time) (n : Nat) : List Nat → Chip → Chip × Option Frame
  | [], c => (c, none)
  | k :: l, c =>
    match (seg c n).front.find? (·.cls == k) with
    | some f => (modSeg n (fun g => { g with front := g.front.erase f }) c, some f)
    | none =>
      match popRing t n k 64 c with
      | (c, some f) => (c, some f)
      | (c, none) => popClasses t n l c

/-- The stamp words of a TIME frame, inserted as it is sent (R307). -/
def timeWords (t : Time) (c : Chip) : List Nat :=
  [t.stamp.cycle, t.stamp.angle + 65536 * (c.rd F.ANG_BINLEN_DIV % 65536), t.ns.toNat % 2 ^ 32, t.ns.toNat / 2 ^ 32]

/-- A frame that the partner side may not start yet: a HELLO before its slot, any other one outside the grant (R302, R304). -/
def waitsItsTurn (t : Time) (g : Seg) (f : Frame) : Bool :=
  if f.ty = 0x23 then decide (t.tick < g.helloAt) else g.left == 0 || decide (g.left < f.words.length)

/-- The ticks that a frame lasts (R295). -/
def frameTicks (f : Frame) : Nat := 384 + 128 * f.words.length

/-- FRAME_TRANSMIT_START on segment `n`, once tGAP has passed (R300); the frame that starts, if one does. -/
def txStart (t : Time) (n : Nat) (c : Chip) : Chip × Option Frame :=
  if !segOn c n || (seg c n).sending.isSome || sealOnly c || decide (t.tick < (seg c n).freeAt) then (c, none)
  else
    let c := modSeg n (fun g => { g with
      c0 := g.c0.filter fun f => !frameLapsed c n f, front := g.front.filter fun f => !frameLapsed c n f }) c
    let (c, f) := match (seg c n).c0 with
      | f :: l => (modSeg n (fun g => { g with c0 := l }) c, some f)
      | [] => popClasses t n [1, 2, 3] c
    match f with
    | none => (c, none)
    | some f =>
      if segPart c n && waitsItsTurn t (seg c n) f then
        (modSeg n (fun g => { g with front := f :: g.front }) c, none)
      else
      let f := if f.ty = 0x0C ∧ f.bc then { f with words := timeWords t c } else f
      (modSeg n (fun g => { g with sending := some f, txAt := t.tick, left := g.left - f.words.length }) c, some f)

/-- The context of the partner that a frame of segment `n` goes to. -/
def frameCtx (c : Chip) (n : Nat) (f : Frame) : Option Nat :=
  if segPart c n then (seg c n).ctl else if f.bc then none else some f.ctx

/-- The end of the HELLO slots of a DISCOVER whose last bit is sent (R304). -/
def slotSpan (t : Time) (f : Frame) : Nat :=
  let w := f.words.getD 0 0
  t.tick + 800 + (w % 256) * (w / 256 % 256) * 40

/-- The last bit of a POLL opens its grant; that of an own frame begins the idle time after it (R302). -/
def grantTimed (t : Time) (f : Frame) (g : Seg) : Seg :=
  let gr := g.grant.map fun x => if f.ty = 0x0A ∧ f.ctx = x.ctx ∧ x.sentAt.isNone then { x with sentAt := some t.tick } else x
  { g with grant := gr, ownEnd := some t.tick, freeAt := t.tick + 80 }

/-- FRAME_TRANSMIT_DONE (R295): the frame has left after its 96 + 32 × LEN bits; C0 shows in the interrupt, and a DISCOVER opens its slots (R304). -/
def txDone (t : Time) (n : Nat) (c : Chip) : Chip :=
  match (seg c n).sending with
  | none => c
  | some f =>
    if t.tick < (seg c n).txAt + frameTicks f then c else
    let c := modSeg n (fun g => { grantTimed t f g with sending := none, slotsEnd := if f.ty = 0x0D then slotSpan t f else g.slotsEnd }) c
    let c := c.count (F.SLK_SEGn_CNT2_TXOK n)
    let c := match frameCtx c n f with
      | some i => if (ctx c i).state = 0 then c else setCtx i { ctx c i with txok := (ctx c i).txok + 1 } c
      | none => c
    if f.cls = 0 then irq t 0x14 7 c else c

/-- A 32-bit boundary of the frame that segment `n` sends passes in this tick, before its end (R300). -/
def atBoundary (t : Time) (g : Seg) (f : Frame) : Bool :=
  decide (g.txAt < t.tick) && decide (t.tick < g.txAt + frameTicks f) && (t.tick - g.txAt) % 128 == 0

/-- C0_FRAME_CUT (R300): at a 32-bit boundary a ready C0 frame cuts a frame of C1–C3, and a SHEDALL any other frame; the cut
frame goes back to the head of its queue. A frame that sends its last bit is not cut (R317). -/
def c0Cut (t : Time) (n : Nat) (c : Chip) : Chip :=
  let g := seg c n
  match g.sending, g.c0 with
  | some f, h :: _ =>
    if atBoundary t g f && (f.cls != 0 || (h.ty == 1 && f.ty != 1)) then
      let c := modSeg n (fun g =>
        if f.cls = 0 then { g with sending := none, freeAt := t.tick + 80, c0 := (g.c0.take 1 ++ f :: g.c0.drop 1).take 8 }
        else { g with sending := none, freeAt := t.tick + 80, front := f :: g.front }) c
      let c := c.count (F.SLK_SEGn_CNT_CUT n)
      match frameCtx c n f with
      | some i => if (ctx c i).state = 0 then c else setCtx i { ctx c i with cut := (ctx c i).cut + 1 } c
      | none => c
    else c
  | _, _ => c

/-! ### Receiving (R298, R299) -/

/-- Header and payload of a received frame of a class and a type, which a partner sends in controller mode and the controller in
partner mode (R296). -/
def rxBytes (c : Chip) (f : RxFrame) (cls ty : Nat) : List Byte :=
  let b := frameBytes (segCtl c f.seg) f.pos ⟨cls, ty, f.ctx, f.seq, f.bc, f.node, f.words, false⟩
  b.take 5 ++ [(b.drop 5).headD 0 + BitVec.ofNat 8 (128 * f.evt.toNat)] ++ b.drop 6

/-- Checks 1–4 of R298: the line's, and the CRC. -/
def crcGood (c : Chip) (f : RxFrame) (cls ty : Nat) : Bool := f.clean && crc32 (rxBytes c f cls ty) == f.crc

/-- The segment that a frame serves: with RXB, command pair B of a segment in partner mode comes in on the receive pair of the
other one, which serves nothing else (R293). -/
def routed (c : Chip) (f : RxFrame) : RxFrame :=
  if f.seg < 2 ∧ !segOn c f.seg ∧ segPart c (1 - f.seg) ∧ c.flag (F.SLK_SEGn_CFG_RXB (1 - f.seg)) then { f with seg := 1 - f.seg }
  else f

/-- Slots with a partner of segment `n` in a state. -/
def segCtxs (c : Chip) (n : Nat) : List Nat :=
  (c.ctxs.filter fun e => e.2.path == 1 && ctxSeg e.2 == n && (e.2.state == 1 || e.2.state == 2)).map Prod.fst

/-- NODES and LOAD of segment `n` follow (R303). -/
def segLoad (n : Nat) (c : Chip) : Chip :=
  let act := (c.ctxs.filter fun e => e.2.path == 1 && ctxSeg e.2 == n && e.2.state == 2).map Prod.snd
  let load := (act.map fun x => (2400 + x.grantNs) * 100 / (max 1 (pollperOf c x) * 100000)).foldl (· + ·) 0
  (c.wr (F.SLK_SEGn_STAT_NODES n) act.length).wr (F.SLK_SEGn_STAT_LOAD n) (min 255 load)

/-- The context a frame comes from: in controller mode the one its header names, when its node agrees; in partner mode the
controller's, for a frame to the own node or a broadcast (R298). -/
def senderOf (c : Chip) (f : RxFrame) : Option Nat :=
  if segPart c f.seg then
    if f.bc || f.node == c.rd (F.SLK_SEGn_STAT_OWNNODE f.seg) then (seg c f.seg).ctl.filter (segCtxs c f.seg).contains else none
  else if (segCtxs c f.seg).contains f.ctx && ctxNode (ctx c f.ctx) == f.node then some f.ctx else none

/-- A frame is discarded and counted (R298). -/
def discard (f : RxFrame) (c : Chip) : Chip :=
  let c := c.count (F.SLK_SEGn_CNT_DISC f.seg)
  match senderOf c f with
  | some i => setCtx i { ctx c i with rxdisc := (ctx c i).rxdisc + 1 } c
  | none => c

/-- A valid frame clears the down state of its segment (R306). -/
def segUp (t : Time) (n : Nat) (c : Chip) : Chip :=
  let c := modSeg n (fun g => { g with heardAt := t.tick }) c
  if c.flag (F.SLK_SEGn_STAT_DOWN n) then irq t 0x14 3 (c.wrB (F.SLK_SEGn_STAT_DOWN n) false) else c

/-- An accepted frame from context `i`: the counters, and a joining partner becomes active (R305, R315). -/
def accept (t : Time) (f : RxFrame) (i : Nat) (c : Chip) : Chip :=
  let join := (ctx c i).state == ctxJOINING
  let c := modCtx i (fun x => { x with
    last := t.stamps, rxok := x.rxok + 1, missrun := 0, state := if join then ctxACTIVE else x.state }) c
  let c := segUp t f.seg (c.count (F.SLK_SEGn_CNT2_RXOK f.seg))
  if join then segLoad f.seg (irq t 0x14 0 c) else c

/-- Bookkeeping of the grant by a frame from its node; a frame beyond WIN overruns it: discarded with kind 0x08 (R302). -/
def grantUse (f : RxFrame) (c : Chip) : Chip × Bool :=
  match (seg c f.seg).grant with
  | some g =>
    if g.ctx = f.ctx then
      let used := g.used + f.words.length
      (modSeg f.seg (fun s => { s with grant := some { g with used := used, lenNs := g.lenNs + 960 + 320 * f.words.length } }) c,
       decide (g.win < used))
    else (c, false)
  | none => (c, false)

/-- A frame comes in: the idle time of the grant counts from it, and in partner mode the controller is heard (R302, R309). -/
def arrives (t : Time) (f : RxFrame) (good : Bool) (c : Chip) : Chip :=
  modSeg f.seg (fun g =>
    if segPart c f.seg then (if good then { g with heardAt := t.tick, lost := false } else g)
    else { g with grant := g.grant.map fun x => { x with frameAt := some t.tick } }) c

/-- Checks 1–7 of R298 on a frame of class `cls` and type `ty` with an allowed length, sent up when `up`: the chip after it and, when the
frame is accepted, its sender's context. -/
def receive (t : Time) (f : RxFrame) (cls ty : Nat) (lenOk up down : Bool) (c : Chip) : Chip × Option Nat :=
  if !segOn c f.seg then (c, none) else
  let c := arrives t f (crcGood c f cls ty) c
  if !crcGood c f cls ty || !lenOk || (segCtl c f.seg && !up) || (segPart c f.seg && !down) then (discard f c, none)
  else match senderOf c f with
    | none => (discard f c, none)
    | some i =>
      let (c, tooMany) := if segCtl c f.seg then grantUse f c else (c, false)
      if tooMany then (discard f (raise t 0x0D 0x08 i c), none)
      else if f.bc then
        match (seg c f.seg).rx.getD (cls - 1) none with
        | some s => if later16 f.seq s then
            (accept t f i (modSeg f.seg (fun g => { g with rx := g.rx.set (cls - 1) (some f.seq) }) c), some i)
          else (c.count (F.SLK_SEGn_CNT_DUP f.seg), none)
        | none => (accept t f i (modSeg f.seg (fun g => { g with rx := g.rx.set (cls - 1) (some f.seq) }) c), some i)
      else
        let x := ctx c i
        if !bit x.rxv (cls - 1) || later16 f.seq (x.rxSeq cls) then (accept t f i (setCtx i (x.setRx cls f.seq) c), some i)
        else ((setCtx i { x with dup := x.dup + 1 } c).count (F.SLK_SEGn_CNT_DUP f.seg), none)

/-! ### Polls, detach, segment loss (R302, R306) -/

/-- The due POLL of the lowest context goes out once no grant is open and no HELLO slots are held (R302, R304). -/
def pollNext (t : Time) (n : Nat) (c : Chip) : Chip :=
  let g := seg c n
  if segCtl c n && g.grant.isNone && decide (g.slotsEnd ≤ t.tick) && !(g.sending.any fun f => f.ty == 0x0D) then
    match g.polls.filter (segCtxs c n).contains with
    | [] => modSeg n (fun g => { g with polls := [] }) c
    | i :: l =>
      let win := c.rd F.SLK_DISC_WIN
      sendTo t i 1 0x0A [win] (modSeg n (fun g => { g with grant := some { ctx := i, win := win }, polls := l }) c)
  else c

/-- POLL_DUE: its POLLPER over, the partner of context `i` is due for a grant of the response pair (R302); one that has just
joined is at once (log 9). -/
def pollDue (t : Time) (i : Nat) (c : Chip) : Chip :=
  let n := ctxSeg (ctx c i)
  if segCtl c n && (segCtxs c n).contains i && periodOver t (40000 * pollperOf c (ctx c i)) (Tab.get none (seg c n).polled i) then
    pollNext t n (modSeg n (fun g => { g with
      polled := Tab.set none g.polled i (some t.tick), polls := (g.polls.filter (· < i)) ++ i :: g.polls.filter (i < ·) }) c)
  else c

/-- The grant on segment `n` ends once the response pair has idled for 400 ns after a frame, 300 ns after its acceptance: its
poll was not missed, and its length enters LOAD (R302, R303, R306). In partner mode the own grant ends. -/
def grantEnd (t : Time) (n : Nat) (c : Chip) : Chip :=
  match (seg c n).grant with
  | none => if segPart c n && heldFor t 160 (seg c n).ownEnd then modSeg n (fun s => { s with left := 0 }) c else c
  | some g =>
    if !heldFor t 120 g.frameAt then c else
    let c := modSeg n (fun s => { s with grant := none }) c
    pollNext t n (segLoad n (if (ctx c g.ctx).state = 0 then c
      else setCtx g.ctx { ctx c g.ctx with grantNs := g.lenNs, missrun := 0 } c))

/-- A segment in partner mode is unassigned again (R308). -/
def unassign (n : Nat) (c : Chip) : Chip :=
  ((modSeg n (fun g => { g with ctl := none, left := 0 }) c).wr (F.SLK_SEGn_STAT_OWNNODE n) 0).wrB (F.SLK_SEGn_STAT_JOINED n) false

/-- The segment whose controller's context is `i` is unassigned again. -/
def unassignOf (i : Nat) (c : Chip) : Chip :=
  c.forAll ([0, 1].filter fun n => (seg c n).ctl == some i) unassign

/-- A partner leaves: its context lingers, and its C0 frame and those cut are dropped (R306, R314). -/
def partnerDetach (t : Time) (i : Nat) (c : Chip) : Chip :=
  let n := ctxSeg (ctx c i)
  let c := irq t 0x14 1 (segLoad n (ctxDetach t i (unassignOf i c)))
  modSeg n (fun g => { g with
    c0 := g.c0.filter fun f => !frameLapsed c n f, front := g.front.filter fun f => !frameLapsed c n f }) c

/-- MISSED_POLL on segment `n` (R302, R306), more than 2.5 µs after the POLL, so that a frame in the last of these ticks counts
(R317): the miss is counted, and MISS in a row detach the partner with kind 0x02. The
answer is the context detached. -/
def missedPoll (t : Time) (n : Nat) (c : Chip) : Chip × Option Nat :=
  match (seg c n).grant with
  | none => (c, none)
  | some g =>
    if g.frameAt.isSome || !heldFor t 1001 g.sentAt then (c, none) else
    let c := modSeg n (fun s => { s with grant := none }) (c.count (F.SLK_SEGn_CNT_MISS n))
    let x := ctx c g.ctx
    if x.state = ctxACTIVE ∨ x.state = ctxJOINING then
      let c := setCtx g.ctx { x with missrun := satAdd 65535 x.missrun 1, miss := x.miss + 1 } c
      if x.state = ctxACTIVE ∧ c.rd F.SLK_TIM_MISS ≤ x.missrun + 1 then
        (pollNext t n (raise t 0x0D 0x02 g.ctx (partnerDetach t g.ctx c)), some g.ctx)
      else (pollNext t n c, none)
    else (pollNext t n c, none)

/-- No frame has passed R298 on segment `n` for SEGTO while a context on it is ACTIVE (R306); no command frame has come for SEGTO
(R309). -/
def segSilent (t : Time) (n : Nat) (c : Chip) : Bool :=
  decide ((seg c n).heardAt + 400000 * c.rd F.SLK_TIM_SEGTO ≤ t.tick)
    && c.ctxs.any fun e => e.2.path == 1 && ctxSeg e.2 == n && e.2.state == ctxACTIVE
@[inherit_doc segSilent] def ctlSilent (t : Time) (n : Nat) (c : Chip) : Bool :=
  decide ((seg c n).heardAt + 400000 * c.rd F.SLK_TIM_SEGTO ≤ t.tick)

/-- SEGMENT_DOWN (R306). -/
def segDown (t : Time) (n : Nat) (dark : Bool) (c : Chip) : Chip :=
  if segCtl c n && !c.flag (F.SLK_SEGn_STAT_DOWN n) && (dark || segSilent t n c) then
    raise t 0x0D 0x01 n (irq t 0x14 2 (c.wrB (F.SLK_SEGn_STAT_DOWN n) true))
  else c

/-! ### Discovery and joining (R304, R305) -/

/-- DISCOVER_PERIOD (R304). -/
def discover (t : Time) (n : Nat) (c : Chip) : Chip :=
  if segCtl c n && c.flag F.SLK_CTL_DISCEN && periodOver t (400000 * c.rd F.SLK_CTL_DISCPER) (seg c n).discAt then
    broadcast t n 3 0x0D [c.rd F.SLK_DISC_NSLOT + 256 * c.rd F.SLK_DISC_SLOTLEN]
      (modSeg n (fun g => { g with discAt := some t.tick }) c)
  else c

/-- TIME_FRAME_PERIOD (R307): the stamp is inserted as the frame is sent. -/
def timeFrame (t : Time) (n : Nat) (c : Chip) : Chip :=
  if segCtl c n && c.flag F.SLK_CTL_TIMEEN && periodOver t (40000 * c.rd F.SLK_DISC_TIMEPER) (seg c n).timeAt then
    broadcast t n 1 0x0C [0, 0, 0, 0] (modSeg n (fun g => { g with timeAt := some t.tick }) c)
  else c

/-- The words of an ASSIGN (R305). -/
def assignWords (id node i module : Nat) (safe : Bool) (refuse : Nat) (base pollper : Nat) : List Nat :=
  [id % 2 ^ 32, id / 2 ^ 32,
   node + 256 * i + 65536 * module + 2 ^ 24 * safe.toNat + (if refuse = 0 then 0 else 2 ^ 25 + 2 ^ 28 * refuse),
   base, pollper, 0]

/-- HELLO_RECEIVED (R304, R305): the partner gets a context and a node address, or a refusal; the answer is the context. -/
def helloReceived (t : Time) (f : RxFrame) (c : Chip) : Chip × Option Nat :=
  if !segCtl c f.seg then (c, none)
  else if !crcGood c f 1 0x23 || f.words.length != 6 then (discard f c, none)
  else
    let w := fun i => f.words.getD i 0
    let id := w 0 + 2 ^ 32 * w 1
    let c := segUp t f.seg (c.count (F.SLK_SEGn_CNT2_RXOK f.seg))
    let used := fun n => (segCtxs c f.seg).any fun i => ctxNode (ctx c i) == n
    let former := (ctxFind c fun _ x => x.state == ctxLINGER && x.id == id && x.path == 1 && ctxSeg x == f.seg
      && !used (ctxNode x)).map fun i => ctxNode (ctx c i)
    match former.or (((List.range 62).map (· + 1)).find? fun n => !used n) with
    | none =>
      let c := raise t 0x0D 0x04 f.seg (irq t 0x14 4 c)
      (broadcast t f.seg 1 0x0B (assignWords id 0 0 0 false 4 0 0) c, none)
    | some node =>
      let q : CtxReq := ⟨id, 1, w 2 % 32, node + 64 * f.seg, bits (w 2) 19 16, w 3 % 65536, w 3 / 65536, w 4 % 1024,
        w 5 % 65536, bits (w 2) 15 8⟩
      match ctxRequest t q c with
      | (c, .error code) => (broadcast t f.seg 1 0x0B (assignWords id 0 0 0 false code 0 0) (irq t 0x14 4 c), none)
      | (c, .ok i) =>
        let x := ctx c i
        let c := modSeg f.seg (fun g => { g with polled := Tab.set none g.polled i none }) c
        (broadcast t f.seg 1 0x0B (assignWords id node i (ctxModule x) x.safe 0 x.base (pollperOf c x)) c, some i)

/-! ### Partner mode (R309) -/

/-- The own identity (R309). -/
def ownId (c : Chip) : Nat := c.rdR R.CAP_ID_LO + 2 ^ 32 * c.rdR R.CAP_ID_HI

/-- DISCOVER_RECEIVED: an unassigned W480 chooses a slot, seeded by its identity, and sends HELLO in it (R304, R309). The slots
start 2 µs after the last bit of the DISCOVER, 1.9 µs after its acceptance. -/
def discoverReceived (t : Time) (f : RxFrame) (c : Chip) : Chip :=
  if c.flag (F.SLK_SEGn_STAT_JOINED f.seg) then (receive t f 3 0x0D (f.words.length == 1) false true c).1
  else if segPart c f.seg then
    if crcGood c f 3 0x0D && f.words.length == 1 then
      let c := arrives t f true (c.count (F.SLK_SEGn_CNT2_RXOK f.seg))
      let nslot := max 1 (f.words.getD 0 0 % 256)
      let slot := Config.helloSlot c.free (ownId c % 2 ^ 32) % nslot
      let id := ownId c
      let hello : Frame := ⟨1, 0x23, 0, 0, false, 0, [id % 2 ^ 32, id / 2 ^ 32, 4, 0, 1, 0], false⟩
      let start := t.tick + 760 + slot * (f.words.getD 0 0 / 256 % 256) * 40
      tickFree (modSeg f.seg (fun g => { g with hello := some slot, helloAt := start, front := hello :: g.front.filter (·.ty != 0x23) }) c)
    else discard f c
  else c

/-- ASSIGN_RECEIVED with the own identity: node and context number, and a context for the controller (R309). -/
def assignReceived (t : Time) (f : RxFrame) (ctlId : Nat) (c : Chip) : Chip :=
  if segPart c f.seg then
    let w := fun i => f.words.getD i 0
    let c := arrives t f (crcGood c f 1 0x0B) c
    if crcGood c f 1 0x0B && f.words.length == 6 && w 0 + 2 ^ 32 * w 1 == ownId c then
      let c := c.count (F.SLK_SEGn_CNT2_RXOK f.seg)
      if bit (w 2) 25 then c
      else
        let (c, r) := ctxRequest t { id := ctlId, path := 1, pclass := 4, loc := w 2 % 64 + 64 * f.seg } c
        match r with
        | .error _ => c
        | .ok i =>
          let c := modCtx i (fun x => { x with pollper := w 4 % 65536 }) c
          let c := modSeg f.seg (fun g => { g with
            ctl := some i, ownCtx := bits (w 2) 15 8, hello := none, rx := [none, none, none] }) c
          (c.wr (F.SLK_SEGn_STAT_OWNNODE f.seg) (w 2 % 64)).wrB (F.SLK_SEGn_STAT_JOINED f.seg) true
    else discard f c
  else c

/-- FORGET_RECEIVED: the W480 is unassigned again (R308). -/
def forgetReceived (t : Time) (f : RxFrame) (c : Chip) : Chip :=
  match receive t f 1 0x0E (f.words.length == 0) false true c with
  | (c, none) => c
  | (c, some i) =>
    unassign f.seg (ctxDetach t i c)

/-- The stamp of what segment `n` reports: in partner mode from the last TIME frame, whose stamp stands for its first start bit,
2.24 µs before its end, and the bin length it gives; the own angle clock before the first one (R307). -/
def reportStamp (t : Time) (n : Nat) (c : Chip) : Stamp :=
  match (seg c n).ref with
  | some (w, tick) =>
    let start : Nat := w.getD 0 0 * 2 ^ 16 + w.getD 1 0 % 2 ^ 16
    BitVec.ofNat 48 (start + divNear ((t.tick - tick + 896) * 16) (max 1 (w.getD 1 0 / 2 ^ 16)))
  | none => t.stamp

/-- POLL_RECEIVED: the W480 answers with its REPORT, then its queued frames within WIN (R302, R309). -/
def pollReceived (t : Time) (f : RxFrame) (ownReport : Chip → List Nat) (c : Chip) : Chip :=
  match receive t f 1 0x0A (f.words.length == 1) false true c with
  | (c, none) => c
  | (c, some i) =>
    let report := ownReport c
    let x := ctx c i
    let r : Frame := ⟨1, 0x21, (seg c f.seg).ownCtx, x.tx1, false, c.rd (F.SLK_SEGn_STAT_OWNNODE f.seg), report, false⟩
    modSeg f.seg (fun g => { g with
      left := f.words.getD 0 0 % 256, ownEnd := none, freeAt := max g.freeAt (t.tick + 160), front := r :: g.front.filter (·.ty != 0x21) })
      (setCtx i (x.setTx 1 ((x.tx1 + 1) % 65536)) c)

/-- TIME_RECEIVED: the angle and time reference of the controller (R307). -/
def timeReceived (t : Time) (f : RxFrame) (c : Chip) : Chip :=
  match receive t f 1 0x0C (f.words.length == 4) false true c with
  | (c, none) => c
  | (c, some _) => modSeg f.seg (fun g => { g with ref := some (f.words, t.tick) }) c

/-- CONTROLLER_LOST (R309), once until a command frame comes. -/
def controllerLost (t : Time) (n : Nat) (c : Chip) : Chip :=
  if segPart c n && !(seg c n).lost && ctlSilent t n c then raise t 0x0D 0x20 n (modSeg n (fun g => { g with lost := true }) c) else c

/-- HOSTMSG_RECEIVED: a host entry of TYPE 0x81 in the receive ring (R297, R442). -/
def hostMsgReceived (t : Time) (f : RxFrame) (c : Chip) : Chip :=
  let n := f.words.length
  match receive t f 3 0x38 (decide (1 ≤ n) && decide (n ≤ 63)) true true c with
  | (c, none) => c
  | (c, some i) =>
    let e := bytesLE 1 0x81 ++ bytesLE 1 (2 + (n + 1) / 2) ++ bytesLE 1 f.seg ++ bytesLE 1 i ++ bytesLE 2 f.seq
      ++ bytesLE 1 n ++ bytesLE 1 f.node ++ bytesLE 6 t.stamp.toNat ++ bytesLE 2 0 ++ f.words.flatMap (bytesLE 4)
    irq t 0x14 5 (ringWrite t (c.rd (F.SLK_SEGn_RING_HRX f.seg)) (pad8 e) c)

/-- IDLE_FRAME_RECEIVED (R297). -/
def idleReceived (t : Time) (f : RxFrame) (c : Chip) : Chip := (receive t f 1 0x20 (f.words.length == 0) true false c).1

/-! ### Commits (R293, R319) -/

/-- The rings a segment names. -/
def segRings (c : Chip) (n : Nat) : List Nat :=
  [c.rd (F.SLK_SEGn_RING_C1 n), c.rd (F.SLK_SEGn_RING_C2 n), c.rd (F.SLK_SEGn_RING_C3 n), c.rd (F.SLK_SEGn_RING_HRX n)]

/-- The refusals of an SLK commit beside the ranges (R319): two queues of a segment on one ring, RXB beside an enabled
segment. -/
def judgeSlk (c : Chip) : Option Nat :=
  let on := [0, 1].filter fun n => c.flag (F.SLK_SEGn_CFG_EN n)
  (on.find? fun n => (segRings c n).eraseDups.length != 4).map (0x104 + 0x20 * ·) |>.or
    ((on.find? fun n => c.flag (F.SLK_SEGn_CFG_RXB n) && c.flag (F.SLK_SEGn_CFG_EN (1 - n))).map (0x100 + 0x20 * ·))

/-- What an applied SLK commit does beside its registers: a segment that stops or changes its mode loses its queues and its
place; LOAD follows POLLPER. -/
def slkCommitted (was c : Chip) : Chip :=
  c.forAll [0, 1] fun n c =>
    if (segOn was n && !segOn c n) || (segCtl was n != segCtl c n) then
      ({ c with segs := Tab.set {} c.segs n {} } : Chip).wrR (R.SLK_SEGn_STAT n) 0
    else segLoad n c

/-- A soft block reset of SLK. -/
def slkBlockReset (c : Chip) : Chip := { c with segs := [] }

end Sys2Proof.Machine
end

