-- ==== Sys2Proof/Machine/Pmb.lean ====
section
/-! DEFINITION. PMB: poll cycles, host transactions and cap writes on PMBus (R310–R312, R321). -/

namespace Sys2Proof.Machine

/-- The hidden state of entry `k`. -/
def pmbDev (c : Chip) (k : Nat) : PmbDev := Tab.get {} c.pmbDevs k

/-- The hidden state of entry `k` changes by `f`. -/
def modDev (k : Nat) (f : PmbDev → PmbDev) (c : Chip) : Chip := { c with pmbDevs := Tab.upd {} c.pmbDevs k f }

/-- PMB runs, and this chip masters the bus (R318). -/
def pmbOn (c : Chip) : Bool := c.blockOn 0x15 && c.flag F.PMB_CTL_EN && !isStandby c

/-- A transaction of entry `k`. -/
def devXact (c : Chip) (k op code data : Nat) (last : Bool) : Xact :=
  ⟨some k, op, code, c.rd (F.PMB_DEVk_CFG_ADDR k), c.flag (F.PMB_DEVk_CFG_PEC k), data, last⟩

/-- The value of a LINEAR11 word as mantissa and exponent. -/
def linear11 (v : Nat) : Int × Int := (toInt 11 (v % 2 ^ 11), toInt 5 (v / 2 ^ 11))

/-- `m × 2^e × n`, rounded half to even. -/
def scaleExp (m e : Int) (n : Nat) : Int := if 0 ≤ e then m * n * 2 ^ e.toNat else divEven (m * n) (2 ^ (-e).toNat)

/-- A reading in a 16-bit field; one that the field cannot hold has no stated value: `u`. -/
def fit16 (u : Nat) (v : Int) : Nat := if 0 ≤ v ∧ v ≤ 65535 then v.toNat else u % 65536

/-- The LINEAR11 word of `a / b`: the smallest exponent whose mantissa fits in 11 bits, rounded down (R312); `u` where none
does, and where `b` is 0. -/
def toLinear11 (u a b : Nat) : Nat :=
  if b = 0 then u % 65536 else
  let mant := fun (e : Int) => if 0 ≤ e then a / (b * 2 ^ e.toNat) else a * 2 ^ (-e).toNat / b
  match ((List.range 32).map fun i : Nat => (i : Int) - 16).find? fun e => decide (mant e ≤ 1023) with
  | some e => ofInt 5 e * 2 ^ 11 + mant e
  | none => u % 65536

/-- A transaction of a cap write; one of the poll cycle. -/
def isCapXact (x : Xact) : Bool := x.code == 0x46 || x.code == 0x47
@[inherit_doc isCapXact] def isCycleXact (x : Xact) : Bool := [0x00, 0x79, 0x8B, 0x8C, 0x96].contains x.code

/-- The transactions of a cap write: the response byte the first time, the limit, and its read-back (R312). -/
def capXacts (c : Chip) (k lim : Nat) : List Xact :=
  (if (pmbDev c k).respSet then [] else [devXact c k 2 0x47 0x00 false])
    ++ [devXact c k 3 0x46 lim false, devXact c k 5 0x46 0 false]

/-- The queue of transactions becomes `l`; one that comes to its front begins now (R310). -/
def setXacts (t : Time) (l : List Xact) (c : Chip) : Chip :=
  { c with xacts := l, xactAt := if l.head? = c.xacts.head? then c.xactAt else t.tick }

/-- PMB_CAP_WRITE: the limit g / VOUT of a cap of `g` W goes to the device, with the VOUT in 10 mV of the binding's PARAM
(R155, R312); a PARAM of 0 leaves the quotient open. -/
def pmbCapWrite (t : Time) (k g v : Nat) (c : Chip) : Chip :=
  let c := modDev k (fun d => { d with capW := g, capV := v, capDue := true }) c
  if c.flt.biv then c
  else if c.flag (F.PMB_DEVk_STAT_PRES k) && pmbOn c && !sealOnly c then
    let lim := toLinear11 (Config.unstated c.free) (g * 100) v
    let l := c.xacts.filter fun x => !(x.dev == some k && isCapXact x)
    let c := modDev k (fun d => { d with cap := some lim, capDue := false }) (tickFree c)
    setXacts t (l ++ capXacts c k lim) c
  else c

/-- PMB_POLL_CYCLE of entry `k` (R311), PER after the one before it: its transactions in order; VOUT_MODE of a device whose reading failed, and a cap still
to be written, follow the cycle. -/
def pmbPollCycle (t : Time) (k : Nat) (c : Chip) : Chip :=
  if pmbOn c && c.flag (F.PMB_DEVk_CFG_EN k) && !sealOnly c
      && periodOver t (400000 * c.rd F.PMB_CTL_PER) (pmbDev c k).cycAt then
    let page := if c.flag (F.PMB_DEVk_CFG_PAGED k) then [devXact c k 2 0x00 (c.rd (F.PMB_DEVk_CFG_PAGE k)) false] else []
    let mode := if c.flag (F.PMB_DEVk_STAT_PRES k) && (pmbDev c k).voutMode.isNone
        && !c.xacts.any (fun x => x.dev == some k && x.code == 0x20) then [devXact c k 4 0x20 0 false] else []
    let c := setXacts t (c.xacts ++ page ++ [devXact c k 5 0x79 0 false, devXact c k 5 0x8B 0 false,
        devXact c k 5 0x8C 0 false, devXact c k 5 0x96 0 true] ++ mode) (modDev k (fun d => { d with cycAt := some t.tick }) c)
    if (pmbDev c k).capDue then pmbCapWrite t k (pmbDev c k).capW (pmbDev c k).capV c else c
  else c

/-- The transactions with `x` ahead of every cycle that has not begun: after the first, and after the cycle it belongs to. -/
def aheadOfCycles (x : Xact) : List Xact → List Xact
  | [] => [x]
  | a :: l =>
    let run := if isCycleXact a && a.dev.isSome && !a.last then l.take ((l.takeWhile (!·.last)).length + 1) else []
    let rest := l.drop run.length
    let now := rest.takeWhile fun y => !isCycleXact y || y.dev.isNone
    a :: run ++ now ++ x :: rest.drop now.length

/-- PMB_HOST_TRANSACTION: a write of PMB_HCMD with GO; it runs ahead of the next cycle (R311). -/
def pmbHost (t : Time) (v : Nat) (c : Chip) : Chip :=
  let c := c.wrR R.PMB_HCMD (v % 2 ^ 20)
  if pmbOn c && bit v 31 && !c.flag F.PMB_HRES_BUSY && !sealOnly c then
    let x : Xact := ⟨none, c.rd F.PMB_HCMD_OP, c.rd F.PMB_HCMD_CODE, c.rd F.PMB_HCMD_ADDR, c.flag F.PMB_HCMD_PEC,
      c.rd F.PMB_HDATA_DATA, false⟩
    setXacts t (aheadOfCycles x c.xacts) (c.wrB F.PMB_HRES_BUSY true)
  else c

/-- A host transaction ends with a result code. -/
def hostXactEnd (t : Time) (x : Xact) (res data : Nat) (c : Chip) : Chip :=
  let c := (c.wrB F.PMB_HRES_BUSY false).wr F.PMB_HRES_RES res
  let c := irq t 0x15 3 (if res = 0 ∧ 4 ≤ x.op then c.wr F.PMB_HDATA_DATA data else c)
  if res = 0 then c else raise t 0x0E 0x40 x.addr c

/-- The context of entry `k`, when it has one. -/
def devCtx (c : Chip) (k : Nat) : Option Nat :=
  let i := c.rd (F.PMB_DEVk_STAT_CTX k)
  if (ctx c i).path = 2 ∧ (ctx c i).loc = k ∧ (ctx c i).state = ctxACTIVE then some i else none

/-- The readings of a complete cycle show in the registers and the context (R311, R315). -/
def devReadings (t : Time) (k : Nat) (c : Chip) : Chip :=
  let d := pmbDev c k
  let lin := (d.voutMode.map fun m => m / 32 % 8 == 0).getD false
  let n := (d.voutMode.map fun m => toInt 5 m).getD 0
  let v := if lin then scaleExp d.rawV n 100 else 0
  let (mi, ei) := linear11 d.rawI
  let (mp, ep) := linear11 d.rawP
  let u := Config.unstated c.free
  let c := (c.wr (F.PMB_DEVk_VI_VOUT k) (fit16 u v)).wr (F.PMB_DEVk_VI_IOUT k) (fit16 (u / 2 ^ 16) (scaleExp mi ei 100))
  let c := tickFree (c.wr (F.PMB_DEVk_P_POUT k) (fit16 (u / 2 ^ 32) (scaleExp mp ep 1)))
  let c := if d.voutMode.isSome && !lin && !d.formatEp then
      raise t 0x0E 0x10 k (modDev k (fun d => { d with formatEp := true }) c)
    else c
  match devCtx c k with
  | none => c
  | some i =>
    let data := (d.voutMode.getD 0) % 256 + 2 ^ 16 * c.rd (F.PMB_DEVk_STAT_STATUS k) + 2 ^ 32 * d.rawV + 2 ^ 48 * d.rawI
      + 2 ^ 64 * d.rawP + 2 ^ 80 * d.cap.getD 0
    setCtx i { ctx c i with last := t.stamps, data := data } c

/-- The identity of the device of entry `k` (R311). -/
def pmbIdentity (c : Chip) (k : Nat) : Nat :=
  0xFE00000000000000 + c.rd (F.PMB_DEVk_CFG_PAGE k) * 256 + c.rd (F.PMB_DEVk_CFG_ADDR k)

/-- The device becomes present: it gets a context, and VOUT_MODE is read once (R311). -/
def devPresent (t : Time) (k : Nat) (c : Chip) : Chip :=
  let (c, r) := ctxRequest t { id := pmbIdentity c k, path := 2, pclass := 5, loc := k } c
  let c := (c.wrB (F.PMB_DEVk_STAT_PRES k) true).wr (F.PMB_DEVk_STAT_CTX k) (match r with | .ok i => i | .error _ => 0xFF)
  irq t 0x15 0 (setXacts t (c.xacts ++ [devXact c k 4 0x20 0 false]) c)

/-- A cycle of entry `k` has completed (R311). -/
def cycleOk (t : Time) (k : Nat) (c : Chip) : Chip :=
  let c := modDev k (fun d => { d with okRun := d.okRun + 1, missRun := 0 }) c
  let c := if 2 ≤ (pmbDev c k).okRun ∧ !c.flag (F.PMB_DEVk_STAT_PRES k) then devPresent t k c else c
  devReadings t k c

/-- Entry `k` has no device: no write is made, and a cap is written at the next presence (R317). -/
def devGone (t : Time) (k : Nat) (c : Chip) : Chip :=
  let c := setXacts t (c.xacts.filter fun x => x.dev != some k) c
  let c := (c.wrB (F.PMB_DEVk_STAT_PRES k) false).wr (F.PMB_DEVk_STAT_CTX k) 0xFF
  modDev k (fun d => { d with
    okRun := 0, voutMode := none, capDue := d.capDue || d.cap.isSome, respSet := false, formatEp := false }) c

/-- A cycle of entry `k` has failed: the rest of it lapses, and MISS in a row detach the device with kind 0x01 (R311). -/
def cycleFail (t : Time) (k : Nat) (c : Chip) : Chip :=
  let c := setXacts t (c.xacts.filter fun x => !(x.dev == some k && isCycleXact x)) c
  let c := modDev k (fun d => { d with okRun := 0, missRun := d.missRun + 1 }) c
  if c.flag (F.PMB_DEVk_STAT_PRES k) && decide (c.rd F.PMB_CTL_MISS ≤ (pmbDev c k).missRun) then
    let c := match devCtx c k with | some i => ctxDetach t i c | none => c
    raise t 0x0E 0x01 k (irq t 0x15 1 (devGone t k c))
  else c

/-- A cap write is not confirmed: it is repeated in the next cycle (R312). -/
def capUnconfirmed (t : Time) (k : Nat) (c : Chip) : Chip :=
  let c := setXacts t (c.xacts.filter fun x => !(x.dev == some k && isCapXact x)) c
  raise t 0x0E 0x08 k (irq t 0x15 5 (modDev k (fun d => { d with capDue := true }) c))

/-- A transaction of entry `k` has failed: its cycle, its cap write, or the reading of VOUT_MODE, repeated in the next cycle. -/
def devXactFail (t : Time) (k : Nat) (x : Xact) (c : Chip) : Chip :=
  if isCycleXact x then cycleFail t k c else if isCapXact x then capUnconfirmed t k c else c

/-- A transaction of entry `k` is done with its data (R311, R312). -/
def devXactDone (t : Time) (k : Nat) (x : Xact) (data : Nat) (c : Chip) : Chip :=
  let c := match x.code with
    | 0x79 =>
      let c := c.wr (F.PMB_DEVk_STAT_STATUS k) data
      if data % 65536 = 0 then modDev k (fun d => { d with statusEp := false }) c
      else if (pmbDev c k).statusEp then c
      else raise t 0x0E 0x20 k (irq t 0x15 2 (modDev k (fun d => { d with statusEp := true }) c))
    | 0x8B => modDev k (fun d => { d with rawV := data % 65536 }) c
    | 0x8C => modDev k (fun d => { d with rawI := data % 65536 }) c
    | 0x96 => modDev k (fun d => { d with rawP := data % 65536 }) c
    | 0x20 =>
      (modDev k (fun d => { d with voutMode := some (data % 256) }) c).wrB (F.PMB_DEVk_STAT_LINEAR k) (data / 32 % 8 == 0)
    | 0x47 => modDev k (fun d => { d with respSet := true }) c
    | 0x46 =>
      if x.op = 5 then
        if (pmbDev c k).cap = some (data % 65536) then
          let (m, e) := linear11 data
          tickFree ((c.wrB (F.PMB_DEVk_STAT_CAPSET k) true).wr (F.PMB_DEVk_P_ICAP k)
            (fit16 (Config.unstated c.free) (scaleExp m e 100)))
        else capUnconfirmed t k c
      else c
    | _ => c
  if x.last then cycleOk t k c else c

/-- The bytes of a read transaction that its packet error code covers. -/
def pecBytes (x : Xact) (data : Nat) : List Byte :=
  bytesLE 1 (2 * x.addr) ++ bytesLE 1 x.code ++ bytesLE 1 (2 * x.addr + 1) ++ bytesLE (if x.op = 4 then 1 else 2) data

/-- The result code of PMB_HRES: a read whose PEC does not match is a PEC error, where the device's PEC is 1 (R310). -/
def xactResult (x : Xact) (reply : PmbReply) (data : Nat) : Nat :=
  match reply with
  | .addressNak => 1
  | .dataNak => 2
  | .whole pec => if x.pec && decide (4 ≤ x.op) && crc8 (pecBytes x data) != pec then 3 else 0

/-- PMB_TRANSACTION_DONE: the transaction in front completes with its answer and data (R310, R311). -/
def pmbDone (t : Time) (reply : PmbReply) (data : Nat) (c : Chip) : Chip :=
  match c.xacts with
  | [] => c
  | x :: rest =>
    let c := { c with xacts := rest, xactAt := t.tick }
    let res := xactResult x reply data
    match x.dev with
    | none => hostXactEnd t x res data c
    | some k =>
      let c := if res = 3 then raise t 0x0E 0x02 k c else c
      if res = 0 then devXactDone t k x data c else devXactFail t k x c

/-- PMB_TRANSACTION_TIMEOUT: a transaction held over 25 ms is aborted; with SDA low, up to nine clocks and a STOP, and
kind 0x04, which R319 names for a timeout too (R310). -/
def pmbTimeout (t : Time) (sdaLow : Bool) (c : Chip) : Chip :=
  match c.xacts with
  | [] => c
  | x :: rest =>
    if t.tick ≤ c.xactAt + 10000000 then c else
    let c := { c with xacts := rest, xactAt := t.tick }
    let c := raise t 0x0E 0x04 (x.dev.getD 0) (irq t 0x15 4 c)
    match x.dev with
    | none => hostXactEnd t x (if sdaLow then 5 else 4) 0 c
    | some k => devXactFail t k x c

/-- The refusals of a PMB commit beside the ranges (R319): SPEED, a shared ADDR and PAGE, a reserved ADDR. -/
def judgePmb (c : Chip) : Option Nat :=
  let on := (List.range 8).filter fun k => c.flag (F.PMB_DEVk_CFG_EN k)
  let key := fun k => (c.rd (F.PMB_DEVk_CFG_ADDR k), c.rd (F.PMB_DEVk_CFG_PAGE k))
  if c.rd F.PMB_CTL_SPEED = 3 then some 0x40
  else (on.find? fun k => decide ((key k).1 ≤ 7) || decide (0x78 ≤ (key k).1)
    || on.any fun j => decide (j < k) && key j == key k).map (0x100 + 0x10 * ·)

/-- An entry that a commit switches off, or points at another device, ends its device's presence. -/
def pmbCommitted (t : Time) (was c : Chip) : Chip :=
  c.forAll (List.range 8) fun k c =>
    let who := fun (c : Chip) => (c.rd (F.PMB_DEVk_CFG_ADDR k), c.rd (F.PMB_DEVk_CFG_PAGE k))
    if was.flag (F.PMB_DEVk_CFG_EN k) && (!c.flag (F.PMB_DEVk_CFG_EN k) || who was != who c) then
      let c := match devCtx c k with | some i => ctxDetach t i c | none => c
      let c := { setXacts t (c.xacts.filter fun x => x.dev != some k) c with pmbDevs := Tab.erase c.pmbDevs k }
      ((c.wrR (R.PMB_DEVk_STAT k) (R.PMB_DEVk_STAT k).reset.toNat).wrR (R.PMB_DEVk_VI k) (R.PMB_DEVk_VI k).reset.toNat).wrR
        (R.PMB_DEVk_P k) (R.PMB_DEVk_P k).reset.toNat
    else c

/-- A soft block reset of PMB. -/
def pmbBlockReset (c : Chip) : Chip := { c with xacts := [], pmbDevs := [] }

end Sys2Proof.Machine
end

