-- ==== Sys2Proof/Machine/Bus.lean ====
section
/-! DEFINITION. BUS: the voltage reference, sources and shares, set-point channels, droop, hold-up, gap notices, the
return to the line and inversion (R121–R147, R516). -/

namespace Sys2Proof.Machine

/-- The hidden state of BUS changes by `f`. -/
def modBus (f : Bus → Bus) (c : Chip) : Chip := { c with bus := f c.bus }

/-- BUS states (R134). -/
def busOFF : Nat := 0
@[inherit_doc busOFF] def busNORMAL : Nat := 1
@[inherit_doc busOFF] def busPREP : Nat := 2
@[inherit_doc busOFF] def busRAMP : Nat := 3
@[inherit_doc busOFF] def busHOLD : Nat := 4
@[inherit_doc busOFF] def busRETURN : Nat := 5

/-- The BUS state. -/
def busState (c : Chip) : Nat := c.rd F.BUS_STAT_STATE

/-- BUS runs. -/
def busOn (c : Chip) : Bool := c.blockOn 0x0F && c.flag F.BUS_CTL_EN

/-- The battery is on bus duty (R126). -/
def onDuty (c : Chip) : Bool := decide (busPREP ≤ busState c) && decide (busState c ≤ busRETURN)

/-- `x` toward `target` by at most `d`. -/
def toward (x target : Int) (d : Nat) : Int :=
  if x ≤ target then min target (x + d) else max target (x - d)

/-! ### References (R122, R124, R132) -/

/-- Fields of source `i` (R125). -/
def srcKind (c : Chip) (i : Nat) : Nat := c.rd (F.BUS_Si_CFG_KIND i)
@[inherit_doc srcKind] def srcUnit (c : Chip) (i : Nat) : Nat := c.rd (F.BUS_Si_CFG_UNIT i)
@[inherit_doc srcKind] def srcOn (c : Chip) (i : Nat) : Bool :=
  c.flag (F.BUS_Si_CFG_EN i) && c.rd (F.BUS_Si_CFG_WEIGHT i) != 0 && srcKind c i != 0

/-- The source of a kind, if one is set up. -/
def srcOfKind (c : Chip) (k : Nat) : Option Nat := (List.range 8).find? fun i => srcKind c i == k

/-- The share of source `i`. -/
def shareOf (c : Chip) (i : Nat) : Int := Tab.get 0 c.bus.share i

/-- BUS is in droop mode (R132). -/
def inDroop (c : Chip) : Bool := busOn c && (c.bus.droop != 0 || c.flag F.BUS_CTL_DROOPFRC)

/-- Inversion is allowed (R143). -/
def invAllowed (c : Chip) : Bool :=
  busOn c && c.flag F.BUS_CTL_INVEN && busState c == busNORMAL && angState c == angLOCK

/-- The export in force, in 2^−20 (R143). -/
def exportNow (c : Chip) : Int :=
  if invAllowed c && c.bus.armed then (min (c.rd F.BUS_EXPORT_X) (c.rd F.BUS_EXPORT_INVMAX) * 64 : Nat) else 0

/-- A limit of a LINE source times the line factor (R125). -/
def byRho (c : Chip) (i : Nat) (x : Int) : Int :=
  if c.flag (F.BUS_Si_CFG_LINE i) then divEven (x * c.bus.rhoK) (max 1 c.bus.rhoN) else x

/-- A current in 0.1 A as 2^−20 per-unit of IBASE. -/
def ofDeciAmps (c : Chip) (x : Int) : Int := divEven (x * 2 ^ 20) (max 1 (c.rd F.BUS_BASE_IBASE))

/-- The context of the channel of a partner source. -/
def chanCtx (c : Chip) (n : Nat) : Ctx := ctx c (c.rd (F.BUS_SPn_CFG_CTX n))

/-- The effective limits of source `i` (R125). -/
def limitsOf (c : Chip) (i : Nat) : Int × Int :=
  let lo := c.rdI (F.BUS_Si_LIM_LO i) * 64
  let hi := c.rdI (F.BUS_Si_LIM_HI i) * 64
  let (lo, hi) := match srcKind c i with
    | 1 => (if invAllowed c then max lo (-(c.rd F.BUS_EXPORT_INVMAX * 64 : Nat) : Int) else 0, hi)
    | 2 => (max lo (-c.bus.batChg), min hi c.bus.batDis)
    | 3 => (Tab.get none c.bus.ports (srcUnit c i)).getD (0, 0)
    | 4 => (lo, min hi (ofDeciAmps c (chanCtx c (srcUnit c i)).capab))
    | _ => (0, 0)
  (byRho c i lo, byRho c i hi)

/-- Source `i` is available (R126, R136). -/
def srcAvail (c : Chip) (i : Nat) : Bool :=
  busOn c && busState c != busOFF && srcOn c i && (!c.flag (F.BUS_Si_CFG_LINE i) || c.bus.rhoK != 0) &&
    match srcKind c i with
    | 1 => groupOn c (srcUnit c i) && busState c != busHOLD && busState c != busOFF
    | 2 => onDuty c
    | 3 => groupOn c (srcUnit c i) && (Tab.get none c.bus.ports (srcUnit c i)).isSome
    | 4 => (chanCtx c (srcUnit c i)).state == ctxACTIVE && c.flag (F.BUS_SPn_CFG_EN (srcUnit c i))
        && !bit c.bus.droop (srcUnit c i)
    | _ => false

/-- V* of droop mode in 10 mV / 400,000: V0L × (1 − KDL × 10^−4 × σ) (R132). -/
def droopVolts (c : Chip) : Nat :=
  let l := (List.range 8).filter fun i => srcAvail c i && srcKind c i != 4
  let s := (l.map (shareOf c)).foldl (· + ·) 0
  let h := (l.map fun i => (limitsOf c i).2).foldl (· + ·) 0
  let v0 : Int := c.rd F.BUS_DROOP_V0L * 400000
  if h ≤ 0 then v0.toNat
  else (v0 - divEven (v0 * c.rd F.BUS_DROOP_KDL * s) (10000 * h.toNat)).toNat

/-- A voltage in 10 mV / 400,000 as a signal word in per-unit of VBASE. -/
def voltWord (c : Chip) (v : Nat) : Int := divEven ((v : Int) * 2 ^ 24) (400000 * max 1 (c.rd F.BUS_BASE_VBASE))

/-- The target of the battery reference: its share on bus duty, the reversed charge command off it (R126). -/
def batTarget (c : Chip) : Int :=
  match srcOfKind c 2 with
  | some i => if onDuty c then shareOf c i else -c.bus.batCmd
  | none => -c.bus.batCmd

/-- What time has moved since it was last formed: V* toward VSET at SLEW (R122), and the battery reference (R141). -/
def busAdvance (t : Time) (c : Chip) : Chip :=
  let goal : Int := c.rd F.BUS_VREF_VSET * 400000
  let d := c.rd F.BUS_VREF_SLEW * 10 * (t.tick - c.bus.vAt)
  let e := c.rd F.BUS_RET_SLEW * 2 ^ 20 * (t.tick - c.bus.batAt)
  let target := batTarget c * 40000000
  let limited := c.bus.batSlew && busState c != busHOLD
  let ref := if limited then toward c.bus.batRef target e else target
  modBus (fun b => { b with
    vRaw := (toward b.vRaw goal d).toNat, uRaw := (toward b.uRaw goal d).toNat, vAt := t.tick
    batRef := ref, batAt := t.tick
    batSlew := b.batSlew && (onDuty c || ref != target) }) c

/-- References 0–2 and 8–15 are delivered (R124). -/
def busRefs (c : Chip) : Chip :=
  let put := setRef
  let v0 := if inDroop c then droopVolts c else c.bus.uRaw
  let c := put 0x20 (voltWord c v0) (put 0x21 (c.bus.demand * 16) (put 0x22 (voltWord c c.bus.vRaw) c))
  c.forAll (List.range 8) fun i c =>
    put (0x28 + i) (if srcKind c i = 2 then divEven (c.bus.batRef * 16) 40000000 else shareOf c i * 16) c

/-- The references as they stand in this tick. -/
def busRefresh (t : Time) (c : Chip) : Chip := busRefs (busAdvance t c)

/-! ### Allocation (R127, R128) -/

/-- Shares of a class: the first pass, then one redistribution (R127). -/
def allocateClass (u : List (Nat × Nat × Int × Int)) (r : Int) : List (Nat × Int) :=
  let w := (u.map fun x => x.2.1).foldl (· + ·) 0
  let s := u.map fun x => (x, clampI x.2.2.1 x.2.2.2 (divEven (r * x.2.1) (max 1 w)))
  let e := r - (s.map Prod.snd).foldl (· + ·) 0
  let open_ := fun (y : (Nat × Nat × Int × Int) × Int) =>
    (decide (0 < e) && decide (y.2 < y.1.2.2.2)) || (decide (e < 0) && decide (y.1.2.2.1 < y.2))
  let wv := ((s.filter open_).map fun y => y.1.2.1).foldl (· + ·) 0
  s.map fun y => (y.1.1, if open_ y then clampI y.1.2.2.1 y.1.2.2.2 (y.2 + divEven (e * y.1.2.1) (max 1 wv)) else y.2)

/-- The shares of every source for demand `d` and the demand left unmet (R127). A front end that is not available has share 0 and
takes no export (R126). -/
def divide (c : Chip) (d : Int) : Tab Int × Int :=
  let fe := (srcOfKind c 1).filter (srcAvail c)
  let x := if fe.isSome then exportNow c else 0
  let start : Tab Int := if 0 < x then (match fe with | some i => [(i, -x)] | none => []) else []
  let (sh, r) := (List.range 4).foldl (fun (a : Tab Int × Int) k =>
    let u := ((List.range 8).filter fun i => srcAvail c i && c.rd (F.BUS_Si_CFG_CLASS i) == k
      && !(decide (0 < x) && srcKind c i == 1)).map fun i => (i, c.rd (F.BUS_Si_CFG_WEIGHT i), limitsOf c i)
    let l := allocateClass u a.2
    (l.foldl (fun t y => Tab.set 0 t y.1 y.2) a.1, a.2 - (l.map Prod.snd).foldl (· + ·) 0)) (start, d + x)
  if 0 < x ∧ 0 < r then
    let t := min x r
    ((match fe with | some i => Tab.upd 0 sh i (· + t) | none => sh), r - t)
  else (sh, r)

/-- A value of 2^−20 as a signed Q2.14 field, saturating. -/
def q14 (x : Int) : Nat := ofInt 16 (clampI (-32768) 32767 (divEven x 64))

/-- Power of a per-unit value in 100 W. -/
def hectoWatts (c : Chip) (x : Int) : Nat :=
  (clampI 0 65535 (divEven (x * (c.rd F.BUS_BASE_VBASE * c.rd F.BUS_BASE_IBASE : Nat)) (2 ^ 20 * 100000))).toNat

/-- The upper limits that stay in HOLD: every source but those of the line (R141). -/
def holdHi (c : Chip) : Int :=
  (((List.range 8).filter fun i => srcOn c i && !c.flag (F.BUS_Si_CFG_LINE i) && srcKind c i != 1
      && (srcKind c i == 2 || srcAvail c i)).map fun i => (limitsOf c i).2).foldl (· + ·) 0

/-- BUS_STAT, BUS_DEMAND, BUS_AVAIL and the source registers follow. -/
def busStatus (c : Chip) : Chip :=
  let av := (List.range 8).filter (srcAvail c)
  let now := (av.map fun i => (limitsOf c i).2).foldl (· + ·) 0
  let c := (c.wr F.BUS_STAT_SRCAV (av.foldl (fun m i => m + 2 ^ i) 0)).wr F.BUS_STAT_NQ c.bus.notices.length
  let c := ((c.wrB F.BUS_STAT_EXPORT (decide (0 < exportNow c))).wrB F.BUS_STAT_UNMET (c.bus.unmet != 0)).wrB F.BUS_STAT_DROOP (inDroop c)
  let c := (c.wr F.BUS_DEMAND_D (q14 c.bus.demand)).wr F.BUS_DEMAND_UNMET (q14 c.bus.unmet)
  let c := (c.wr F.BUS_AVAIL_PNOW (hectoWatts c now)).wr F.BUS_AVAIL_PHOLD (hectoWatts c (holdHi c))
  c.forAll (List.range 8) fun i c =>
    let s := shareOf c i
    let (lo, hi) := limitsOf c i
    (((c.wr (F.BUS_Si_SHARE_SHARE i) (q14 s)).wrB (F.BUS_Si_SHARE_AVAIL i) (av.contains i)).wrB (F.BUS_Si_SHARE_CLAMP i)
      (av.contains i && (s == lo || s == hi))).wrB (F.BUS_Si_SHARE_DUTY i) (srcKind c i == 2 && onDuty c)

/-- DEMAND_ALLOCATION (R127, R128): shares, UNMET, references. With BUS off every share is 0 (R134). -/
def allocate (t : Time) (c : Chip) : Chip :=
  let c := busAdvance t c
  let (sh, r) := if busOn c && busState c != busOFF then divide c c.bus.demand else ([], 0)
  let r := if r.natAbs < 64 then 0 else r
  busStatus (busRefs (busAdvance t (modBus (fun b => { b with
    share := sh, unmet := r, unmetEp := b.unmetEp && r != 0, unmetAt := sinceTick t (r != 0) b.unmetAt }) c)))

/-- The export stops when a condition of inversion ceases: it is disarmed, with EXPOFF (R143). -/
def exportCheck (t : Time) (c : Chip) : Chip :=
  if c.flag F.BUS_STAT_EXPORT && !invAllowed c then
    irq t 0x0F 7 (modBus (fun b => { b with armed := false, written := false, stopAt := some t.tick }) c)
  else c

/-- After a change of availability, a limit, the line factor, the export or the state (R128). -/
def busChanged (t : Time) (c : Chip) : Chip := allocate t (exportCheck t c)

/-- The demand slot has produced: D is its clamped output (R124, R128). -/
def demandOutput (t : Time) (c : Chip) : Chip :=
  let code := c.rd F.BUS_DEM_DSRC
  let d := if code = 0xFF then 0 else divEven (slotOutput c (code - 0x80)) 16
  allocate t (modBus (fun b => { b with demand := d }) c)

/-! ### Measured currents and set-points (R128–R131) -/

/-- The measured current of source `i` in 2^−20 of IBASE: its slot output, or the module's report; none with no source of
it (R128). -/
def measured (c : Chip) (i : Nat) : Option Int :=
  if srcKind c i = 4 then
    let x := chanCtx c (srcUnit c i)
    if x.state = ctxACTIVE then some (ofDeciAmps c (toInt 16 (x.lastrep / 2 ^ 80))) else none
  else if c.rd (F.BUS_Si_CFG_MSRC i) = 0xFF then none
  else some (divEven (slotOutput c (c.rd (F.BUS_Si_CFG_MSRC i) - 0x80)) 16)

/-- BUS_Si_MEAS of every source follows (R128). -/
def showMeasured (c : Chip) : Chip :=
  c.forAll (List.range 8) fun i c => match measured c i with
    | none => c
    | some m => (c.wr (F.BUS_Si_MEAS_MEAS i) (q14 m)).wr (F.BUS_Si_MEAS_ERR i) (q14 (m - shareOf c i))

/-- A CEN output names set-point channel `n` (R129). -/
def chanLooped (c : Chip) (n : Nat) : Bool :=
  (List.range 32).any fun s => (List.range (c.rd (F.CEN_LPs_CFG_NIN s))).any fun j => actuatorOf c s j == 0x20 + n

/-- The value of channel `n` in 2^−20 per-unit: the applied value of its loop group, or the share of the source bound to it
(R129), moving at SLEW after a droop (R133). -/
def chanTarget (c : Chip) (n : Nat) : Int :=
  if chanLooped c n then divEven (Tab.get 0 c.applied (0x20 + n)) 16
  else match (List.range 8).find? fun i => srcKind c i == 4 && srcUnit c i == n with
    | some i => shareOf c i
    | none => 0

/-- The set-point object of channel `n` with value `v` (R130). -/
def setPointWords (c : Chip) (n : Nat) (v : Int) : List Nat :=
  let iset := ofInt 16 (clampI (-32768) 32767 (divEven (v * c.rd F.BUS_BASE_IBASE) (2 ^ 20)))
  let tout := divUp (c.rd F.BUS_SPTIM_LOSS * c.rd F.BUS_SPTIM_PER) 10
  [iset + 2 ^ 24 * (tout % 256), c.rd (F.BUS_SPn_DR_V0 n) + 65536 * c.rd (F.BUS_SPn_DR_KD n)]

/-- A set-point frame of channel `n`: sent, or placed in the staging ring (R129). -/
def sendSetPoint (t : Time) (n : Nat) (v : Int) (staged : Bool) (c : Chip) : Chip :=
  let i := c.rd (F.BUS_SPn_CFG_CTX n)
  let w := setPointWords c n v
  if staged then
    ringWrite t (c.rd (F.BUS_SPn_CFG_RING n))
      (bytesLE 1 0xA1 ++ bytesLE 1 2 ++ bytesLE 1 i ++ bytesLE 5 0 ++ w.flatMap (bytesLE 4)) c
  else sendTo t i 1 0x08 w c

/-- SETPOINT_SEND: once in PER each enabled channel sends or stages one set-point (R129). -/
def setPointSend (t : Time) (c : Chip) : Chip :=
  if busOn c && decide (c.bus.sentAt + 4000 * c.rd F.BUS_SPTIM_PER ≤ t.tick) then
    (modBus (fun b => { b with sentAt := t.tick }) c).forAll ((List.range 8).filter fun n => c.flag (F.BUS_SPn_CFG_EN n)) fun n c =>
      let s := Tab.get {} c.bus.chans n
      let goal := chanTarget c n * 40000000
      let v := if s.on then toward s.v goal (if s.first then 0 else c.rd F.BUS_RET_SLEW * 2 ^ 20 * (t.tick - s.at_)) else goal
      let c := modBus (fun b => { b with chans := Tab.set {} b.chans n (if s.on && v != goal then ⟨v, false, t.tick, true⟩ else {}) }) c
      sendSetPoint t n (divEven v 40000000) (c.flag (F.BUS_SPn_CFG_STAGE n)) c
  else c

/-- Schedule action 0x07 on a context: `n` staged frames leave the ring for the shelf link, in order (R51, R129). -/
def releaseFrames (t : Time) (k : Nat) : Nat → Chip → Chip
  | 0, c => c
  | n + 1, c =>
    if 16 ≤ ringFill c k then
      let e := ringPeek c k (ring c k).outW 16
      let w := fun o => leNat ((e.drop o).take 4)
      releaseFrames t k n (sendTo t ((e.drop 2).headD 0).toNat 1 0x08 [w 8, w 12] (ringTake t k 16 c))
    else c

/-- A LINE source's channel resumes from the module's reported current (R133, R142). -/
def resumeChannel (t : Time) (n : Nat) (c : Chip) : Chip :=
  let v := ofDeciAmps c (toInt 16 ((chanCtx c n).lastrep / 2 ^ 80)) * 40000000
  modBus (fun b => { b with chans := Tab.set {} b.chans n ⟨v, true, t.tick, true⟩ }) c

/-! ### Droop (R132, R133) -/

/-- TOUT of the set-points in ticks (R130). -/
def spLoss (c : Chip) : Nat := 40000 * divUp (c.rd F.BUS_SPTIM_LOSS * c.rd F.BUS_SPTIM_PER) 10

/-- A channel in droop (R132): kind 0x10 once. -/
def droopEnter (t : Time) (n : Nat) (c : Chip) : Chip :=
  if busOn c && c.flag (F.BUS_SPn_CFG_EN n) && !bit c.bus.droop n then
    let was := inDroop c
    let c := modBus (fun b => { b with droop := setBit b.droop n true }) (busAdvance t c)
    let c := if was then c else irq t 0x0F 3 c
    busChanged t (raise t 0x07 0x10 n c)
  else c

/-- CHANNEL_DROOP_ENTER: no report has arrived from the channel's context for TOUT (R132). -/
def reportLost (t : Time) (n : Nat) (c : Chip) : Chip :=
  if Tab.get 0 c.bus.repAt n + spLoss c ≤ t.tick then droopEnter t n c else c

/-- CHANNEL_DROOP_LEAVE: the channel's context reports again with its segment up (R133). -/
def droopLeave (t : Time) (n : Nat) (c : Chip) : Chip :=
  if bit c.bus.droop n && !c.flag (F.SLK_SEGn_STAT_DOWN (ctxSeg (chanCtx c n))) then
    let v := droopVolts c
    let c := resumeChannel t n (modBus (fun b => { b with droop := setBit b.droop n false }) (busAdvance t c))
    let c := if inDroop c then c else irq t 0x0F 3 (modBus (fun b => { b with uRaw := v }) c)
    busChanged t c
  else c

/-- The channels that serve a context. -/
def chansOf (c : Chip) (i : Nat) : List Nat :=
  (List.range 8).filter fun n => c.flag (F.BUS_SPn_CFG_EN n) && c.rd (F.BUS_SPn_CFG_CTX n) == i

/-- A segment is down: its channels enter droop (R132). -/
def segDroop (t : Time) (n : Nat) (c : Chip) : Chip :=
  c.forAll ((List.range 8).filter fun k => (chanCtx c k).path == 1 && ctxSeg (chanCtx c k) == n) (droopEnter t)

/-- A context's report or departure reaches BUS. -/
def ctxToBus (t : Time) (i : Nat) (reported : Bool) (c : Chip) : Chip :=
  if busOn c then
    let c := if reported then c.forAll (chansOf c i) fun n c =>
        droopLeave t n (modBus (fun b => { b with repAt := Tab.set 0 b.repAt n t.tick }) c) else c
    if (chansOf c i).isEmpty then c else busChanged t (showMeasured c)
  else c

/-! ### Hold-up (R134–R137) -/

/-- The front-end legs are held off, or released (R136, R142). -/
def setFeHold (on : Bool) (c : Chip) : Chip :=
  let c := modBus (fun b => { b with feHold := on, relPend := false }) c
  c.forAll (List.range 12) fun n c =>
    let fe := (groupOfLeg c n).isSome && (srcOfKind c 1).map (srcUnit c) == groupOfLeg c n
    if on && fe then holdLeg 0 n true c else if bit (leg c n).heldBy 0 then holdLeg 0 n false c else c

/-- BAT returns to RUN, with WAKE (R217). -/
def idleExit (t : Time) (c : Chip) : Chip :=
  let c := { c with bat := { c.bat with calmAt := none } }
  if c.flag F.BAT_STAT_IDLE then irq t 0x12 6 ({ c with bat := { c.bat with runAt := t.tick } }.wrB F.BAT_STAT_IDLE false) else c

/-- BUS enters a state; NORMAL and HOLD raise their interrupts, and BAT wakes when NORMAL is left (R217). -/
def setBusState (t : Time) (n : Nat) (c : Chip) : Chip :=
  let c := if busState c = busNORMAL ∧ n ≠ busNORMAL then idleExit t c else c
  let c := (c.wr F.BUS_STAT_STATE n).wrB F.BAT_STAT_DUTY (decide (busPREP ≤ n) && decide (n ≤ busRETURN))
  if n = busNORMAL then irq t 0x0F 0 c else if n = busHOLD then irq t 0x0F 1 c else c

/-- The line factor. -/
def setRho (k n : Nat) (c : Chip) : Chip := modBus (fun b => { b with rhoK := k, rhoN := n }) c

/-- The limit of a take-over in ticks (R137): a quarter of one cycle at ANG_FREQ in LOCK or HOLD, else BUS_HU.TAKE. -/
def takeLimit (c : Chip) : Nat :=
  if angState c = angLOCK ∨ angState c = angHOLD then 10 ^ 11 / max 1 (c.rd F.ANG_FREQ_FREQ) else c.rd F.BUS_HU_TAKE * 40000

/-- LINE_LOSS_HANDOVER (R136) on a detection path of R135: the zero set-points go out at once, staged where the channel stages
(R129), and no channel slews on. -/
def handOver (t : Time) (path : Nat) (c : Chip) : Chip :=
  let line := (List.range 8).filter fun i => srcOn c i && srcKind c i == 4 && c.flag (F.BUS_Si_CFG_LINE i)
    && c.flag (F.BUS_SPn_CFG_EN (srcUnit c i))
  let c := (c.wr F.BUS_TAKE_PATH path)
  let c := modBus (fun b => { b with dHold := b.demand, freeAt := t.tick, takeAt := some t.tick, takeLate := false, takeLim := takeLimit c, retPend := false, batSlew := true }) (busAdvance t c)
  let c := setFeHold true (setRho 0 1 c)
  let c := c.forAll line fun i c =>
    sendSetPoint t (srcUnit c i) 0 (c.flag (F.BUS_SPn_CFG_STAGE (srcUnit c i))) (modBus (fun b => { b with chans := Tab.set {} b.chans (srcUnit c i) {} }) c)
  busChanged t (setBusState t busHOLD c)

/-- BUS detects loss of the line, in NORMAL, PREP, RAMP or RETURN (R135). -/
def busLoss (t : Time) (path : Nat) (c : Chip) : Chip :=
  if busOn c && (busState c == busNORMAL || busState c == busPREP || busState c == busRAMP || busState c == busRETURN) then
    handOver t path c
  else c

/-- ANG has left LOCK by unlock or out of band (R135, item 2), or BUS only follows the change. -/
def busUnlock (t : Time) (c : Chip) : Chip :=
  if c.flag F.BUS_CTL_UNLKLOSS then busLoss t 1 c else busChanged t c

/-- ANG has entered planned holdover (R135, item 3); in PREP or RAMP the notice is stepped, kind 0x20 (R144). -/
def busPlanned (t : Time) (c : Chip) : Chip :=
  let step := busOn c && (busState c == busPREP || busState c == busRAMP)
  let id := (c.bus.notices.head?.map Notice.id).getD 0
  let c := busLoss t 3 c
  if step then raise t 0x07 0x20 id c else c

/-- The bus voltage in 10 mV / 2^20 of a reading of the input (R123), when one is named. -/
def busVolts (c : Chip) : Option Int :=
  let s := c.rd F.BUS_VMON_SRC
  let k : Int := c.rd F.BUS_VMON_VSCALE * 100
  if s ≤ 0x0F then some (c.rdI (F.AFE_FINn_DATA_VALUE s) * k)
  else if 0x20 ≤ s ∧ s ≤ 0x3F then some (c.rd (F.AFE_SINn_DATA_VALUE (s - 0x20)) * k)
  else none

/-- Vbus for the rules that use it, in 10 mV / 2^20: the latest reading of the bus input; with none named or read since it was
named, V* without droop (R123, R216). -/
def busLevel (c : Chip) : Int :=
  match (if c.bus.seen then busVolts c else none) with
  | some v => v
  | none => divEven ((c.bus.vRaw * 2 ^ 20 : Nat)) 400000

/-- The bus reads below, or above, a level in 10 mV. -/
def busBelow (c : Chip) (lvl : Nat) : Bool := (busVolts c).any fun v : Int => decide (v < ((lvl * 2 ^ 20 : Nat) : Int))
@[inherit_doc busBelow] def busAbove (c : Chip) (lvl : Nat) : Bool := (busVolts c).any fun v : Int => decide (((lvl * 2 ^ 20 : Nat) : Int) < v)

/-- A reading of the bus input ends an episode whose condition no longer holds (R123). -/
def busReading (t : Time) (code : Nat) (c : Chip) : Chip :=
  if busOn c && c.rd F.BUS_VMON_SRC == code then
    let c := modBus (fun b => { b with
      seen := true
      uvAt := sinceTick t (busBelow c (c.rd F.BUS_UVOV_UV)) b.uvAt
      ovAt := sinceTick t (busAbove c (c.rd F.BUS_UVOV_OV)) b.ovAt
      dipAt := sinceTick t (busBelow c (c.rd F.BUS_HU_VDIP)) b.dipAt }) c
    let c := if busBelow c (c.rd F.BUS_UVOV_UV) then c else c.wrB F.BUS_STAT_UV false
    if busAbove c (c.rd F.BUS_UVOV_OV) then c else c.wrB F.BUS_STAT_OV false
  else c

/-- BUS_UNDERVOLTAGE, BUS_OVERVOLTAGE: every reading for UVT or OVT (R123). -/
def busUnder (t : Time) (c : Chip) : Chip :=
  if busOn c && heldFor t (4000000 * c.rd F.BUS_MONT_UVT) c.bus.uvAt && !c.flag F.BUS_STAT_UV then
    raise t 0x07 0x01 0x50 (irq t 0x0F 6 (c.wrB F.BUS_STAT_UV true))
  else c
@[inherit_doc busUnder] def busOver (t : Time) (c : Chip) : Chip :=
  if busOn c && heldFor t (4000000 * c.rd F.BUS_MONT_OVT) c.bus.ovAt && !c.flag F.BUS_STAT_OV then
    raise t 0x07 0x02 0x50 (irq t 0x0F 6 (c.wrB F.BUS_STAT_OV true))
  else c

/-- BUS_DIP_DETECT (R135, item 4): below VDIP for TDIP, with a share above 0 on a LINE source. -/
def busDip (t : Time) (c : Chip) : Chip :=
  if heldFor t (400 * c.rd F.BUS_HU_TDIP) c.bus.dipAt && (List.range 8).any fun i => c.flag (F.BUS_Si_CFG_LINE i) && decide (0 < shareOf c i) then
    busLoss t 2 c
  else c

/-- The take-over has taken longer than its limit: kind 0x04 once (R137). -/
def takeoverExceeds (t : Time) (c : Chip) : Chip :=
  match c.bus.takeAt with
  | some a => if a + c.bus.takeLim < t.tick ∧ !c.bus.takeLate then
      raise t 0x07 0x04 0x84 (modBus (fun b => { b with takeLate := true }) c) else c
  | none => c

/-- The battery's measured current completes the take-over when it reaches 0.9 × min(D_hold, hi), late or not (R137). -/
def takeoverCheck (t : Time) (c : Chip) : Chip :=
  match c.bus.takeAt, srcOfKind c 2 with
  | some a, some i =>
    match measured c i with
    | none => c
    | some m =>
      if 9 * min c.bus.dHold (limitsOf c i).2 ≤ 10 * m then
        let c := takeoverExceeds t c
        irq t 0x0F 2 ((modBus (fun b => { b with takeAt := none }) c).wr F.BUS_TAKE_TIME (min 65535 ((t.tick - a) / 400)))
      else c
  | _, _ => c

/-- TAKEOVER_LATE (R137): the limit has passed and the take-over is not complete; TIME still takes its end. -/
def takeoverLate (t : Time) (c : Chip) : Chip := takeoverExceeds t (takeoverCheck t c)

/-- DEMAND_UNMET: UNMET has stayed non-zero for UNMT (R127). -/
def demandUnmet (t : Time) (c : Chip) : Chip :=
  if busOn c && heldFor t (400000 * c.rd F.BUS_MONT_UNMT) c.bus.unmetAt && !c.bus.unmetEp then
    raise t 0x07 0x08 0x7C (irq t 0x0F 5 (modBus (fun b => { b with unmetEp := true }) c))
  else c

/-- The measured current of source `i` differs from its share beyond SHERR (R128). -/
def sharingOff (c : Chip) (i : Nat) : Bool :=
  shareOf c i != 0 && (measured c i).any fun m =>
    decide (c.rd F.BUS_MONT_SHERR * max (limitsOf c i).1.natAbs (limitsOf c i).2.natAbs < 100 * (m - shareOf c i).natAbs)

/-- SHARING_ERROR of source `i`: both conditions have held for 100 ms; once per episode (R128). -/
def sharingError (t : Time) (i : Nat) (c : Chip) : Chip :=
  if busOn c && heldFor t 40000000 (Tab.get none c.bus.offAt i) && !bit c.bus.shareEp i then
    raise t 0x07 0x40 i (modBus (fun b => { b with shareEp := setBit b.shareEp i true }) c)
  else c

/-- A new share or measurement: since when the conditions of R128 hold for each source; episodes end with them. -/
def sharingWatch (t : Time) (c : Chip) : Chip :=
  modBus (fun b => { b with
    offAt := (List.range 8).foldl (fun l i => Tab.set none l i (sinceTick t (sharingOff c i) (Tab.get none l i))) b.offAt
    shareEp := ((List.range 8).filter fun i => bit b.shareEp i && sharingOff c i).foldl (fun m i => m + 2 ^ i) 0 }) c

/-! ### Gap notices (R139–R141) -/

/-- Signed distance of stamp `a` from stamp `b` in bins (R10). -/
def stampDiff (a b : Stamp) : Int := (a - b).toInt

/-- Milliseconds as bins at the frequency in force. -/
def msBins (c : Chip) (ms : Nat) : Nat := ms * 400000 * effInc c / 2 ^ 32

/-- The notice registers show the queue, in order of start. -/
def showNotices (c : Chip) : Chip :=
  c.forAll (List.range 4) fun k c =>
    match c.bus.notices[k]? with
    | none => ((c.wrR (R.BUS_GNk_C k) 0).wrR (R.BUS_GNk_A k) 0).wrR (R.BUS_GNk_D k) 0
    | some n =>
      let c := (c.wr (F.BUS_GNk_C_CYCLE k) n.start.cycle).wr (F.BUS_GNk_D_DUR k) n.dur
      c.wrR (R.BUS_GNk_A k) (n.start.angle + 2 ^ 16 * (n.id % 16) + 2 ^ 20 * n.state + 2 ^ 23 * n.coupler.toNat + 2 ^ 24 * n.merged.toNat)

/-- The queue becomes `l`, and ANG takes the windows in place of those it had been given; one that runs takes its new duration
(R49, R139). -/
def setNotices (t : Time) (l : List Notice) (c : Chip) : Chip :=
  let old := c.bus.notices.map fun n => (n.start, n.dur)
  let kept := c.ang.planned.filter fun w => !old.contains w
  let new := (l.filter fun n => !c.ang.opened.any fun w => w.1 == n.start).map fun n => (n.start, n.dur)
  let c := modAng (fun a => { a with
    planned := kept ++ new
    opened := a.opened.map fun w => match l.find? fun n => n.start == w.1 with | some n => (w.1, n.dur, w.2.2) | none => w }) (modBus (fun b => { b with notices := l }) c)
  irq t 0x0F 4 (busStatus (showNotices c))

/-- GNRES of an operation. -/
def noticeResult (id res : Nat) (c : Chip) : Chip := (c.wr F.BUS_GNRES_ID id).wr F.BUS_GNRES_RES res

/-- The bounds of the ramp of a notice, from now in bins: the latest cycle start at or before S − TRAMP − TGUARD, no earlier
than the next cycle start, and min(start + TRAMP, S − TGUARD) (R141). -/
def rampSpan (t : Time) (c : Chip) (s : Stamp) : Int × Int :=
  let guard : Int := msBins c (c.rd F.BUS_GAP_TGUARD * 10)
  let ramp : Int := msBins c (c.rd F.BUS_GAP_TRAMP * 10)
  let d := stampDiff s t.stamp
  let a : Int := t.stamp.angle
  let latest := (d - ramp - guard + a) / 65536 * 65536 - a
  let start := max latest (65536 - a)
  (start, min (start + ramp) (d - guard))

/-- PREP begins: the battery goes on bus duty, its reference moves at SLEW (R141). -/
def enterPrep (t : Time) (c : Chip) : Chip :=
  busChanged t (setBusState t busPREP (modBus (fun b => { b with batSlew := true }) (busAdvance t c)))

/-- The first notice that is still queued passes its PREP time; from NORMAL, BUS enters PREP (R141, R144). -/
def prepStart (t : Time) (c : Chip) : Chip :=
  match c.bus.notices.findIdx? fun n => n.state == 1 with
  | none => c
  | some k =>
    if busOn c then
      let c := setNotices t (c.bus.notices.modify k fun n => { n with state := 2 }) c
      if busState c = busNORMAL then enterPrep t c else c
    else c

/-- Merge a window into the notices it overlaps or touches (R140); offsets from `now`. -/
def mergeNotice (c : Chip) (now : Stamp) (n : Notice) (l : List Notice) : Option (List Notice) :=
  let lo := fun (x : Notice) => stampDiff x.start now
  let hi := fun (x : Notice) => stampDiff x.start now + msBins c x.dur
  let meets := fun (x : Notice) => decide (lo x ≤ hi n) && decide (lo n ≤ hi x)
  match l.filter meets with
  | [] => none
  | x :: xs =>
    let first := (x :: xs).foldl (fun a y => if lo y < lo a then y else a) n
    let last := (x :: xs).foldl (fun a y => if hi a < hi y then y else a) n
    let bins := (hi last - lo first).toNat
    let dur := if first.start = last.start then max first.dur last.dur else divNear (bins * 2 ^ 32) (400000 * max 1 (effInc c))
    let m : Notice := { x with start := first.start, dur := dur, merged := true, state := (x :: xs).foldl (fun s y => max s y.state) 1 }
    some ((l.filter fun y => !meets y) ++ [m])

/-- Notices in order of start. -/
def sortNotices (now : Stamp) (l : List Notice) : List Notice :=
  l.foldl (fun s n => s.takeWhile (fun x => decide (stampDiff x.start now ≤ stampDiff n.start now)) ++ n ::
    s.dropWhile (fun x => decide (stampDiff x.start now ≤ stampDiff n.start now))) []

/-- A refused notice: result code and kind 0x20 (R140). -/
def refuseNotice (t : Time) (id res : Nat) (c : Chip) : Chip := raise t 0x07 0x20 id (noticeResult id res c)

/-- GAP_NOTICE_POST: a posted notice is judged in the order of R140. -/
def postNotice (t : Time) (coupler : Bool) (id dur : Nat) (start : Stamp) (c : Chip) : Chip :=
  let d := stampDiff start t.stamp
  if !busOn c || !c.flag F.BUS_CTL_GAPEN then refuseNotice t id 4 c
  else if d ≤ 65536 then refuseNotice t id 2 c
  else if 2 ^ 47 < d ∨ dur < 1 ∨ 60000 < dur then refuseNotice t id 5 c
  else
    let n : Notice := { id := id, coupler := coupler, start := start, dur := dur
                        first := t.stamp + BitVec.ofNat 48 (65536 - t.stamp.angle) }
    match mergeNotice c t.stamp n c.bus.notices with
    | some l => setNotices t (sortNotices t.stamp l) (noticeResult id 1 c)
    | none =>
      if 4 ≤ c.bus.notices.length then refuseNotice t id 3 c
      else
        let (a, z) := rampSpan t c start
        let step := decide (z - a < 65536)
        let c := setNotices t (sortNotices t.stamp ({ n with step := step } :: c.bus.notices)) (noticeResult id (if step then 8 else 0) c)
        let c := if step then raise t 0x07 0x20 id c else c
        if d < msBins c (c.rd F.BUS_GAP_TLEAD * 100) ∧ (c.bus.notices.find? (·.state == 1)).map Notice.id = some id then prepStart t c
        else c

/-- The start stamp of a host notice: an angle stamp, or a nanosecond time converted from ANG_CYCTS and ANG_FREQ (R139). -/
def noticeStart (t : Time) (ns : Bool) (c : Chip) : Stamp :=
  let lo := c.rdR R.BUS_GNC
  let hi := c.rdR R.BUS_GNA
  if ns then
    let cyc : Int := c.rdR R.ANG_CYCTS_LO + 2 ^ 32 * c.rdR R.ANG_CYCTS_HI
    let dns := ((lo + 2 ^ 32 * hi : Nat) : Int) - cyc
    BitVec.ofInt 48 ((t.stamp.cycle * 65536 : Nat) + divEven (dns * (c.rd F.ANG_FREQ_FREQ * 65536 : Nat)) (10 ^ 12))
  else BitVec.ofNat 48 (lo * 65536 + hi % 65536)

/-- A stamp as nanosecond time and back, from ANG_CYCTS and ANG_FREQ. -/
def stampOfNs (t : Time) (c : Chip) (ns : Nat) : Stamp :=
  let cyc : Int := c.rdR R.ANG_CYCTS_LO + 2 ^ 32 * c.rdR R.ANG_CYCTS_HI
  BitVec.ofInt 48 ((t.stamp.cycle * 65536 : Nat) + divEven (((ns : Int) - cyc) * (c.rd F.ANG_FREQ_FREQ * 65536 : Nat)) (10 ^ 12))

/-- A notice is removed from PREP with no other notice holding PREP: BUS returns to NORMAL (R140). -/
def leavePrep (t : Time) (c : Chip) : Chip :=
  if busState c = busPREP ∧ !(c.bus.notices.any fun n => decide (2 ≤ n.state)) then busChanged t (setBusState t busNORMAL c) else c

/-- GAP_NOTICE_CANCEL (R140). -/
def cancelNotice (t : Time) (id : Nat) (c : Chip) : Chip :=
  match c.bus.notices.findIdx? fun n => n.id == id with
  | none => noticeResult id 7 c
  | some k =>
    let n := c.bus.notices[k]?.getD ⟨0, false, 0, 0, 1, false, false, 0⟩
    if n.state = 4 ∨ t.stamp.reached n.start then refuseNotice t id 9 c
    else
      let c := setNotices t (c.bus.notices.eraseIdx k) (noticeResult id 6 c)
      if n.state = 3 ∧ busState c = busRAMP then modBus (fun b => { b with retPend := true, freeAt := t.tick }) c
      else leavePrep t c

/-- The ramp of notice `n` may begin: the latest cycle start at or before S − TRAMP − TGUARD has come, and the next cycle start
after acceptance (R141). -/
def rampDue (t : Time) (c : Chip) (n : Notice) : Bool :=
  let lead : Int := msBins c ((c.rd F.BUS_GAP_TRAMP + c.rd F.BUS_GAP_TGUARD) * 10)
  let a : Int := t.stamp.angle
  decide ((stampDiff n.start t.stamp - lead + a) / 65536 * 65536 ≤ a) && t.stamp.reached n.first

/-- RAMP_START (R141): the line factor begins to fall over the ramp; a ramp of less than a cycle is a step (R140). -/
def rampStart (t : Time) (c : Chip) : Chip :=
  match c.bus.notices.findIdx? fun n => n.state == 2 with
  | none => c
  | some k =>
    let n := c.bus.notices[k]?.getD ⟨0, false, 0, 0, 1, false, false, 0⟩
    if busState c = busPREP ∧ rampDue t c n then
      let c := setNotices t (c.bus.notices.modify k fun n => { n with state := 3 }) c
      if n.step then handOver t 0 c
      else
        let left := stampDiff n.start t.stamp - msBins c (c.rd F.BUS_GAP_TGUARD * 10)
        let ms := min (c.rd F.BUS_GAP_TRAMP * 10) (left.toNat * 2 ^ 32 / (400000 * max 1 (effInc c)))
        let c := modBus (fun b => { b with rhoAt := t.tick, rampTo := t.tick + 400000 * max 1 ms }) c
        busChanged t (setRho (max 1 ms) (max 1 ms) (setBusState t busRAMP c))
    else c

/-- RAMP_END (R141): HOLD, with the front-end legs held off. -/
def rampEnd (t : Time) (c : Chip) : Chip :=
  if busState c = busRAMP ∧ c.bus.rampTo ≤ t.tick then
    let c := modBus (fun b => { b with freeAt := t.tick }) (busAdvance t c)
    busChanged t (setBusState t busHOLD (setFeHold true (setRho 0 1 c)))
  else c

/-- LINE_FACTOR_STEP, every 1 ms in RAMP and RETURN (R125, R134); a notice that passed its PREP time meanwhile brings PREP. -/
def lineStep (t : Time) (c : Chip) : Chip :=
  if t.tick < c.bus.rhoAt + 400000 then c else
  let c := modBus (fun b => { b with rhoAt := t.tick }) c
  if busState c = busRAMP then busChanged t (setRho (c.bus.rhoK - 1) c.bus.rhoN c)
  else if busState c = busRETURN then
    let c := setRho (min c.bus.rhoN (c.bus.rhoK + 1)) c.bus.rhoN (busAdvance t c)
    if c.bus.rhoK = c.bus.rhoN then
      let c := busChanged t (setBusState t busNORMAL (setRho 1 1 c))
      if c.bus.notices.any (·.state == 2) then enterPrep t c else c
    else busChanged t c
  else c

/-- A cycle has started at or after tick `a`. -/
def cycleSince (c : Chip) (a : Nat) : Bool := c.ang.cycAt.any fun x => decide (a ≤ x)

/-- BUS may leave HOLD: ANG has stayed in LOCK for RETDLY, no notice has passed its PREP time without its window ending, and the
next cycle start after that has come (R142). -/
def returnMet (c : Chip) : Bool :=
  angState c == angLOCK && cycleSince c (max (c.ang.lockAt + 4000000 * c.rd F.BUS_RET_RETDLY) c.bus.freeAt) && !(c.bus.notices.any fun n => decide (2 ≤ n.state))

/-- A queued notice whose PREP time is reached counts as passed, before a return is judged (R144). -/
def prepPassed (t : Time) (c : Chip) : Chip :=
  if (c.bus.notices.find? (·.state == 1)).any fun n =>
      decide (stampDiff n.start t.stamp ≤ msBins c (c.rd F.BUS_GAP_TLEAD * 100)) then prepStart t c else c

/-- RETURN_START (R142): slots are seeded, the legs released at the group's next boundary, and the line factor rises over
TRET; after a notice cancelled in RAMP, from its present value (R140). -/
def returnStart (t : Time) (c : Chip) : Chip :=
  let c := prepPassed t c
  if (busState c = busHOLD ∧ returnMet c) ∨ (busState c = busRAMP ∧ c.bus.retPend ∧ cycleSince c c.bus.freeAt) then
    let n := max 1 (c.rd F.BUS_GAP_TRET * 10)
    let k := if busState c = busRAMP then c.bus.rhoK * n / max 1 c.bus.rhoN else 0
    let c := seedRequest (c.rd F.BUS_AFESEED_SLOTS) (busAdvance t c)
    let c := modBus (fun b => { b with relPend := b.feHold, retPend := false, batSlew := true, takeAt := none, rhoAt := t.tick }) (setRho k n c)
    let c := setBusState t busRETURN c
    let c := c.forAll ((List.range 8).filter fun i => srcOn c i && srcKind c i == 4 && c.flag (F.BUS_Si_CFG_LINE i)) fun i c =>
      resumeChannel t (srcUnit c i) c
    busChanged t c
  else c

/-- At a period boundary of group `k` the front-end legs that were to be released go free (R142). -/
def feRelease (k : Nat) (c : Chip) : Chip :=
  if c.bus.relPend && (srcOfKind c 1).map (srcUnit c) == some k then setFeHold false c else c

/-- A notice's start stamp is reached: its window is open (R140). -/
def openWindow (t : Time) (c : Chip) : Chip :=
  match c.bus.notices.findIdx? fun n => decide (n.state ≤ 3) && t.stamp.reached n.start with
  | none => c
  | some k => setNotices t (c.bus.notices.modify k fun n => { n with state := 4 }) c

/-- GAP_NOTICE_WINDOW_END: the first notice leaves the queue at the end of its window (R142). ANG keeps its own window until GAPX
has passed. -/
def noticeEnd (t : Time) (c : Chip) : Chip :=
  match c.bus.notices with
  | [] => c
  | n :: rest =>
    if 0 < stampDiff n.start t.stamp + msBins c n.dur then c
    else leavePrep t (setNotices t rest (modBus (fun b => { b with freeAt := t.tick }) c))

/-! ### Commits (R122–R125, R130, R134) -/

/-- The group a source names has the topology of its kind (R125). -/
def unitOk (c : Chip) (i : Nat) : Bool :=
  match srcKind c i with
  | 1 => srcUnit c i < 6 && c.rd (F.LEG_Gk_CFG_TOPO (srcUnit c i)) == 1
  | 2 => srcUnit c i < 6 && c.rd (F.LEG_Gk_CFG_TOPO (srcUnit c i)) == 2
  | 3 => srcUnit c i < 6 && c.rd (F.LEG_Gk_CFG_TOPO (srcUnit c i)) == 3
  | 4 => true
  | _ => false

/-- The refusals of a BUS commit: the offset of the register that breaks one. BUS_Si_CFG.MSRC has no stated range and takes
every byte, as CAP_GMSRC does (R510, log 14). -/
def judgeBus (c : Chip) : Option Nat :=
  let vset := c.rd F.BUS_VREF_VSET
  let src := c.rd F.BUS_VMON_SRC
  let dsrc := c.rd F.BUS_DEM_DSRC
  let used := (List.range 8).filter fun i => srcKind c i != 0
  let twice := fun i => used.any fun j => decide (j < i) &&
    ((srcKind c i == srcKind c j && (srcKind c i == 1 || srcKind c i == 2))
      || ((srcKind c i == 4) == (srcKind c j == 4) && srcUnit c i == srcUnit c j))
  if vset < 7700 ∨ 13750 < vset then some 0x48
  else if !(decide (src ≤ 0x0F) || (decide (0x20 ≤ src) && decide (src ≤ 0x3F)) || src == 0xFF) then some 0x4C
  else if dsrc < 0x80 then some 0x58
  else if 2550 < c.rd F.BUS_SPTIM_LOSS * c.rd F.BUS_SPTIM_PER then some 0x60
  else match used.find? fun i => !unitOk c i || twice i with
    | some i => some (0x100 + 0x10 * i)
    | none => (used.find? fun i => decide (c.rdI (F.BUS_Si_LIM_HI i) < c.rdI (F.BUS_Si_LIM_LO i))).map (0x104 + 0x10 * ·)

/-- EN is 1 at a commit from OFF: NORMAL, or HOLD with the battery on duty and the legs held (R134). -/
def busStart (t : Time) (c : Chip) : Chip :=
  if angState c = angLOCK then setBusState t busNORMAL (setFeHold false (setRho 1 1 c))
  else setBusState t busHOLD (setFeHold true (setRho 0 1 (modBus (fun b => { b with freeAt := t.tick }) c)))

/-- EN is 0 at a commit: shares 0, front-end legs held off (R134). -/
def busStop (t : Time) (c : Chip) : Chip :=
  setBusState t busOFF (setFeHold true (modBus (fun b => { b with takeAt := none, retPend := false, batSlew := false }) c))

/-- What an applied BUS commit does beside its registers (R122, R134, R143). -/
def busCommitted (t : Time) (was c : Chip) : Chip :=
  let old := (busAdvance t was).bus
  let c := { c with bus := old }
  let c := modBus (fun b => { b with
    armed := b.armed || b.written, written := false
    demand := if c.rd F.BUS_DEM_DSRC = 0xFF then 0 else b.demand
    repAt := ((List.range 8).filter fun n => c.flag (F.BUS_SPn_CFG_EN n) && !was.flag (F.BUS_SPn_CFG_EN n)).foldl
      (fun l n => Tab.set 0 l n t.tick) b.repAt
    seen := b.seen && was.rd F.BUS_VMON_SRC == c.rd F.BUS_VMON_SRC
    droop := ((List.range 8).filter fun n => bit b.droop n && c.flag (F.BUS_SPn_CFG_EN n)).foldl (fun m n => m + 2 ^ n) 0 }) c
  let c := match was.flag F.BUS_CTL_EN, c.flag F.BUS_CTL_EN with
    | false, true => if c.flt.biv then c else busStart t c
    | _, false => busStop t c
    | _, _ => if c.bus.feHold then setFeHold true c else c
  let c := if inDroop c != inDroop was then irq t 0x0F 3 c else c
  let c := if inDroop was && !inDroop c then modBus (fun b => { b with uRaw := droopVolts was }) c else c
  busChanged t c

/-- A soft block reset of BUS acts as a commit with EN = 0: the front-end legs are held, the references carry shares of 0, and V*
starts again from the reset value of VSET (R516). -/
def busBlockReset (t : Time) (was c : Chip) : Chip :=
  let fe := (srcOfKind was 1).map (srcUnit was)
  let c := ({ c with bus := { vAt := t.tick, batAt := t.tick } } : Chip)
  let c := busStatus (busRefs (c.wrB F.BAT_STAT_DUTY false))
  (modBus (fun b => { b with feHold := true }) c).forAll (List.range 12) fun n c =>
    if fe.isSome && fe == groupOfLeg c n then holdLeg 0 n true c else c

end Sys2Proof.Machine
end

