-- ==== Sys2Proof/Machine/Efu.lean ====
section
/-! DEFINITION. EFU: the sixteen e-fuse channels, their trips, retries, power-good, pairs and caps (R176–R198). -/

namespace Sys2Proof.Machine

/-- The codes of R179. -/
def efDIS : Nat := 0
@[inherit_doc efDIS] def efPRECHK : Nat := 1
@[inherit_doc efDIS] def efRAMP : Nat := 2
@[inherit_doc efDIS] def efON : Nat := 3
@[inherit_doc efDIS] def efTRIPWAIT : Nat := 4
@[inherit_doc efDIS] def efLATCHED : Nat := 5
@[inherit_doc efDIS] def efDAMAGED : Nat := 6
@[inherit_doc efDIS] def efREV : Nat := 7
@[inherit_doc efDIS] def efCAPOFF : Nat := 8

/-- The hidden state of channel `n`. -/
def efCh (c : Chip) (n : Nat) : EfCh := Tab.get {} c.efu.chans n

/-- The hidden state of channel `n` changes by `f`. -/
def modEf (n : Nat) (f : EfCh → EfCh) (c : Chip) : Chip :=
  { c with efu := { c.efu with chans := Tab.upd {} c.efu.chans n f } }

/-- The channel runs under SAFE control (R194). -/
def efSafe (c : Chip) (n : Nat) : Bool := c.flag (F.EFU_CHn_STAT_BIV n)

/-- The channel is in the safety set (R391). -/
def inSafeSet (c : Chip) (n : Nat) : Bool := bit (c.rd F.FLT_SAFESET_CH) n

/-- A field of the page as channel `n` runs on it: the retained copy under SAFE control (R194). -/
def efRd (c : Chip) (n : Nat) (f : Fld) : Nat := if efSafe c n then ({ c with regs := c.efu.copy } : Chip).rd f else c.rd f

/-- The state of a channel. -/
def efState (c : Chip) (n : Nat) : Nat := c.rd (F.EFU_CHn_STAT_STATE n)

/-- EFU judges the channel: its block runs, or SAFE does (R194). -/
def efRuns (c : Chip) (n : Nat) : Bool := efSafe c n || (c.blockOn 0x11 && c.flag F.EFU_CTL_EN)

/-- A start hold, hibernate entry, or the Bivouac for a channel outside the set, keeps the channel off (R394, R396,
R477). -/
def efBlocked (c : Chip) (n : Nat) : Bool := c.hibHold || ((c.flt.held || c.flt.biv) && !efSafe c n)

/-- The channel is commanded on: its enable bit, or SAFE (R179, R395). -/
def efCmd (c : Chip) (n : Nat) : Bool := (efSafe c n || bit (c.rd F.EFU_CHEN_EN) n) && !efBlocked c n

/-! ### Readings -/

/-- The latest codes of EF_IS and EF_VO. -/
def efIs (c : Chip) (n : Nat) : Nat := (efCh c n).is.headD 0
@[inherit_doc efIs] def efVo (c : Chip) (n : Nat) : Nat := (efCh c n).vo.headD 0

/-- The current of `codes` in mA, over 4,096 (R176). -/
def efCurrent4096 (c : Chip) (n codes : Nat) : Nat := codes * 2400 * efRd c n (F.EFU_CHn_SCALE_KIS n)

/-- The output in 10 mV, over 4,096 (R176). -/
def efVolt4096 (c : Chip) (n : Nat) : Nat := efVo c n * efRd c n (F.EFU_CHn_SCALE_VFS n)

/-- The supply side in 10 mV × 2^20 (R186), where the channel has a reading; SAFE goes without one that is older than
100 µs (R194). -/
def efVin (t : Time) (c : Chip) (n : Nat) : Option Int :=
  let s := efRd c n (F.EFU_CHn_VIN_SRC n)
  let k : Int := efRd c n (F.EFU_CHn_VIN_VSCALE n) * 100
  let fresh := fun (x : Samp) => !efSafe c n || decide (t.tick ≤ x.tick + 40000)
  if s ≤ 0x0F then
    if fresh (Tab.get {} c.fins s).smp then some (c.rdI (F.AFE_FINn_DATA_VALUE s) * k) else none
  else if 0x20 ≤ s ∧ s ≤ 0x3F then
    if fresh (Tab.get {} c.sins (s - 0x20)).smp then some (c.rd (F.AFE_SINn_DATA_VALUE (s - 0x20)) * k) else none
  else none

/-- Channels 2k and 2k + 1 feed one load (R191); under SAFE control pairs do not apply. -/
def efPaired (c : Chip) (n : Nat) : Bool := c.flag (F.EFU_CHn_CFG_PAIR (n / 2 * 2)) && !efSafe c n

/-- The larger supply side of the channel, or of its pair (R186). -/
def efVinMax (t : Time) (c : Chip) (n : Nat) : Option Int :=
  let own := efVin t c n
  if efPaired c n then
    match own, efVin t c (n / 2 * 2 + (1 - n % 2)) with
    | some a, some b => some (max a b)
    | some a, none => some a
    | none, _ => none
  else own

/-- The output exceeds the supply side by more than `th / 2` × 100 mV; none without a reading, or with the check
off. -/
def efAbove (t : Time) (c : Chip) (n th : Nat) : Option Bool :=
  if efRd c n (F.EFU_CHn_CFG_REVEN n) = 0 then none
  else (efVinMax t c n).map fun v =>
    decide ((v + ((th * 5 * 2 ^ 20 : Nat) : Int)) < ((efVolt4096 c n * 256 : Nat) : Int))

/-! ### Power-good -/

/-- The page that pin PGm reads its map from: SAFE's copy in the Bivouac, and while every channel of the copied map is under SAFE
control (R194). -/
def pgView (c : Chip) (m : Nat) : Chip :=
  let copy : Chip := { c with regs := c.efu.copy }
  let ch := copy.rd (F.EFU_PGm_MAP_CH m)
  if c.flt.biv || (ch != 0 && (bitsOf 16 ch).all (efSafe c)) then copy else c

/-- Pin PGm is asserted by its map (R190); in the Bivouac a map not wholly in the safety set is deasserted (R194). -/
def pgAsserted (c : Chip) (m : Nat) : Bool :=
  let pg := c.rd F.EFU_PGSTAT_CH
  let v := pgView c m
  let ch := v.rd (F.EFU_PGm_MAP_CH m)
  v.flag (F.EFU_PGm_MAP_EN m) && ch != 0 && !(c.flt.biv && ch &&& c.rd F.FLT_SAFESET_CH != ch) && !c.hibHold
    && (if v.flag (F.EFU_PGm_MAP_MODE m) then ch &&& pg != 0 else ch &&& pg == ch)

/-- How pin PGm is driven (R190): POL inverts it, and an open-drain output only pulls low. -/
def pgDrive (c : Chip) (m : Nat) : Drive :=
  let v := pgView c m
  if pgAsserted c m != v.flag (F.EFU_PGm_MAP_POL m) then (if v.flag (F.EFU_PGm_MAP_OD m) then .off else .high) else .low

/-- The PG pins follow their maps (R190, R194). -/
def efPins (c : Chip) : Chip :=
  let c := c.wr F.EFU_PGSTAT_PIN ((List.range 8).foldl (fun v m => setBit v m (pgAsserted c m)) 0)
  let pins := (List.range 8).foldl (fun (l : Tab Drive) m => Tab.set .low l m (pgDrive c m)) []
  { c with efu := { c.efu with pg := pins } }

/-- The power-good of a channel becomes `b` (R189); bit PGCHG tells a change. -/
def setPg (t : Time) (n : Nat) (b : Bool) (c : Chip) : Chip :=
  if c.flag (F.EFU_CHn_STAT_PG n) == b then c
  else
    let c := (c.wrB (F.EFU_CHn_STAT_PG n) b).wr F.EFU_PGSTAT_CH (setBit (c.rd F.EFU_PGSTAT_CH) n b)
    irq t 0x11 4 (efPins (modEf n (fun e => { e with pgT := 0, pgOn := 0 }) c))

/-! ### States -/

/-- The code on EF_ILIM: min(ILIM, share code) (R177). -/
def efIlim (n : Nat) (c : Chip) : Chip :=
  let lim := efRd c n (F.EFU_CHn_LIM_ILIM n)
  modEf n (fun e => { e with ilim := if efSafe c n then lim else min lim (e.share.getD lim) }) c

/-- Both share codes of the channel's pair become ILIM: a channel of it is not in ON (R191). -/
def efUnshare (n : Nat) (c : Chip) : Chip :=
  c.forAll [n / 2 * 2, n / 2 * 2 + 1] fun m c =>
    efIlim m ((modEf m (fun e => { e with share := none }) c).wrB (F.EFU_CHn_STAT_HELD m) false)

/-- The channel enters a state, shown in its status and in EFU_STATE0 or EFU_STATE1 (R179). -/
def setEf (n st : Nat) (c : Chip) : Chip :=
  let c := c.wr (F.EFU_CHn_STAT_STATE n) st
  let r := if n < 8 then R.EFU_STATE0 else R.EFU_STATE1
  let c := c.wrR r (setBits (c.rdR r) (4 * (n % 8) + 3) (4 * (n % 8)) st)
  if st = efON then c else efUnshare n c

/-- The retries left return to RCNT (R187). -/
def reloadRetries (n : Nat) (c : Chip) : Chip := c.wr (F.EFU_CHn_STAT_RLEFT n) (efRd c n (F.EFU_CHn_RTY_RCNT n))

/-- EF_EN goes low, PG falls, and the channel enters `st`: the counters of the attempt start anew (R179). -/
def efOff (t : Time) (n st : Nat) (c : Chip) : Chip :=
  let c := setPg t n false c
  let c := modEf n (fun e => { e with pin := false, rev := 0, clean := 0, under := 0, cleared := 0, gateT := 0
                                      gateRun := 0, gateDone := false, gateLost := 0, offI := 0, ft := 0, ftDiv := 0
                                      short := 0, oc := false, pgT := 0, pgOn := 0 }) c
  setEf n st (c.wrB (F.EFU_CHn_STAT_FTRUN n) false)

/-- DIS: EF_EN low, PG off, retries reloaded (R179). -/
def efDisable (t : Time) (n : Nat) (c : Chip) : Chip := reloadRetries n (efOff t n efDIS c)

/-- The pre-check starts; EF_ILIM carries its code (R181). -/
def efPrecheck (t : Time) (n : Nat) (c : Chip) : Chip := efIlim n (efOff t n efPRECHK c)

/-- EF_EN rises and the gate-rise timer starts (R181). -/
def efStart (n : Nat) (c : Chip) : Chip :=
  setEf n efRAMP (modEf n (fun e => { e with pin := true, on := 0, clean := 0, gateT := 0, gateRun := 0 }) c)

/-- The enable command of R179 moves the channel: off to DIS from any state but DAMAGED, on from DIS to the pre-check.
A rise reloads the retries (R187). -/
def efCommand (t : Time) (n : Nat) (c : Chip) : Chip :=
  let st := efState c n
  if efCmd c n then
    if st = efDIS ∧ efRuns c n then efPrecheck t n (reloadRetries n c) else c
  else if st = efDIS ∨ st = efDAMAGED then c
  else efDisable t n c

/-- A trip with its kinds (R183–R187, R195): EF_EN low; retry, or latched. -/
def efTrip (t : Time) (n kinds : Nat) (c : Chip) : Chip :=
  let left := c.rd (F.EFU_CHn_STAT_RLEFT n)
  let unlimited := efRd c n (F.EFU_CHn_RTY_RCNT n) = 255
  let wait := max (efRd c n (F.EFU_CHn_RTY_RMIN n) * 100000) (99 * (efCh c n).on)
  let latch := left = 0 ∧ ¬ unlimited
  let c := efOff t n (if latch then efLATCHED else efTRIPWAIT) (c.count (F.EFU_CHn_CNT_TRIPS n))
  let c := irq t 0x11 0 (raise t 0x09 kinds n c)
  if latch then irq t 0x11 3 (raise t 0x09 0x20 n c)
  else modEf n (fun e => { e with wait := wait }) (if unlimited then c else c.wr (F.EFU_CHn_STAT_RLEFT n) (left - 1))

/-- DAMAGED: the damage mark is set; never retried (R181, R182). -/
def efDamage (t : Time) (n : Nat) (c : Chip) : Chip :=
  irq t 0x11 1 (raise t 0x09 0x08 n ((efOff t n efDAMAGED c).wrB (F.EFU_CHn_STAT_DMG n) true))

/-- REV: both switches block; no trip and no retry (R186). -/
def efReverse (t : Time) (n : Nat) (c : Chip) : Chip := irq t 0x11 2 (raise t 0x09 0x10 n (efOff t n efREV c))

/-- The reversal has cleared (R179). -/
def efReversalCleared (t : Time) (n : Nat) (c : Chip) : Chip :=
  if efState c n != efREV then c else if efCmd c n then efPrecheck t n c else efDisable t n c

/-! ### Caps (R193) -/

/-- A mean current in 10 mA is judged against the cap. -/
def efCapJudge (t : Time) (n mean : Nat) (c : Chip) : Chip :=
  let cap := c.rd (F.EFU_CHn_CAP_ICAP n)
  if efSafe c n || cap == 0xFFFF || decide (mean ≤ cap) then modEf n (fun e => { e with capEp := false }) c
  else
    let c := if (efCh c n).capEp then c
             else irq t 0x11 5 (raise t 0x09 0x40 (n + 3 * 256) (modEf n (fun e => { e with capEp := true }) c))
    if c.rd (F.EFU_CHn_CFG_CAPM n) = 1 ∧ ¬ inSafeSet c n ∧ efState c n = efON then
      (efOff t n efCAPOFF c).wr (F.EFU_CHn_CAP_IOFF n) (min mean 0xFFFF)
    else c

/-- CAP delivers a cap in 10 mA, or none (R193). A channel in CAPOFF whose switch-off mean lies below it returns to the
pre-check (R179). -/
def efCap (t : Time) (n : Nat) (cap : Option Nat) (c : Chip) : Chip :=
  let c := c.wr (F.EFU_CHn_CAP_ICAP n) ((cap.map (min · 0xFFFE)).getD 0xFFFF)
  if efState c n = efCAPOFF ∧ c.rd (F.EFU_CHn_CAP_IOFF n) < c.rd (F.EFU_CHn_CAP_ICAP n) then efPrecheck t n c else c

/-! ### The sense frame (R178, R181, R186, R189) -/

/-- The readings of one channel: registers, the cap average, the histories, and the stamp. -/
def efMeasure (t : Time) (n is vo : Nat) (c : Chip) : Chip :=
  let c := modEf n (fun e => { e with is := (is :: e.is).take 16, vo := (vo :: e.vo).take 16, at_ := t.stamp }) c
  let cur := min 0xFFFF (efCurrent4096 c n is / 40960)
  let c := (c.wr (F.EFU_CHn_MEAS_I n) cur).wr (F.EFU_CHn_MEAS_VO n) (efVolt4096 c n / 4096)
  let c := modEf n (fun e => { e with capN := e.capN + 1, capSum := e.capSum + is }) c
  let e := efCh c n
  let win := max 1 (efRd c n (F.EFU_CHn_CFG_CAPT n)) * 10000
  if e.capN < win then c
  else modEf n (fun e => { e with capN := 0, capSum := 0, capDue := some (efCurrent4096 c n e.capSum / (40960 * e.capN)) }) c

/-- The reversal check of one frame (R186): the frames in a row over the threshold are counted for the next tick; in PRECHK
two without start the channel, in REV 1,000 frames at or below half of it clear it. -/
def efReversal (t : Time) (n : Nat) (c : Chip) : Chip :=
  let th := efRd c n (F.EFU_CHn_CFG_REVTH n)
  let above := (efAbove t c n (2 * th)).getD false
  let c := modEf n (fun e => { e with rev := if above then e.rev + 1 else 0, clean := if above then 0 else e.clean + 1
                                      cleared := if efAbove t c n th == some false then e.cleared + 1 else 0 }) c
  let e := efCh c n
  let st := efState c n
  if st = efREV ∧ 1000 ≤ e.cleared then efReversalCleared t n c
  else if st = efPRECHK ∧ 2 ≤ e.clean ∧ efCmd c n then efStart n c
  else c

/-- The undervoltage check of one frame counts the frames in a row below UVTH (R189). -/
def efUnder (n : Nat) (c : Chip) : Chip :=
  let low := decide (efVolt4096 c n < efRd c n (F.EFU_CHn_PG_UVTH n) * 4096)
  modEf n (fun e => { e with under := if low then e.under + 1 else 0 }) c

/-- Two frames below UVTH take power-good away (R189). -/
def efUnderStep (t : Time) (n : Nat) (c : Chip) : Chip :=
  if c.flag (F.EFU_CHn_STAT_PG n) && decide (2 ≤ (efCh c n).under) then
    irq t 0x11 7 (raise t 0x09 0x40 (n + 256) (setPg t n false c))
  else c

/-- The sense converter runs: EFU does, or SAFE has a channel (R178, R194). -/
def efConverts (c : Chip) : Bool := (List.range 16).any (efRuns c)

/-- EFU_SENSE_FRAME: the codes of EF_IS and EF_VO of all sixteen channels, converted whether or not the channel runs (R178). On a
standby nothing acts (R196). -/
def efFrame (t : Time) (codes : List (Nat × Nat)) (c : Chip) : Chip :=
  if efConverts c then
    c.forAll (List.range 16) fun n c =>
      let (is, vo) := codes.getD n (0, 0)
      let c := efMeasure t n (is % 4096) (vo % 4096) c
      if isStandby c || !efRuns c n then c else efUnder n (efReversal t n c)
  else c

/-! ### The evaluation tick (R180–R189) -/

/-- OVERCURRENT_TRIP: EF_EN goes low at once and the trip is latched for the next tick (R184), but on a standby (R196). -/
def efOvercurrent (n : Nat) (c : Chip) : Chip :=
  if (efCh c n).pin && !isStandby c then modEf n (fun e => { e with pin := false, oc := true }) c else c

/-- The timers of one tick: gate rise, gate lost, current while off, short condition, fault timer, on-time. -/
def efTimers (n : Nat) (inLim gate : Bool) (c : Chip) : Chip :=
  let st := efState c n
  let run := st = efRAMP ∨ st = efON
  let win := efRd c n (F.EFU_CHn_SD_SDWIN n)
  let e0 := efCh c n
  let slope : Int := (e0.vo.headD 0 : Int) - (e0.vo.getD win (e0.vo.getLast?.getD 0) : Int)
  let flat := decide (slope * efRd c n (F.EFU_CHn_SCALE_VFS n) < ((efRd c n (F.EFU_CHn_SD_DVDT n) * win * 4096 : Nat) : Int))
  let shortNow := st = efRAMP && efRd c n (F.EFU_CHn_CFG_SDEN n) == 1 && inLim && flat
  let leak := !e0.pin && st != efDIS && decide (efRd c n (F.EFU_CHn_LIM_ILIM n) < 20 * e0.is.headD 0)
  let c := modEf n (fun e =>
    let gateRun := if gate then e.gateRun + 1 else 0
    let done := e.gateDone || (st = efRAMP && decide (2 ≤ gateRun))
    let fall := run && !inLim && e.ftDiv % 4 == 3
    { e with
      gateRun := min 2 gateRun
      gateDone := done
      gateT := if st = efRAMP ∧ !done then e.gateT + 1 else e.gateT
      gateLost := if st = efON ∧ !gate then e.gateLost + 1 else 0
      offI := if leak then e.offI + 1 else 0
      short := if shortNow then e.short + 1 else 0
      ft := if run then (if inLim then e.ft + 1 else if fall then e.ft - 1 else e.ft) else e.ft
      ftDiv := if run && !inLim then (e.ftDiv + 1) % 4 else e.ftDiv
      on := if e.pin then e.on + 1 else e.on
      wait := e.wait - 1
      pgOn := if c.flag (F.EFU_CHn_STAT_PG n) then e.pgOn + 1 else 0 }) c
  let e := efCh c n
  ((c.wrB (F.EFU_CHn_STAT_INLIM n) inLim).wrB (F.EFU_CHn_STAT_GATE n) gate).wrB (F.EFU_CHn_STAT_FTRUN n) (e.ft != 0)

/-- The fault timer has reached FT × 10; the short condition has stood for SDT (R183, R185). -/
def efFtDue (c : Chip) (n : Nat) : Bool := decide (efRd c n (F.EFU_CHn_FT_FT n) * 10 ≤ (efCh c n).ft)
@[inherit_doc efFtDue] def efShortDue (c : Chip) (n : Nat) : Bool :=
  decide (efRd c n (F.EFU_CHn_SD_SDT n) * 10 ≤ (efCh c n).short)

/-- A damage timer that runs has reached tGateRise (R181, R182). -/
def efDamageDue (c : Chip) (n : Nat) : Bool :=
  let e := efCh c n
  let g := efRd c n (F.EFU_CHn_FT_GRT n) * 100
  (efState c n == efRAMP && !e.gateDone && decide (g ≤ e.gateT)) || decide (g ≤ e.gateLost) || decide (g ≤ e.offI)

/-- The power-good rule but for its delay (R189). -/
def efGood (c : Chip) (n : Nat) : Bool :=
  let e := efCh c n
  (efState c n == efRAMP || efState c n == efON) && e.gateDone && e.ft == 0
    && decide (efRd c n (F.EFU_CHn_PG_PGTH n) * 4096 ≤ efVolt4096 c n)

/-- Power-good is asserted; RAMP becomes ON (R179, R189). -/
def efPowerGood (t : Time) (n : Nat) (c : Chip) : Chip :=
  let c := if efState c n = efRAMP then setEf n efON c else c
  setPg t n true c

/-- The power-good step of a tick: the delay runs while the rule holds, and a break restarts it. -/
def efPgStep (t : Time) (n : Nat) (c : Chip) : Chip :=
  if c.flag (F.EFU_CHn_STAT_PG n) then c
  else if efGood c n then
    let c := modEf n (fun e => { e with pgT := e.pgT + 1 }) c
    if efRd c n (F.EFU_CHn_RTY_PGDLY n) * 1000 ≤ (efCh c n).pgT then efPowerGood t n c else c
  else modEf n (fun e => { e with pgT := 0 }) c

/-- On a standby the PG delay runs in shadow and asserts nothing (R196). -/
def efPgShadow (n : Nat) (c : Chip) : Chip :=
  let runs := !c.flag (F.EFU_CHn_STAT_PG n) && efGood c n
  modEf n (fun e => { e with pgT := if runs then e.pgT + 1 else 0 }) c

/-- The last steps of a tick (R180): the cap, the fall of power-good and its rise. A cap that moves the channel ends it. -/
def efLast (t : Time) (n : Nat) (c : Chip) : Chip :=
  let mean := (efCh c n).capDue
  let c := modEf n (fun e => { e with capDue := none }) c
  let c := match mean with | some m => efCapJudge t n m c | none => c
  if efState c n = efCAPOFF then c
  else
    let c := if efRd c n (F.EFU_CHn_RTY_RCLR n) * 1000000 ≤ (efCh c n).pgOn ∧ c.flag (F.EFU_CHn_STAT_PG n) then reloadRetries n c else c
    efPgStep t n (efUnderStep t n c)

/-- One channel in one tick, in the order of R180; a step that moves the channel ends its judgement. -/
def efTick (t : Time) (inLim gate : Nat) (n : Nat) (c : Chip) : Chip :=
  let c := if efSafe c n && !c.flt.biv && bit (c.rd F.EFU_CHEN_EN) n && !c.flt.held then
             efIlim n (c.wrB (F.EFU_CHn_STAT_BIV n) false) else c
  if !efRuns c n then c
  else
    let c := efTimers n (bit inLim n) (bit gate n) c
    let st := efState c n
    let run := st = efRAMP ∨ st = efON
    if isStandby c then efPgShadow n c
    else if !efCmd c n then efCommand t n c
    else if st = efDIS then efCommand t n c
    else if st = efDAMAGED then c
    else if (efCh c n).oc then efTrip t n (if run ∧ efFtDue c n then 0x03 else 0x02) c
    else if efDamageDue c n then efDamage t n c
    else if (st = efPRECHK ∨ run) ∧ 2 ≤ (efCh c n).rev then efReverse t n c
    else if run ∧ (efShortDue c n ∨ efFtDue c n) then
      efTrip t n ((if efShortDue c n then 0x04 else 0) + (if efFtDue c n then 0x01 else 0)) c
    else if st = efTRIPWAIT ∧ (efCh c n).wait = 0 then efPrecheck t n c
    else efLast t n c

/-- The comparators of channel `n` on the voltages of EF_IS and EF_GS in µV (R178): in limit, gate, and overcurrent; Ip corresponds
to ILIM × 1.2 V / 4,096 (R177). -/
def efInLimit (c : Chip) (n v : Nat) : Bool :=
  decide (efRd c n (F.EFU_CHn_LIM_LIMTH n) * efRd c n (F.EFU_CHn_LIM_ILIM n) * 1200000 ≤ v * 409600)
@[inherit_doc efInLimit] def efGate (c : Chip) (n v : Nat) : Bool := decide (efRd c n F.EFU_CTL_GSON * 10000 ≤ v)
@[inherit_doc efInLimit] def efOver (c : Chip) (n v : Nat) : Bool := decide (2 * efRd c n (F.EFU_CHn_LIM_ILIM n) * 1200000 ≤ v * 4096)

/-- The outputs of a comparator of all channels, by bit, on the pin voltages. -/
def efOutputs (c : Chip) (cmp : Chip → Nat → Nat → Bool) (v : List Nat) : Nat :=
  (List.range 16).foldl (fun m n => setBit m n (cmp c n (v.getD n 0))) 0

/-- EFU_EVALUATION_TICK, each 100 ns: every channel on the voltages of EF_IS and EF_GS in µV, as sampled in this tick (R178, R180). -/
def efTicks (t : Time) (isV gsV : List Nat) (c : Chip) : Chip :=
  if !periodOver t 40 c.efu.evalAt then c else
  let c := { c with efu := { c.efu with evalAt := some t.tick } }
  let trips := efOutputs c efOver isV
  let c := c.forAll (bitsOf 16 trips) efOvercurrent
  c.forAll (List.range 16) (efTick t (efOutputs c efInLimit isV) (efOutputs c efGate gsV))

/-! ### The same happenings by name -/

/-- A happening of a running channel on a chip that is no standby, in one of the states given (R196). -/
def efWhen (n : Nat) (sts : List Nat) (f : Chip → Chip) (c : Chip) : Chip :=
  if efRuns c n && !isStandby c && sts.contains (efState c n) then f c else c

/-- GATE_RISE_TIMEOUT (R181). -/
def gateRiseTimeout (t : Time) (n : Nat) (c : Chip) : Chip :=
  if (efCh c n).gateDone then c else efWhen n [efRAMP] (efDamage t n) c

/-- GATE_LOST_IN_ON (R182). -/
def gateLostInOn (t : Time) (n : Nat) (c : Chip) : Chip := efWhen n [efON] (efDamage t n) c

/-- OFF_STATE_CURRENT (R182): any state but DIS with EF_EN low. -/
def offStateCurrent (t : Time) (n : Nat) (c : Chip) : Chip :=
  if (efCh c n).pin then c else efWhen n [efPRECHK, efTRIPWAIT, efLATCHED, efREV, efCAPOFF] (efDamage t n) c

/-- FAULT_TIMER_TRIP (R183). -/
def faultTimerTrip (t : Time) (n : Nat) (c : Chip) : Chip := efWhen n [efRAMP, efON] (efTrip t n 0x01) c

/-- SHORT_DURING_RAMP (R185). -/
def shortDuringRamp (t : Time) (n : Nat) (c : Chip) : Chip :=
  if efRd c n (F.EFU_CHn_CFG_SDEN n) = 1 then efWhen n [efRAMP] (efTrip t n 0x04) c else c

/-- RETRY_WAIT_END (R187). -/
def retryWaitEnd (t : Time) (n : Nat) (c : Chip) : Chip :=
  efWhen n [efTRIPWAIT] (fun c => if efCmd c n then efPrecheck t n c else efDisable t n c) c

/-- RETRY_RELOAD (R187): power-good has stood for RCLR. -/
def retryReload (n : Nat) (c : Chip) : Chip :=
  if c.flag (F.EFU_CHn_STAT_PG n) then efWhen n [efRAMP, efON] (reloadRetries n) c else c

/-- POWER_GOOD_ASSERT (R189): the delay has passed with its conditions. -/
def powerGoodAssert (t : Time) (n : Nat) (c : Chip) : Chip :=
  if efGood c n then efWhen n [efRAMP, efON] (efPowerGood t n) c else c

/-- REVERSAL_CLEARED (R186). -/
def reversalClearedNow (t : Time) (n : Nat) (c : Chip) : Chip := efWhen n [efREV] (efReversalCleared t n) c

/-- CAP_EXCEEDED (R193): the mean over CAPT, in 10 mA. -/
def capExceeded (t : Time) (n mean : Nat) (c : Chip) : Chip :=
  if efRuns c n && !isStandby c && decide (c.rd (F.EFU_CHn_CAP_ICAP n) < mean) then efCapJudge t n mean c else c

/-- DAMAGE_CLEAR: a write of EFU_DMGCLR (R179). -/
def damageClear (t : Time) (v : Nat) (c : Chip) : Chip :=
  c.forAll (bitsOf 16 v) fun n c =>
    if efState c n = efDAMAGED ∧ !bit (c.rd F.EFU_CHEN_EN) n then
      efDisable t n (c.wrB (F.EFU_CHn_STAT_DMG n) false)
    else c

/-- The enable commands become `v` (R179); a channel under SAFE control passes over in the next tick (R396). -/
def efEnables (t : Time) (v : Nat) (c : Chip) : Chip := (c.wr F.EFU_CHEN_EN v).forAll (List.range 16) (efCommand t)

/-- Schedule actions 0x05 and 0x06, and a shed by CAP, set or clear bits (R51, R161, R179). -/
def efSwitch (t : Time) (mask : Nat) (on : Bool) (c : Chip) : Chip :=
  efEnables t (if on then c.rd F.EFU_CHEN_EN ||| mask else c.rd F.EFU_CHEN_EN &&& (0xFFFF - mask % 0x10000)) c

/-! ### Pairs (R191, R192) -/

/-- The sum of the last ten current codes. -/
def efSum10 (c : Chip) (n : Nat) : Nat := ((efCh c n).is.take 10).foldl (· + ·) 0

/-- The current of the last ten frames, in units of 1/40,960 mA. -/
def efMean10 (c : Chip) (n : Nat) : Nat := efCurrent4096 c n (efSum10 c n)

/-- PAIR_SHARE_UPDATE of channels 2k and 2k + 1, each 10 µs (R191). -/
def pairShareUpdate (t : Time) (k : Nat) (c : Chip) : Chip :=
  let a := 2 * k
  if !periodOver t 4000 (Tab.get none c.efu.shareAt k) then c else
  let c := { c with efu := { c.efu with shareAt := Tab.set none c.efu.shareAt k (some t.tick) } }
  if !(efRuns c a && efPaired c a) then c
  else if efState c a != efON || efState c (a + 1) != efON then efUnshare a c
  else
    let ia := efMean10 c a
    let ib := efMean10 c (a + 1)
    let h := if ia < ib then a + 1 else a
    let o := if ia < ib then a else a + 1
    let code := (ia + ib) * (100 + c.rd (F.EFU_CHn_CFG_SHMARG a)) * 4096
                  / (2 * 100 * 40960 * 1200 * max 1 (c.rd (F.EFU_CHn_SCALE_KIS h)))
    let c := (modEf h (fun e => { e with share := some (max 1 code) }) c).wrB (F.EFU_CHn_STAT_HELD h) true
    let c := (modEf o (fun e => { e with share := none }) c).wrB (F.EFU_CHn_STAT_HELD o) false
    efIlim o (efIlim h c)

/-- PAIR_SHARE_ERROR of a pair (R192): the guarantee's conditions hold and the split lies outside 45–55 %. -/
def pairShareError (t : Time) (k : Nat) (c : Chip) : Chip :=
  let a := 2 * k
  let ia := efMean10 c a
  let ib := efMean10 c (a + 1)
  let it := ia + ib
  let ip := fun n => c.rd (F.EFU_CHn_LIM_ILIM n) * 1200 * c.rd (F.EFU_CHn_SCALE_KIS n) * 10
  let near := match efVin t c a, efVin t c (a + 1) with
    | some x, some y => decide ((x - y).natAbs ≤ c.rd (F.EFU_CHn_CFG_SHDV a) * 100 * 2 ^ 20)
    | _, _ => true
  if efRuns c a && efPaired c a && efState c a == efON && efState c (a + 1) == efON && near
      && decide (min (ip a) (ip (a + 1)) ≤ 10 * it) && (decide (100 * ia < 45 * it) || decide (55 * it < 100 * ia)) then
    irq t 0x11 6 (raise t 0x09 0x40 (a + 2 * 256) c)
  else c

/-! ### Commit, block reset, Bivouac -/

/-- The channels of the safety set pass under SAFE control, commanded on with the retained copy and retries reloaded, at the
protective limit only; the others go to DIS (R194, R394, R395). -/
def efToSafe (t : Time) (c : Chip) : Chip :=
  efPins <| c.forAll (List.range 16) fun n c =>
    if inSafeSet c n then
      let c := (modEf n (fun e => { e with share := none }) c).wrB (F.EFU_CHn_STAT_HELD n) false
      let c := efIlim n (reloadRetries n (c.wrB (F.EFU_CHn_STAT_BIV n) true))
      if efState c n = efDIS then efPrecheck t n c else c
    else if efState c n = efDIS ∨ efState c n = efDAMAGED then modEf n (fun e => { e with pin := false }) c
    else efDisable t n c

/-- SAFE takes its copy of the page (R194, R391). -/
def efRetain (c : Chip) : Chip :=
  { c with efu := { c.efu with copy := c.regs.filter fun e => decide (e.1 / 0x1000 = 0x11) } }

/-- A soft block reset of EFU (R194): channels outside the set go to DIS with their enable bits clear; the set runs under
SAFE control. -/
def efBlockReset (t : Time) (was c : Chip) : Chip :=
  let keep := fun (c : Chip) n => ((c.wr (F.EFU_CHn_STAT_STATE n) (efState was n)).wr (F.EFU_CHn_STAT_RLEFT n)
    (was.rd (F.EFU_CHn_STAT_RLEFT n))).wrB (F.EFU_CHn_STAT_DMG n) (was.flag (F.EFU_CHn_STAT_DMG n))
  let c := (List.range 16).foldl (fun c n =>
    if inSafeSet c n then
      let c := (keep c n).wrB (F.EFU_CHn_STAT_PG n) (was.flag (F.EFU_CHn_STAT_PG n))
      setEf n (efState c n) (c.wr F.EFU_PGSTAT_CH (setBit (c.rd F.EFU_PGSTAT_CH) n (was.flag (F.EFU_CHn_STAT_PG n))))
    else modEf n (fun _ => {}) c) c
  efToSafe t c

/-- What a commit of EFU is refused for (R197), in order of offset; a channel is judged while it is enabled (R510). -/
def judgeEfu (c : Chip) : Option Nat :=
  ((List.range 16).filter fun n => bit (c.rd F.EFU_CHEN_EN) n || efSafe c n).findSome? fun n =>
    let base := 0x100 + 0x40 * n
    let out := fun (v lo hi : Nat) => decide (v < lo) || decide (hi < v)
    let src := c.rd (F.EFU_CHn_VIN_SRC n)
    if (c.flag (F.EFU_CHn_CFG_PAIR n) && n % 2 == 1) || decide (2 ≤ c.rd (F.EFU_CHn_CFG_CAPM n)) then some base
    else if c.rd (F.EFU_CHn_SCALE_KIS n) = 0 then some (base + 0x08)
    else if out (c.rd (F.EFU_CHn_FT_FT n)) 1 1000000 || out (c.rd (F.EFU_CHn_FT_GRT n)) 5 1000 then some (base + 0x0C)
    else if out (c.rd (F.EFU_CHn_SD_SDT n)) 1 1000 then some (base + 0x10)
    else if c.rd (F.EFU_CHn_PG_PGTH n) ≤ c.rd (F.EFU_CHn_PG_UVTH n) then some (base + 0x14)
    else if 0x3F < src ∧ src ≠ 0xFF then some (base + 0x1C)
    else none

/-- After a commit of EFU: EF_ILIM carries its code (R176), a channel that is paired no more has no share (R177), SAFE takes its
copy, and with EN = 0 every channel outside SAFE control is off. -/
def efCommitted (t : Time) (c : Chip) : Chip :=
  let c := c.forAll ((List.range 16).filter fun n => !efPaired c n) fun n c =>
    (modEf n (fun e => { e with share := none }) c).wrB (F.EFU_CHn_STAT_HELD n) false
  let c := c.forAll (List.range 16) efIlim
  let c := if c.flag F.EFU_CTL_EN then c.forAll (List.range 16) (efCommand t)
           else c.forAll ((List.range 16).filter fun n => !efSafe c n && efState c n != efDIS && efState c n != efDAMAGED) (efDisable t)
  efPins (efRetain c)

end Sys2Proof.Machine
end

