-- ==== Sys2Proof/Machine/Bat.lean ====
section
/-! DEFINITION. BAT: the estimator, anchors, impedance windows, charger, limits, references and the restore record
(R199–R225). -/

namespace Sys2Proof.Machine

/-! ### Units and tables -/

/-- 0.1 Ah in 2^−20 A·ms. -/
def qDeci : Nat := 360000 * 2 ^ 20

/-- 1 mAh in 2^−20 A·ms. -/
def qMilli : Nat := 3600 * 2 ^ 20

/-- 100 % in 2^−20 of 0.01 %. -/
def socFull : Nat := 10000 * 2 ^ 20

/-- The chemistry (R202). -/
def chem (c : Chip) : Nat := c.rd F.BAT_CTL_CHEM

/-- OCV(SoC) in mV at 0 %, 10 %, … 100 % (R203). -/
def ocvPoints (ch : Nat) : List Nat :=
  match ch with
  | 0 => [1150, 1200, 1225, 1240, 1250, 1260, 1270, 1280, 1295, 1320, 1360]
  | 1 => [1150, 1210, 1230, 1245, 1255, 1265, 1275, 1290, 1310, 1340, 1390]
  | _ => [3000, 3200, 3250, 3280, 3295, 3300, 3305, 3315, 3330, 3345, 3400]

/-- The rise of the segment that starts at `i` × 10 %, in mV. -/
def ocvRise (ch i : Nat) : Nat := (ocvPoints ch).getD (i + 1) 0 - (ocvPoints ch).getD i 0

/-- SoC⁻¹ of a cell voltage in 2^−20 of 10 µV (R203); outside the points the manual gives none: a free value. -/
def socInv (c : Chip) (v : Int) : Nat :=
  let pts := ocvPoints (chem c)
  let lv := fun i => ((pts.getD i 0 * 100 * 2 ^ 20 : Nat) : Int)
  match (List.range 10).find? fun i => decide (lv i ≤ v) && decide (v ≤ lv (i + 1)) with
  | some i => i * 1000 * 2 ^ 20 + (divEven ((v - lv i) * 10) (ocvRise (chem c) i)).toNat
  | none => min socFull (Config.socOutside c.free)

/-- The slope at a state of charge, in 0.1 mV per cent (R203). -/
def ocvSlope (c : Chip) (soc : Nat) : Nat := ocvRise (chem c) (min 9 (soc / (1000 * 2 ^ 20)))

/-- Charge efficiency η in per cent, self-discharge at 25 °C in 0.01 % per day, default Zser × QRATED in mΩ·Ah (R202). -/
def chargeEff (c : Chip) : Nat := match chem c with | 0 => 85 | 1 => 90 | _ => 99
@[inherit_doc chargeEff] def selfDis (c : Chip) : Nat := match chem c with | 0 => 10 | 1 => 50 | _ => 3
@[inherit_doc chargeEff] def zTimesQ (c : Chip) : Nat := match chem c with | 0 => 60 | 1 => 80 | _ => 40

/-- `x` × 2^(k/10) / 2^32 for the tenth powers of 2 in 2^−32, the last place free (R202). -/
def tenthPower (c : Chip) (r : Nat) : Nat :=
  [4294967296, 4603231970, 4933621867, 5287724991, 5667243323, 6074000999, 6509953083, 6977194956, 7477972397,
    8014692369].getD r 0 + (if r = 0 then 0 else (Config.expTail c.free).toNat)

/-- Charge lost by self-discharge in `ms` at `T` °C: QFULL × sd(T) × Δt / 86,400 s, sd doubling per 10 K (R202, R204). -/
def selfLoss (c : Chip) (qfull : Nat) (T : Int) (ms : Nat) : Nat :=
  let d := T - 25
  let a := d / 10
  let f := tenthPower c (d % 10).toNat
  let num := qfull * selfDis c * f * ms * (if 0 ≤ a then 2 ^ a.toNat else 1)
  (divEven num (10 ^ 4 * 86400000 * 2 ^ 32 * (if a < 0 then 2 ^ (-a).toNat else 1))).toNat

/-- e^(−Δt/τ) in 2^−32 for τ1 = 4 ms or τ2 = 40 ms and a step of 1 ms or 1 s, the last place free (R204). -/
def lagDecay (c : Chip) (slow idle : Bool) : Nat :=
  (if idle then 0 else if slow then 4188924175 else 3344923893) + (Config.expTail c.free).toNat

/-! ### Access -/

/-- BAT runs. -/
def batOn (c : Chip) : Bool := c.blockOn 0x12 && c.flag F.BAT_CTL_EN

/-- The hidden state of slot `m`. -/
def batMod (c : Chip) (m : Nat) : BatMod := Tab.get {} c.bat.mods m

/-- The hidden state of slot `m` changes by `f`. -/
def modMod (m : Nat) (f : BatMod → BatMod) (c : Chip) : Chip := { c with bat := { c.bat with mods := Tab.upd {} c.bat.mods m f } }

/-- The hidden state of string `k`. -/
def batStr (c : Chip) (k : Nat) : BatStr := Tab.get {} c.bat.strs k

/-- The hidden state of string `k` changes by `f`. -/
def modStr (k : Nat) (f : BatStr → BatStr) (c : Chip) : Chip := { c with bat := { c.bat with strs := Tab.upd {} c.bat.strs k f } }

/-- The hidden state of BAT changes by `f`. -/
def modBat (f : Bat → Bat) (c : Chip) : Chip := { c with bat := f c.bat }

/-- Enabled strings; present modules; present modules of a string. -/
def strings (c : Chip) : List Nat := (List.range 4).filter fun k => c.flag (F.BAT_STRk_CFG_EN k)
@[inherit_doc strings] def present (c : Chip) : List Nat :=
  (List.range 16).filter fun m => c.flag (F.BAT_Mm_CFG_EN m) && c.flag (F.BAT_Mm_STAT_PRES m)
@[inherit_doc strings] def stringMods (c : Chip) (k : Nat) : List Nat := (present c).filter fun m => c.rd (F.BAT_Mm_CFG_STR m) == k

/-- Cells of the enabled slots of a string. -/
def stringCells (c : Chip) (k : Nat) : Nat :=
  (((List.range 16).filter fun m => c.flag (F.BAT_Mm_CFG_EN m) && c.rd (F.BAT_Mm_CFG_STR m) == k).map fun m =>
    c.rd (F.BAT_Mm_CFG_NCELL m)).foldl (· + ·) 0

/-- A string current compared with a level in 0.1 A: `ib` ≥ level, and |ib| < level. -/
def atLeast (ib : Int) (level : Nat) : Bool := decide (((level * 2 ^ 20 : Nat) : Int) ≤ 10 * ib)
@[inherit_doc atLeast] def below (ib : Int) (level : Nat) : Bool := decide (10 * ib.natAbs < level * 2 ^ 20)

/-- The string current of a slot. -/
def modIb (c : Chip) (m : Nat) : Int := (batStr c (c.rd (F.BAT_Mm_CFG_STR m))).ib

/-- Lowest and highest over the present modules of a measurement. -/
def lowest (c : Chip) (f : Nat → Int) : Int := match (present c).map f with | [] => 0 | a :: l => l.foldl min a
@[inherit_doc lowest] def highest (c : Chip) (f : Nat → Int) : Int := match (present c).map f with | [] => 0 | a :: l => l.foldl max a

/-- Lowest and highest temperature, lowest and highest cell of the present modules. -/
def tLow (c : Chip) : Int := lowest c fun m => c.rdI (F.BAT_Mm_MEAS_TMIN m)
@[inherit_doc tLow] def tHigh (c : Chip) : Int := highest c fun m => c.rdI (F.BAT_Mm_MEAS_TMAX m)
@[inherit_doc tLow] def cellLow (c : Chip) : Int := lowest c fun m => c.rd (F.BAT_Mm_MEAS_VCMIN m)
@[inherit_doc tLow] def cellHigh (c : Chip) : Int := highest c fun m => (batMod c m).vcmax

/-! ### Reported values (R205, R206, R212) -/

/-- SoCi = Q / QFULL in 2^−20 of 0.01 %. -/
def socI (b : BatMod) : Nat := if b.qfull = 0 then 0 else b.q * socFull / b.qfull

/-- UNC of a slot: its start and 1 % per 5 % of QFULL passed, at most 50 % (R206). -/
def uncOf (b : BatMod) : Nat := min 50 (b.unc + (if b.qfull = 0 then 0 else b.passed * 20 / b.qfull))

/-- The registers of a slot follow its hidden state. -/
def showMod (m : Nat) (c : Chip) : Chip :=
  let b := batMod c m
  let rated := c.rd (F.BAT_Mm_CFG_QRATED m)
  let soh := if rated = 0 then 0 else min 255 (b.qfull * 100 / (rated * qDeci))
  ((((c.wr (F.BAT_Mm_SOC_SOC m) (b.socr / 2 ^ 20)).wr (F.BAT_Mm_SOC_UNC m) (uncOf b)).wr (F.BAT_Mm_SOC_SOH m) soh).wr
    (F.BAT_Mm_Q_Q m) (min 0xFFFF (b.q / qDeci))).wr (F.BAT_Mm_Q_QFULL m) (min 0xFFFF (b.qfull / qDeci))

/-- The shelf's SoCr: each string's lowest, weighted by the smallest QFULL in the string (R205). -/
def shelfSoc (c : Chip) : Nat :=
  let l := ((strings c).filter fun k => !(stringMods c k).isEmpty).map fun k =>
    (((stringMods c k).map fun m => (batMod c m).socr).foldl min socFull,
     match (stringMods c k).map fun m => (batMod c m).qfull with | [] => 0 | a :: l => l.foldl min a)
  let w := (l.map Prod.snd).foldl (· + ·) 0
  if w = 0 then 0 else (l.map fun x => x.1 * x.2).foldl (· + ·) 0 / w

/-- BAT_STAT and BAT_SOC follow the slots. -/
def showBat (c : Chip) : Chip :=
  let pr := present c
  let any := fun (f : Nat → Fld) => pr.any fun m => c.flag (f m)
  let c := c.forAll (List.range 16) showMod
  let c := ((c.wr F.BAT_STAT_NPRES pr.length).wrB F.BAT_STAT_DEEP (any F.BAT_Mm_STAT_DEEP)).wrB F.BAT_STAT_DISAGREE
    (any F.BAT_Mm_STAT_DISAGREE)
  let c := (c.wrB F.BAT_STAT_INVALID (pr.any fun m => !c.flag (F.BAT_Mm_STAT_VALID m))).wrB F.BAT_STAT_DUTY (onDuty c)
  (c.wr F.BAT_SOC_SOC (shelfSoc c / 2 ^ 20)).wr F.BAT_SOC_UNC
    (match pr.map fun m => uncOf (batMod c m) with | [] => 50 | a :: l => l.foldl max a)

/-! ### Readings and windows (R200, R210, R211) -/

/-- A reading of an input code 0x00–0x5F, in units of its scale (R101, R200). -/
def batCode (c : Chip) (code : Nat) : Int :=
  if code ≤ 0x0F then c.rdI (F.AFE_FINn_DATA_VALUE code)
  else if 0x20 ≤ code ∧ code ≤ 0x3F then c.rd (F.AFE_SINn_DATA_VALUE (code - 0x20))
  else if 0x40 ≤ code ∧ code ≤ 0x5F then (c.rd (F.AFE_SINn_DATA_VALUE (code - 0x40)) : Int) - 32768
  else 0

/-- The mean of the values of a history whose ticks lie in `lo`–`hi`, half to even; none without a value. -/
def meanIn (l : List (Nat × Int)) (lo hi : Nat) : Option Int :=
  let x := l.filter fun a => decide (lo ≤ a.1) && decide (a.1 ≤ hi)
  if x.isEmpty then none else some (divEven ((x.map Prod.snd).foldl (· + ·) 0) x.length)

/-- Largest less smallest of those values. -/
def spreadIn (l : List (Nat × Int)) (lo hi : Nat) : Nat :=
  match (l.filter fun a => decide (lo ≤ a.1) && decide (a.1 ≤ hi)).map Prod.snd with
  | [] => 0
  | a :: l => (l.foldl max a - l.foldl min a).toNat

/-- Ticks of `n` × 0.1 ms. -/
def tenthMs (n : Nat) : Nat := n * 40000

/-- Ipre: the mean of Ib over [t0 − 20 ms, t0 − 0.1 ms] (R210). -/
def iPre (s : BatStr) (t0 : Nat) : Option Int := meanIn s.is (t0 - tenthMs 200) (t0 - tenthMs 1)

/-- The spread of Ib over that span is at most STEPI/4 (R210). -/
def iQuiet (c : Chip) (s : BatStr) (t0 : Nat) : Bool :=
  decide (40 * spreadIn s.is (t0 - tenthMs 200) (t0 - tenthMs 1) ≤ c.rd F.BAT_IMP_STEPI * 2 ^ 20)

/-- A reading is past the middle of a step from `a` to `b` (R210). -/
def pastMiddle (a b i : Int) : Bool := if a ≤ b then decide (a + b < 2 * i) else decide (2 * i < a + b)

/-- A window of string `k` opens at tick `w`, unless one is open, IDLE stands or IMPEN is 0 (R210, R217). -/
def openImpWindow (w : BatWin) (k : Nat) (c : Chip) : Chip :=
  if c.flag F.BAT_CTL_IMPEN && !c.flag F.BAT_STAT_IDLE && (batStr c k).win.isNone then
    modStr k (fun s => { s with win := some w }) c
  else c

/-- A reading of Ib of string `k` just entered into its history: a natural step opens a window when it differs from Ipre by
STEPI and the spread before the crossing is small enough (R210). The crossing looked for is the first reading of the last
2 ms past the middle between Ipre and this reading, since ΔI is not known yet: `windowJudge` judges t0 and the spread again. -/
def stepOpens (t : Time) (k : Nat) (i : Int) (c : Chip) : Chip :=
  let s := batStr c k
  let crosses := fun (a : Nat × Int) =>
    match iPre s a.1 with
    | none => false
    | some ipre => decide (c.rd F.BAT_IMP_STEPI * 2 ^ 20 ≤ 10 * (i - ipre).natAbs) && pastMiddle ipre i a.2 && iQuiet c s a.1
  match (s.is.reverse.filter fun a => decide (t.tick ≤ a.1 + tenthMs 20)).find? crosses with
  | some a => openImpWindow ⟨a.1, false⟩ k c
  | none => c

/-- The announced steps whose due stamp is reached open a window of every enabled string without one (R210). -/
def dueWindows (t : Time) (c : Chip) : Chip :=
  if c.bat.dues.any t.stamp.reached then
    modBat (fun b => { b with dues := b.dues.filter fun d => !t.stamp.reached d })
      (c.forAll (strings c) (openImpWindow ⟨t.tick, true⟩))
  else c

/-- Readings older than the history needs are dropped: 25 ms, or 130 ms while a window is open. -/
def trimHist {α : Type} (t : Time) (s : BatStr) (l : List (Nat × α)) : List (Nat × α) :=
  l.filter fun a => decide (t.tick ≤ a.1 + (if s.win.isSome then tenthMs 1300 else tenthMs 250))

/-- A reading of an input serves every string that names it (R200, R210, R217). -/
def batReading (t : Time) (code : Nat) (c : Chip) : Chip :=
  if !batOn c then c
  else (dueWindows t c).forAll (strings c) fun k c =>
    let c := if c.rd (F.BAT_STRk_CFG_ISRC k) = code then
        let i := batCode c code * c.rd (F.BAT_STRk_ISCL_SCALE k)
        let c := if below i (c.rd F.BAT_HIB_IHIB) then c else idleExit t c
        stepOpens t k i (modStr k (fun s => { s with
          sum := s.sum + i, n := s.n + 1, is := (t.tick, i) :: trimHist t s s.is }) c)
      else c
    if c.rd (F.BAT_STRk_CFG_VSRC k) = code then
      let v := batCode c code * c.rd (F.BAT_STRk_VSCL_SCALE k)
      modStr k (fun s => { s with v := v, vs := (t.tick, v) :: trimHist t s s.vs }) c
    else c

/-- An intent wakes BAT, and its due stamp is kept for the windows it announces (R210, R217). -/
def batIntent (t : Time) (due : Stamp) (c : Chip) : Chip :=
  if batOn c then
    let c := idleExit t c
    if c.flag F.BAT_CTL_IMPEN then modBat (fun b => { b with dues := b.dues ++ [due] }) c else c
  else c

/-! ### First estimate and anchors (R206, R207, R209) -/

/-- The default Zser of R204 in 10 µΩ. -/
def zDefault (c : Chip) (m : Nat) : Nat :=
  divNear (zTimesQ c * 1000 * c.rd (F.BAT_Mm_CFG_NCELL m)) (max 1 (c.rd (F.BAT_Mm_CFG_QRATED m)))

/-- Zser, Zdyn1 and Zdyn2 of the estimator in 10 µΩ: the measured terms, or the default (R204). -/
def zTerms (c : Chip) (m : Nat) : Nat × Nat × Nat :=
  if c.flag (F.BAT_Mm_STAT_ZVALID m) then
    (c.rd (F.BAT_Mm_Z_ZSER m), c.rd (F.BAT_Mm_ZD_ZDYN1 m), c.rd (F.BAT_Mm_ZD_ZDYN2 m))
  else (zDefault c m, 0, 0)

/-- Vocv of a slot at the string current `ib` (R204, step 3), in 2^−20 of 10 µV. -/
def vocvOf (c : Chip) (m : Nat) (ib : Int) : Int :=
  let b := batMod c m
  let tco : Int := if chem c = 2 then 0 else 40
  divEven ((b.vmod * 1000 * 2 ^ 20 : Nat) + ib * (zTerms c m).1 + b.v1 + b.v2) (max 1 (c.rd (F.BAT_Mm_CFG_NCELL m)))
    + tco * 2 ^ 20 * (c.rdI (F.BAT_Mm_MEAS_TMAX m) - 25)

/-- The string current of a slot's last report: the reading nearest its tick, or the mean of the last step before the string
has given any (R209). -/
def reportIb (c : Chip) (m : Nat) : Int :=
  match (batMod c m).reps with
  | [] => modIb c m
  | r :: _ =>
    let off := fun (a : Nat × Int) => ((a.1 : Int) - (r.1 : Int)).natAbs
    match (batStr c (c.rd (F.BAT_Mm_CFG_STR m))).is with
    | [] => modIb c m
    | a :: l => (l.foldl (fun b x => if off x < off b then x else b) a).2

/-- The first estimate of a slot (R209). -/
def firstEstimate (t : Time) (m : Nat) (c : Chip) : Chip :=
  let v := vocvOf c m (reportIb c m)
  let soc := socInv c v
  let unc := min 50 (divUp 50 (max 1 (ocvSlope c soc)))
  let c := modMod m (fun b => { b with q := b.qfull * soc / socFull, vocv := v, socr := soc, firstDue := false
                                       anch := soc, anchq := 0, passed := 0, unc := unc, steady := false }) (tickFree c)
  irq t 0x12 4 ((c.wrB (F.BAT_Mm_STAT_FIRST m) true).wrB (F.BAT_Mm_STAT_VALID m) true)

/-- The capacity measurement of an anchor at `soc` (R207). -/
def judgeCapacity (m soc : Nat) (c : Chip) : Chip :=
  let b := batMod c m
  let d : Int := (soc : Int) - b.anch
  let rated := c.rd (F.BAT_Mm_CFG_QRATED m) * qDeci
  if b.steady && decide (socFull * 40 ≤ 100 * d.natAbs) then
    let qm := divEven ((if 0 < d then -b.anchq else b.anchq) * socFull) d.natAbs
    if ((rated : Nat) : Int) ≤ 2 * qm ∧ 10 * qm ≤ ((12 * rated : Nat) : Int) then
      (modMod m (fun b => { b with qfull := (b.qfull + divEven (qm - b.qfull) 4).toNat }) c).wrB (F.BAT_Mm_STAT_CAPL m) true
    else c
  else c

/-- A rest or end-of-charge anchor at `soc` (R206). -/
def anchorAt (t : Time) (m soc : Nat) (c : Chip) : Chip :=
  let c := judgeCapacity m soc c
  let c := modMod m (fun b => { b with q := b.qfull * soc / socFull, anch := soc, anchq := 0, passed := 0, unc := 2, steady := true }) c
  let c := ((c.wrB (F.BAT_Mm_STAT_FIRST m) false).wrB (F.BAT_Mm_STAT_DISAGREE m) false).wrB (F.BAT_Mm_STAT_LOWV m) false
  let c := modMod m (fun b => { b with socr := if atLeast (modIb c m) (c.rd F.BAT_EST_IREST) then min b.socr (socI b) else socI b }) c
  irq t 0x12 0 c

/-- An end-of-charge anchor of every present module: 100 %, no slope test (R206). -/
def endAnchor (t : Time) (c : Chip) : Chip := c.forAll (present c) fun m => anchorAt t m socFull

/-- REST_ANCHOR of a slot (R206): the string current has been below IREST on every step for TREST, and the slope suffices. -/
def restAnchor (t : Time) (m : Nat) (c : Chip) : Chip :=
  let soc := socInv c (batMod c m).vocv
  if batOn c && (present c).contains m && below (modIb c m) (c.rd F.BAT_EST_IREST)
      && decide (c.rd F.BAT_EST_TREST * 60000 ≤ (batStr c (c.rd (F.BAT_Mm_CFG_STR m))).restMs)
      && !c.flag (F.BAT_Mm_STAT_STALE m) && decide (c.rd F.BAT_EST_SLOPEMIN ≤ ocvSlope c soc) then
    showBat (anchorAt t m soc (tickFree c))
  else c

/-- CHARGING_CORRECTION of a slot, once per second (R206). -/
def chargingCorrection (t : Time) (m : Nat) (c : Chip) : Chip :=
  let b := batMod c m
  let soc := socInv c b.vocv
  if batOn c && decide (b.corrAt + 400000000 ≤ t.tick) && (present c).contains m && atLeast (-(modIb c m)) (c.rd F.BAT_EST_IREST)
      && !c.flag (F.BAT_Mm_STAT_STALE m) && decide (c.rd F.BAT_EST_SLOPEMIN ≤ ocvSlope c soc) then
    let q := ((b.q : Int) + divEven ((b.qfull * soc / socFull : Nat) - (b.q : Int)) 64).toNat
    let c := modMod m (fun b => { b with q := q, corrAt := t.tick }) (tickFree c)
    let c := modMod m (fun b => { b with socr := socI b }) c
    showBat (if 0 < q then c.wrB (F.BAT_Mm_STAT_DISAGREE m) false else c)
  else c

/-! ### Modules come, report and go (R201, R209) -/

/-- A slot starts over for another module: QFULL = QRATED, impedance defaults, counters 0 (R209). -/
def newModule (m id : Nat) (c : Chip) : Chip :=
  let q := c.rd (F.BAT_Mm_CFG_QRATED m) * qDeci
  let c := modMod m (fun _ => { id := id, held := true, qfull := q }) c
  let c := ((c.wr (F.BAT_Mm_Z_ZSER m) (zDefault c m)).wr (F.BAT_Mm_Z_TZ m) 0).wrR (R.BAT_Mm_ZD m) 0
  c.wrR (R.BAT_Mm_STAT m) 0

/-- The tick of a measurement from its angle stamp. -/
def tickOfStamp (t : Time) (c : Chip) (s : Stamp) : Nat :=
  ((t.tick : Int) + divEven ((s - t.stamp).toInt * 2 ^ 32) (max 1 (effInc c))).toNat

/-- Since when the conditions of R215 hold for a slot: the lowest cell at or below VCUT, or clear of it at rest. -/
def watchCells (t : Time) (m : Nat) (c : Chip) : Chip :=
  let low := c.rd (F.BAT_Mm_MEAS_VCMIN m)
  let rest := decide (10 * modIb c m ≤ ((c.rd F.BAT_EST_IREST * 2 ^ 20 : Nat) : Int))
  modMod m (fun b => { b with
    lowAt := sinceTick t (decide (low ≤ c.rd F.BAT_DLIM_VCUT)) b.lowAt
    clearAt := sinceTick t (decide (c.rd F.BAT_DLIM_VCUT + c.rd F.BAT_DER_VDTAPER * 20 ≤ low) && rest) b.clearAt }) c

/-- A report of context `i` reaches BAT: the first after an attach makes the first estimate (R201, R209). -/
def batReport (t : Time) (i : Nat) (evt : Bool) (c : Chip) : Chip :=
  let x := ctx c i
  match (if batOn c && x.state == ctxACTIVE then slotOfModule c (ctxModule x) else none) with
  | none => c
  | some m =>
    let c := if evt then idleExit t c else c
    let b := batMod c m
    let attach := !c.flag (F.BAT_Mm_STAT_PRES m)
    let c := if attach ∧ ¬(b.held ∧ b.id = x.id) then newModule m x.id c else c
    let w := fun hi lo => bits x.lastrep hi lo
    let stamp : Stamp := BitVec.ofNat 48 (w 31 0 * 65536 + w 47 32)
    let c := ((c.wr (F.BAT_Mm_MEAS_VCMIN m) (w 143 128)).wr (F.BAT_Mm_MEAS_TMIN m) (w 167 160)).wr (F.BAT_Mm_MEAS_TMAX m) (w 175 168)
    let c := (c.wrB (F.BAT_Mm_STAT_STALE m) false).wrB (F.BAT_Mm_STAT_PRES m) true
    let c := modMod m (fun b => { b with vmod := w 79 64, repAt := t.tick, vcmax := w 159 144, firstDue := b.firstDue || attach
                                         reps := (tickOfStamp t c stamp, w 79 64) ::
                                           b.reps.filter fun a => decide (t.tick ≤ a.1 + tenthMs 1300) }) c
    let c := watchCells t m c
    showBat (if (batMod c m).firstDue then firstEstimate t m c else c)

/-- The context of a module has left: the slot keeps its state (R209). -/
def batDetach (module : Nat) (c : Chip) : Chip :=
  match slotOfModule c module with
  | some m => showBat (modMod m (fun b => { b with steady := false, reps := [] }) (c.wrB (F.BAT_Mm_STAT_PRES m) false))
  | none => c

/-- The tick from which a module of slot `m` without a report is STALE: four of the periods in force, 1 s in IDLE, 500 µs while a
window of its string is open, else 10 ms (R201). -/
def staleAt (c : Chip) (m : Nat) : Nat :=
  let b := batMod c m
  if c.flag F.BAT_STAT_IDLE then max b.repAt c.bat.runAt + tenthMs 40000
  else match (batStr c (c.rd (F.BAT_Mm_CFG_STR m))).win with
    | some w => max (max b.repAt w.at_) c.bat.runAt + tenthMs 20
    | none => max b.repAt c.bat.runAt + tenthMs 400

/-- MODULE_STALE: no report for four periods (R201). -/
def moduleStale (t : Time) (m : Nat) (c : Chip) : Chip :=
  if batOn c && decide (staleAt c m ≤ t.tick) && (present c).contains m && !c.flag (F.BAT_Mm_STAT_STALE m) then
    raise t 0x0A 0x20 m (modMod m (fun b => { b with steady := false }) (c.wrB (F.BAT_Mm_STAT_STALE m) true))
  else c

/-! ### Charger, limits and references (R213–R216) -/

/-- The charger states of R213. -/
def chOFF : Nat := 0
@[inherit_doc chOFF] def chINHIB : Nat := 1
@[inherit_doc chOFF] def chPRE : Nat := 2
@[inherit_doc chOFF] def chBULK : Nat := 3
@[inherit_doc chOFF] def chABS : Nat := 4
@[inherit_doc chOFF] def chFLOAT : Nat := 5
@[inherit_doc chOFF] def chDONE : Nat := 6
@[inherit_doc chOFF] def chPAUSE : Nat := 7

/-- The charger's state. -/
def chState (c : Chip) : Nat := c.rd F.BAT_STAT_CHGST

/-- A level in mV per cell, in 2^−20 mV, with the coefficient of R202 at the highest temperature. -/
def tempLevel (c : Chip) (mv : Nat) : Int :=
  (mv * 2 ^ 20 : Nat) - (if chem c = 0 then 3 * 2 ^ 20 * (tHigh c - 25) else 0)

/-- VCV(T) and VFLOAT(T). -/
def vcv (c : Chip) : Int := tempLevel c (c.rd F.BAT_CV_VCV)
@[inherit_doc vcv] def vfloat (c : Chip) : Int := tempLevel c (c.rd F.BAT_CV_VFLOAT)

/-- The string mean per cell, the largest over the strings, in 2^−20 mV. -/
def stringPerCell (c : Chip) : Int :=
  ((strings c).map fun k => divEven ((batStr c k).v * 1000) (max 1 (stringCells c k))).foldl max 0

/-- The voltage judged in BULK, ABS and FLOAT, in 2^−20 mV per cell (R202). -/
def judged (c : Chip) : Int := if chem c = 2 then cellHigh c * 2 ^ 20 else stringPerCell c

/-- fc as a fraction (R214). -/
def fc (c : Chip) : Int × Nat :=
  let hot := c.rdI F.BAT_DER_CHOT
  let mx := c.rdI F.BAT_TWIN_CMAX
  let T := tHigh c
  if (present c).isEmpty || decide (tLow c < c.rdI F.BAT_TWIN_CMIN) || decide (mx < T) then (0, 1)
  else if T ≤ hot then (1, 1) else (mx - T, (mx - hot).toNat)

/-- A current in 0.1 A times fc, in 2^−20 A. -/
def timesFc (c : Chip) (i : Nat) : Int := divEven ((i * 2 ^ 20 : Nat) * (fc c).1) (10 * max 1 (fc c).2)

/-- The charge limit in 2^−20 A (R215). -/
def chargeLimit (c : Chip) : Int :=
  let pre := timesFc c (c.rd F.BAT_CHG_IPRE)
  let st := chState c
  if st = chPRE then pre
  else if st = chBULK ∨ st = chABS then timesFc c (c.rd F.BAT_CHG_ICC)
  else if st = chFLOAT then max c.bat.icmd pre else 0

/-- The discharge limit IDMAX × fd × gv in 2^−20 A (R215). -/
def dischargeLimit (c : Chip) : Int :=
  let lo := tLow c
  let mn := c.rdI F.BAT_TWIN_DMIN
  let cold := c.rdI F.BAT_DER_DCOLD
  let dm : Int := c.rd F.BAT_DER_DMINF
  let full : Int := (c.rd F.BAT_DLIM_IDMAX * 2 ^ 20 : Nat)
  let fd : Int × Nat :=
    if (present c).isEmpty || decide (lo < mn) || decide (c.rdI F.BAT_TWIN_DMAX < tHigh c) then (0, 1)
    else if cold ≤ lo then (100, 100) else (dm * (cold - mn) + (100 - dm) * (lo - mn), 100 * (cold - mn).toNat)
  let cut : Int := c.rd F.BAT_DLIM_VCUT
  let tap : Int := c.rd F.BAT_DER_VDTAPER * 20
  let v := cellLow c
  let gv : Int × Nat := if v ≤ cut then (0, 1) else if cut + tap ≤ v then (1, 1) else (v - cut, tap.toNat)
  if c.flag F.BAT_STAT_DEEP then 0 else divEven (full * fd.1 * gv.1) (10 * max 1 fd.2 * max 1 gv.2)

/-- The battery voltage: mean of the strings, in 2^−20 V; Ib summed (R216). -/
def batVolts (c : Chip) : Int :=
  let l := (strings c).map fun k => (batStr c k).v
  if l.isEmpty then 0 else divEven (l.foldl (· + ·) 0) l.length
@[inherit_doc batVolts] def batAmps (c : Chip) : Int := ((strings c).map fun k => (batStr c k).ib).foldl (· + ·) 0

/-- A signal word, saturating. -/
def sigWord (x : Int) : Int := clampI (-(2 ^ 31)) (2 ^ 31 - 1) x

/-- `num / den`, half to even; with a divisor that is not positive the manual states no value: a free one. -/
def orFree (c : Chip) (num den : Int) : Int :=
  if 0 < den then divEven num den.toNat else Config.unstated c.free

/-- What BAT delivers after a step: references, registers, and the values it hands BUS (R216). -/
def batDeliver (t : Time) (c : Chip) : Chip :=
  let ib := max 1 (c.rd F.BAT_BASE_IB)
  let vb := max 1 (c.rd F.BAT_BASE_VB)
  let perI := fun (x : Int) => sigWord (divEven (x * 160) ib)
  let chg := chargeLimit c
  let dis := dischargeLimit c
  let icmd := if c.flt.biv then 0 else c.bat.icmd
  let st := chState c
  let cells := ((strings c).map (stringCells c)).headD 0
  let stage : Int := if (st = chBULK ∨ st = chABS) ∧ chem c ≠ 1 then vcv c
    else if st = chFLOAT ∧ chem c = 0 then vfloat c else (c.rd F.BAT_CLIM_VMAXC * 2 ^ 20 : Nat)
  let refs : List Int := [perI icmd, sigWord (divEven (stage * cells * 16) (10 * vb)), perI dis, perI chg,
    sigWord (divEven (batVolts c * 1600) vb), perI (batAmps c)]
  let c := c.forAll (List.range 6) fun k => setRef (0x30 + k) (refs.getD k 0)
  let deci := fun (x : Int) => (clampI 0 0xFFFF (divEven (x * 10) (2 ^ 20))).toNat
  let c := (((c.wr F.BAT_LIMS_ICHLIM (deci chg)).wr F.BAT_LIMS_IDSLIM (deci dis)).wr F.BAT_ICMD_ICMD (deci icmd)).wrI F.BAT_ICMD_IB
    (clampI (-32768) 32767 (divEven (batAmps c * 10) (2 ^ 20)))
  let vbus := busLevel c
  let toBus := fun (c : Chip) (x : Int) => orFree c (x * 10 * batVolts c * 100) (vbus * c.rd F.BUS_BASE_IBASE)
  let cmd := toBus c icmd
  let lim := toBus (tickFree c) chg
  let dsl := toBus (tickFree (tickFree c)) dis
  let c := tickFree (tickFree (tickFree c))
  busChanged t (modBus (fun b => { b with batCmd := cmd, batChg := lim, batDis := dsl }) (busAdvance t c))

/-- The charger enters a state: CHGSTATE, and IDLE is left (R213, R217). The stage timer of PRE, and that of BULK and ABS,
start on entry, but from PAUSE they go on. -/
def setCharger (t : Time) (st : Nat) (c : Chip) : Chip :=
  if chState c = st then c
  else
    let c := if chPRE ≤ st ∧ st ≠ chABS ∧ st ≠ chPAUSE ∧ ¬(chState c = chPAUSE ∧ c.bat.stagePre = decide (st = chPRE) ∧ st ≤ chBULK) then
        modBat (fun b => { b with stageMs := 0, stagePre := decide (st = chPRE), peak := stringPerCell c, tRef := tHigh c, tRefMs := 0, warming := false }) c else c
    let c := if st = chABS ∨ st = chFLOAT then c else modBat (fun b => { b with icmd := 0 }) c
    let c := modBat (fun b => { b with taperAt := none }) c
    idleExit t (irq t 0x12 2 (c.wr F.BAT_STAT_CHGST st))

/-- The temperatures lie in the charge window, `inside` K within it. -/
def inCharge (c : Chip) (inside : Int) : Bool :=
  decide (c.rdI F.BAT_TWIN_CMIN + inside ≤ tLow c) && decide (tHigh c + inside ≤ c.rdI F.BAT_TWIN_CMAX)

/-- A condition of INHIB holds: its kind and address (R213, R224). -/
def inhibit (c : Chip) : Option (Nat × Nat) :=
  if !inCharge c 0 then
    some (0x02, ((present c).find? fun m => decide (c.rdI (F.BAT_Mm_MEAS_TMIN m) < c.rdI F.BAT_TWIN_CMIN)
      || decide (c.rdI F.BAT_TWIN_CMAX < c.rdI (F.BAT_Mm_MEAS_TMAX m))).getD 0)
  else match (present c).find? fun m => c.flag (F.BAT_Mm_STAT_STALE m) with
    | some m => some (0x20, m)
    | none => ((present c).find? fun m => decide (c.rd F.BAT_CLIM_VMAXC ≤ (batMod c m).vcmax)).map fun m => (0x04, m + 0x100)

/-- PRE below VPRE, else BULK (R213). -/
def chargeStart (t : Time) (c : Chip) : Chip :=
  setCharger t (if cellLow c < c.rd F.BAT_CLIM_VPRE then chPRE else chBULK) c

/-- The NiMH termination of R202: dT/dt over the last minute, or 5 mV per cell below the peak. -/
def nimhEnds (c : Chip) : Bool :=
  c.bat.warming || decide (stringPerCell c + 5 * 2 ^ 20 ≤ c.bat.peak)

/-- CHARGER_TRANSITION on the conditions judged in a step (R213). -/
def chargerStep (t : Time) (c : Chip) : Chip :=
  let st := chState c
  let off := !(c.flag F.BAT_CTL_EN && c.flag F.BAT_CTL_CHGEN)
  let normal := busState c == busNORMAL
  let ended := st = chBULK ∧ chem c = 1 ∧ nimhEnds c
  let ready := normal && !(present c).isEmpty && inCharge c 0 && !c.bat.hold
  if off then setCharger t chOFF c
  else if st = chOFF then (if ready then chargeStart t c else c)
  else if st = chPAUSE then (if ready then chargeStart t c else c)
  else if chPRE ≤ st ∧ !normal then
    setCharger t chPAUSE (if ended ∧ (inhibit c).isNone then endAnchor t c else c)
  else if st = chINHIB then
    (if inCharge c 2 && !((present c).any fun m => c.flag (F.BAT_Mm_STAT_STALE m)) && !(present c).isEmpty
        && decide (cellHigh c < c.rd F.BAT_CV_VCV) then chargeStart t c else c)
  else match (if chPRE ≤ st ∧ st ≤ chFLOAT then inhibit c else none) with
    | some (k, a) => raise t 0x0A k a (setCharger t chINHIB c)
    | none =>
      if st = chPRE then (if (c.rd F.BAT_CLIM_VPRE : Int) ≤ cellLow c then setCharger t chBULK c else c)
      else if st = chBULK then
        (if chem c = 1 then (if ended then setCharger t chFLOAT (endAnchor t c) else c)
         else if vcv c ≤ judged c then
           setCharger t chABS (modBat (fun b => { b with icmd := timesFc c (c.rd F.BAT_CHG_ICC) }) c) else c)
      else if (st = chFLOAT ∨ st = chDONE) ∧ shelfSoc c < c.rd F.BAT_CTERM_RECHG * 100 * 2 ^ 20 then setCharger t chBULK c
      else c

/-- Icmd of the stages without a loop (R214). -/
def stageCommand (c : Chip) : Chip :=
  let st := chState c
  let pre := timesFc c (c.rd F.BAT_CHG_IPRE)
  if st = chPRE ∨ (st = chFLOAT ∧ chem c = 1) then modBat (fun b => { b with icmd := pre }) c
  else if st = chBULK then modBat (fun b => { b with icmd := timesFc c (c.rd F.BAT_CHG_ICC) }) c
  else if st = chABS ∨ st = chFLOAT then c
  else modBat (fun b => { b with icmd := 0 }) c

/-! ### The estimator step (R204, R205, R208) -/

/-- The mean current of a string over the step, its registers and its rest time. -/
def stringStep (ms k : Nat) (c : Chip) : Chip :=
  let c := modStr k (fun s => { s with ib := if s.n = 0 then s.ib else divEven s.sum s.n, sum := 0, n := 0 }) c
  let s := batStr c k
  let c := modStr k (fun s => { s with restMs := if below s.ib (c.rd F.BAT_EST_IREST) then s.restMs + ms else 0 }) c
  (c.wrI (F.BAT_STRk_MEAS_I k) (clampI (-32768) 32767 (divEven (s.ib * 10) (2 ^ 20)))).wr (F.BAT_STRk_MEAS_V k)
    (clampI 0 65535 (divEven (s.v * 100) (2 ^ 20))).toNat

/-- One lag of R204. -/
def lagStep (decay : Nat) (v : Int) (drive : Int) : Int := divEven (v * decay + drive * (2 ^ 32 - decay)) (2 ^ 32)

/-- Charge and lags of one module over `ms` (R204, steps 1 and 2). -/
def chargeStep (ms m : Nat) (c : Chip) : Chip :=
  let ib := modIb c m
  let T := c.rdI (F.BAT_Mm_MEAS_TMAX m)
  let (_, z1, z2) := zTerms c m
  let idle := decide (1 < ms)
  let b := batMod c m
  let d : Int := (if 0 ≤ ib then -(ib * ms) else divEven (-(ib * ms) * chargeEff c) 100) - selfLoss c b.qfull T ms
  let q := clampI 0 b.qfull ((b.q : Int) + d)
  let drawn := if 0 < ib then (ib * ms).toNat else 0
  let d1 := lagDecay (tickFree c) false idle
  let d2 := lagDecay (tickFree (tickFree c)) true idle
  modMod m (fun b => { b with
    q := q.toNat, anchq := b.anchq + d, passed := b.passed + d.natAbs, thru := b.thru + drawn
    overq := if b.q = 0 then b.overq + drawn else b.overq
    v1 := lagStep d1 b.v1 (z1 * ib), v2 := lagStep d2 b.v2 (z2 * ib) }) (tickFree (tickFree (tickFree c)))

/-- Voltage, state of charge and the ends of the range of one module (R204, steps 3 and 4; R205, R208). -/
def stateStep (t : Time) (m : Nat) (c : Chip) : Chip :=
  let ib := modIb c m
  let c := modMod m (fun b => { b with vocv := vocvOf c m ib }) c
  let b := batMod c m
  let si := socI b
  let c := modMod m (fun b => { b with socr := if atLeast ib (c.rd F.BAT_EST_IREST) then min b.socr si else si }) c
  let empty := ((ocvPoints (chem c)).headD 0 + c.rd F.BAT_EST_DISMARG) * 100 * 2 ^ 20
  let c := if b.q = 0 ∧ 0 < ib ∧ ((empty : Nat) : Int) < b.vocv ∧ !c.flag (F.BAT_Mm_STAT_DISAGREE m) then
      irq t 0x12 3 (raise t 0x0A 0x08 m (c.wrB (F.BAT_Mm_STAT_DISAGREE m) true)) else c
  let low := c.rd (F.BAT_Mm_MEAS_VCMIN m) ≤ c.rd F.BAT_DLIM_VCUT ∧ 0 < si
  if low then modMod m (fun b => { b with socr := 0 }) (c.wrB (F.BAT_Mm_STAT_LOWV m) true) else c

/-- The stage timer and the termination references of BULK (R202, R213). -/
def stageTimers (ms : Nat) (c : Chip) : Chip :=
  let st := chState c
  if st = chPRE ∨ st = chBULK ∨ st = chABS then
    modBat (fun b =>
      let minute := decide (60000 ≤ b.stageMs + ms - b.tRefMs)
      { b with stageMs := b.stageMs + ms
               warming := if minute then decide ((c.rd F.BAT_DER_DTDT : Int) ≤ 4 * (tHigh c - b.tRef)) else b.warming
               peak := max b.peak (stringPerCell c)
               tRef := if minute then tHigh c else b.tRef, tRefMs := if minute then b.stageMs + ms else b.tRefMs }) c
  else c

/-- The conditions of IDLE but for their duration (R217). -/
def calm (c : Chip) : Bool :=
  c.flag F.BAT_CTL_IDLEEN && (strings c).all (fun k => below (batStr c k).ib (c.rd F.BAT_HIB_IHIB))
    && (busState c == busOFF || busState c == busNORMAL) && [chOFF, chINHIB, chDONE].contains (chState c)

/-- The length of an estimator step in ms: 1 s in IDLE, else 1 ms (R204). -/
def stepMs (c : Chip) : Nat := if c.flag F.BAT_STAT_IDLE then 1000 else 1

/-- ESTIMATOR_STEP: strings, modules, charger, references (R204–R216); every 1 ms in RUN, every 1 s in IDLE. -/
def estimatorStep (t : Time) (c : Chip) : Chip :=
  if !batOn c || decide (t.tick < c.bat.estAt + 400000 * stepMs c) then c
  else
    let c := dueWindows t (modBat (fun b => { b with estAt := t.tick }) c)
    let ms := stepMs c
    let c := c.forAll (strings c) (stringStep ms)
    let mods := (present c).filter fun m => c.flag (F.BAT_Mm_STAT_VALID m)
    let c := (c.forAll mods fun m c => stateStep t m (chargeStep ms m c)).forAll (present c) (watchCells t)
    let c := chargerStep t (showBat c)
    let c := modBat (fun b => { b with calmAt := sinceTick t (calm c) b.calmAt }) c
    let c := modBat (fun b => { b with mirMs := if 100 ≤ b.mirMs + ms then 0 else b.mirMs + ms }) c
    batDeliver t (showBat (stageTimers ms (stageCommand c)))

/-- A stage runs out: kind 0x04 with its cause, and the charger holds in OFF (R213). -/
def stageTimeout (t : Time) (cause : Nat) (c : Chip) : Chip :=
  batDeliver t (setCharger t chOFF (modBat (fun b => { b with hold := true }) (raise t 0x0A 0x04 (cause * 256) c)))

/-- PRECHARGE_TIMEOUT, BULK_TIMEOUT (R213): the stage timer has reached TPRE or TBULK. -/
def prechargeTimeout (t : Time) (c : Chip) : Chip := if batOn c ∧ chState c = chPRE ∧ c.rd F.BAT_CTERM_TPRE * 60000 ≤ c.bat.stageMs then stageTimeout t 2 c else c
@[inherit_doc prechargeTimeout] def bulkTimeout (t : Time) (c : Chip) : Chip :=
  if batOn c ∧ (chState c = chBULK ∨ chState c = chABS) ∧ c.rd F.BAT_CTERM_TBULK * 600000 ≤ c.bat.stageMs then stageTimeout t 3 c else c

/-- CHARGE_TAPER_DONE (R213): the command has been below ITAPER for 60 s; the end-of-charge anchor, then FLOAT or DONE; INHIB goes
before it (R222). -/
def taperDone (t : Time) (c : Chip) : Chip :=
  if batOn c ∧ chState c = chABS ∧ heldFor t (60000 * 400000) c.bat.taperAt then
    match inhibit c with
    | some _ => batDeliver t (chargerStep t c)
    | none =>
      let c := showBat (setCharger t (if chem c = 2 then chDONE else chFLOAT) (endAnchor t c))
      batDeliver t (stageCommand (if busState c = busNORMAL then c else setCharger t chPAUSE c))
  else c

/-- ABSORPTION_UPDATE, every 10 ms in ABS, and in FLOAT of NiCd (R214). -/
def absorptionUpdate (t : Time) (c : Chip) : Chip :=
  let st := chState c
  if batOn c ∧ c.bat.absAt + 4000000 ≤ t.tick ∧ (st = chABS ∨ (st = chFLOAT ∧ chem c = 0)) then
    let level := if st = chABS then vcv c else vfloat c
    let icmd := clampI 0 (timesFc c (c.rd F.BAT_CHG_ICC)) (c.bat.icmd + divEven (level - judged c) 10)
    let low := decide (icmd * 10 < ((c.rd F.BAT_CTERM_ITAPER * 2 ^ 20 : Nat) : Int))
    modBat (fun b => { b with icmd := icmd, absAt := t.tick, taperAt := sinceTick t (st = chABS && low) b.taperAt }) c
  else c

/-- DEEP_DISCHARGE of a slot (R215): its lowest cell has stayed at or below VCUT for 1 s. -/
def deepDischarge (t : Time) (m : Nat) (c : Chip) : Chip :=
  if batOn c && (present c).contains m && !c.flag (F.BAT_Mm_STAT_DEEP m) && heldFor t 400000000 (batMod c m).lowAt then
    batDeliver t (showBat (raise t 0x0A 0x01 m (c.wrB (F.BAT_Mm_STAT_DEEP m) true)))
  else c

/-- DEEP_RELEASE of a slot (R215): its lowest cell has stayed clear of VCUT for 60 s with Ib at most IREST. -/
def deepRelease (t : Time) (m : Nat) (c : Chip) : Chip :=
  if batOn c && c.flag (F.BAT_Mm_STAT_DEEP m) && heldFor t (60000 * 400000) (batMod c m).clearAt then
    batDeliver t (showBat (c.wrB (F.BAT_Mm_STAT_DEEP m) false))
  else c

/-- IDLE_ENTER: its conditions have held for THIB (R217). -/
def idleEnter (t : Time) (c : Chip) : Chip :=
  if batOn c && calm c && heldFor t (400000000 * c.rd F.BAT_HIB_THIB) c.bat.calmAt then
    (modBat (fun b => { b with runAt := t.tick, strs := b.strs.map fun e => (e.1, { e.2 with win := none }), dues := [] }) c).wrB F.BAT_STAT_IDLE true
  else c

/-! ### Impedance (R211, R212) -/

/-- A stored term moves toward a measured one: whole when none is valid, else within a factor 4 and by 1 / 2^ZAVG (R212).
A first term that the field cannot hold is a free value. -/
def zFilter (c : Chip) (valid : Bool) (Z : Nat) (z : Int) : Nat :=
  if !valid then (if 0 ≤ z ∧ z ≤ 65535 then z.toNat else Config.unstated c.free)
  else if (Z : Int) ≤ 4 * z ∧ z ≤ 4 * Z then (divEven (Z * 2 ^ c.rd F.BAT_IMP_ZAVG + (z - Z)) (2 ^ c.rd F.BAT_IMP_ZAVG)).toNat
  else Z

/-- An IMPWIN record (R333, R334), with both stamps of t0 (R212). -/
def impRecord (t : Time) (t0 : Stamps) (slot k : Nat) (tz : Int) (dI z0 z1 z2 : Int) (c : Chip) : Chip :=
  recWrite t (evRing c) 0x09 0x0A (selfAddr c) t0
    (bytesLE 1 slot ++ bytesLE 1 k ++ bytesLE 2 (ofInt 16 tz) ++ bytesLE 4 (ofInt 32 (divEven (dI * 1000) (2 ^ 20)))
      ++ bytesLE 2 (ofInt 16 z0) ++ bytesLE 2 (ofInt 16 z1) ++ bytesLE 2 (ofInt 16 z2) ++ bytesLE 1 1 ++ bytesLE 9 0) c

/-- The terms of one module from its reports nearest the marks (R211), filtered into its registers (R212). -/
def moduleTerms (t : Time) (k t0 : Nat) (stamp : Stamps) (dI : Int) (m : Nat) (c : Chip) : Chip :=
  let reps := (batMod c m).reps
  let near := fun (mark tol : Nat) =>
    (reps.filter fun a => decide (((a.1 : Int) - (mark : Int)).natAbs ≤ tol)).foldl (fun (b : Option (Nat × Nat)) a =>
      match b with
      | some x => if ((x.1 : Int) - (mark : Int)).natAbs ≤ ((a.1 : Int) - (mark : Int)).natAbs then b else some a
      | none => some a) none
  let pre := reps.find? fun a => decide (a.1 < t0 - tenthMs 1)
  match pre, near (t0 + tenthMs 10) (tenthMs 5), near (t0 + tenthMs 100) (tenthMs 10), near (t0 + tenthMs 1000) (tenthMs 10) with
  | some p, some a, some b, some d =>
    let z := fun (x y : Nat) => divEven (((x : Int) - (y : Int)) * 1000 * 2 ^ 20 * (if 0 < dI then 1 else -1)) (max 1 dI.natAbs)
    let (z0, z1, z2) := (z p.2 a.2, z a.2 b.2, z b.2 d.2)
    let valid := c.flag (F.BAT_Mm_STAT_ZVALID m)
    let put := fun (f : Fld) (z : Int) (c : Chip) => tickFree (c.wr f (zFilter c valid (c.rd f) z))
    let c := put (F.BAT_Mm_ZD_ZDYN2 m) z2 (put (F.BAT_Mm_ZD_ZDYN1 m) z1 (put (F.BAT_Mm_Z_ZSER m) z0 c))
    let T := c.rdI (F.BAT_Mm_MEAS_TMAX m)
    let c := irq t 0x12 1 ((c.wrI (F.BAT_Mm_Z_TZ m) (T * 10)).wrB (F.BAT_Mm_STAT_ZVALID m) true)
    let c := impRecord t stamp m k (T * 10) dI z0 z1 z2 c
    if c.rd F.BAT_IMP_ZRISE * zTimesQ c * 1000 * c.rd (F.BAT_Mm_CFG_NCELL m)
        < 100 * c.rd (F.BAT_Mm_Z_ZSER m) * c.rd (F.BAT_Mm_CFG_QRATED m) then
      (if c.flag (F.BAT_Mm_STAT_ZRISE m) then c else raise t 0x0A 0x40 m (c.wrB (F.BAT_Mm_STAT_ZRISE m) true))
    else c
  | _, _, _, _ => c

/-- A window of string `k` is abandoned and counted (R211). -/
def abandonWindow (k : Nat) (c : Chip) : Chip :=
  modBat (fun b => { b with lostWin := b.lostWin + 1 }) (modStr k (fun s => { s with win := none }) c)

/-- Ipre and Ipost about the crossing `t0` (R210, R211), the first taken `early` and the second `late` tenths of a
millisecond further away while t0 itself is not known. -/
def windowCurrents (s : BatStr) (t0 early late : Nat) : Option (Int × Int) :=
  match iPre s (t0 - tenthMs early), meanIn s.is (t0 + tenthMs (10 + late)) (t0 + tenthMs 1000) with
  | some a, some b => some (a, b)
  | _, _ => none

/-- t0 (R210): the first reading past the middle of the step; that of an announced step lies within ±2 ms of the due tick. -/
def crossing (s : BatStr) (w : BatWin) : Option Nat :=
  match windowCurrents s w.at_ (if w.announced then 20 else 0) (if w.announced then 20 else 0) with
  | none => none
  | some (a, b) =>
    let inSpan := fun (x : Nat × Int) =>
      decide (w.at_ ≤ x.1 + tenthMs 20) && (!w.announced || decide (x.1 ≤ w.at_ + tenthMs 20))
    ((s.is.reverse.filter inSpan).find? fun x => pastMiddle a b x.2).map Prod.fst

/-- A string's window closes without a result and without a count: no window should have opened (R210). -/
def dropWindow (k : Nat) (c : Chip) : Chip := modStr k (fun s => { s with win := none }) c

/-- IMPEDANCE_WINDOW_JUDGE of string `k`, at t0 + 105 ms (R211, R212). -/
def windowJudge (t : Time) (k : Nat) (c : Chip) : Chip :=
  let s := batStr c k
  if !batOn c then c
  else match s.win with
    | none => c
    | some w =>
      match crossing s w with
      | none => if w.at_ + tenthMs (if w.announced then 1070 else 1050) ≤ t.tick then abandonWindow k c else c
      | some t0 =>
        if t.tick < t0 + tenthMs 1050 then c else
        if !iQuiet c s t0 then dropWindow k c else
        match windowCurrents s t0 0 0, meanIn s.vs (t0 - tenthMs 50) (t0 - tenthMs 1), meanIn s.vs (t0 + tenthMs 9) (t0 + tenthMs 11),
            meanIn s.vs (t0 + tenthMs 95) (t0 + tenthMs 105), meanIn s.vs (t0 + tenthMs 950) (t0 + tenthMs 1050) with
        | some (ipre, ipost), some vp, some v1, some v10, some v100 =>
          let dI := ipost - ipre
          let steady := (s.is.filter fun a => decide (t0 + tenthMs 10 ≤ a.1) && decide (a.1 ≤ t0 + tenthMs 1050)).all fun a =>
            decide (4 * (a.2 - ipost).natAbs ≤ dI.natAbs)
          if decide (c.rd F.BAT_IMP_STEPI * 2 ^ 20 ≤ 10 * dI.natAbs) && dI != 0 && steady then
            let z := fun (x y : Int) => divEven ((x - y) * 100000 * (if 0 < dI then 1 else -1)) dI.natAbs
            let back := t.tick - t0
            let stamp : Stamps := { t.stamps with stamp := t.stamp - BitVec.ofNat 48 (back * effInc c / 2 ^ 32)
                                                  ns := t.ns - BitVec.ofNat 64 (back * 5 / 2) }
            let tz := ((stringMods c k).map fun m => c.rdI (F.BAT_Mm_MEAS_TMAX m)).foldl max (-128)
            let c := impRecord t stamp 0xFF k (tz * 10) dI (z vp v1) (z v1 v10) (z v10 v100) c
            let c := c.forAll (stringMods c k) (moduleTerms t k t0 stamp dI)
            modStr k (fun s => { s with win := none }) c
          else abandonWindow k c
        | _, _, _, _, _ => abandonWindow k c

/-! ### The restore record (R218–R221) -/

/-- REST: the seconds since the last save (R218). -/
def restSeconds (t : Time) (c : Chip) : Nat :=
  match c.bat.savedAt with
  | some s => min 0xFFFFFFFF ((t.tick - s) / 400000000)
  | none => 0

/-- The module block of a slot (R219). -/
def recordBlock (c : Chip) (m : Nat) : List Byte :=
  let b := batMod c m
  let st := fun (f : Nat → Fld) => c.rd (f m)
  let flags := st F.BAT_Mm_STAT_DISAGREE + 2 * st F.BAT_Mm_STAT_FIRST + 4 * st F.BAT_Mm_STAT_ZVALID
    + 8 * st F.BAT_Mm_STAT_CAPL + 16 * st F.BAT_Mm_STAT_LOWV + 32 * st F.BAT_Mm_STAT_DEEP
  let rated := max 1 (c.rd (F.BAT_Mm_CFG_QRATED m))
  bytesLE 8 b.id ++ bytesLE 1 (c.rd (F.BAT_Mm_CFG_NCELL m)) ++ bytesLE 1 0 ++ bytesLE 2 flags
    ++ bytesLE 4 (b.qfull / qMilli) ++ bytesLE 4 (b.q / qMilli) ++ bytesLE 2 (zTerms c m).1 ++ bytesLE 2 (zTerms c m).2.1
    ++ bytesLE 2 (zTerms c m).2.2 ++ bytesLE 2 (c.rd (F.BAT_Mm_Z_TZ m)) ++ bytesLE 4 (b.thru / (1000 * qMilli))
    ++ bytesLE 2 (min 65535 (b.thru / (rated * qDeci))) ++ bytesLE 2 (b.anch / 2 ^ 20)
    ++ bytesLE 4 (ofInt 32 (b.anchq / qMilli)) ++ bytesLE 4 (b.overq / qMilli) ++ bytesLE 4 0

/-- Bytes as little-endian words of four. -/
def wordsOfBytes : Nat → List Byte → List Word
  | 0, _ => []
  | _, [] => []
  | n + 1, l => BitVec.ofNat 32 (leNat (l.take 4)) :: wordsOfBytes n (l.drop 4)

/-- The always-on items of a save (R218, R220). With the wake comparator asserted CURSEEN is 1 at once: a record saved while
current flows restores with its state of charge invalid. -/
def saveAo (t : Time) (seq : Nat) (c : Chip) : Chip :=
  let c := modBat (fun b => { b with savedAt := some t.tick }) c
  ((c.wr F.BAT_AORET_SEQ seq).wrB F.BAT_AORET_INTACT true).wrB F.BAT_AORET_CURSEEN (c.flag F.AO_STAT_IBAT)

/-- RECORD_SAVE: every enabled slot into the read buffer, and the always-on items (R220), which an AO reset of the
same tick takes with it (R482). -/
def recordSave (t : Time) (c : Chip) : Chip :=
  if !batOn c then c
  else
    let slots := (List.range 16).filter fun m => c.flag (F.BAT_Mm_CFG_EN m)
    let seq := (c.rd F.BAT_AORET_SEQ + 1) % 65536
    let valid := slots.all fun m => c.flag (F.BAT_Mm_STAT_VALID m)
    let head := bytesLE 2 1 ++ bytesLE 2 (36 + 48 * slots.length) ++ bytesLE 2 seq ++ bytesLE 1 slots.length
      ++ bytesLE 1 valid.toNat ++ bytesLE 6 t.stamp.toNat ++ bytesLE 2 0 ++ bytesLE 8 t.ns.toNat ++ bytesLE 1 (chem c) ++ bytesLE 7 0
    let body := head ++ slots.flatMap (recordBlock c)
    let c := modBat (fun b => { b with rbuf := Tab.setMany 0 [] 0 (wordsOfBytes 201 (body ++ bytesLE 4 (crc32 body).toNat)) }) c
    let c := if c.pwr.aoAt = some t.tick then c
      else saveAo t seq c
    irq t 0x12 5 ((c.wr F.BAT_RRES_RES 6).wr F.BAT_RRES_SEQ seq)

/-- STAGING_CLEAR (R221). -/
def stagingClear (c : Chip) : Chip := modBat (fun b => { b with sbuf := [] }) c

/-- The staged bytes. -/
def stagedBytes (c : Chip) (n : Nat) : List Byte := ((Tab.getMany 0 c.bat.sbuf 0 201).flatMap fun w => bytesLE 4 w.toNat).take n

/-- One block of a restore (R221): `full` restores the state of charge too. -/
def restoreBlock (t : Time) (full : Bool) (bl : List Byte) (c : Chip) : Chip :=
  let f := fun (at_ n : Nat) => leNat ((bl.drop at_).take n)
  match (List.range 16).find? fun m => c.flag (F.BAT_Mm_CFG_EN m) && (batMod c m).held && (batMod c m).id == f 0 8 with
  | none => c.count F.BAT_RRES_IGN
  | some m =>
    let fl := f 10 2
    let qfull := f 12 4 * qMilli
    let c := modMod m (fun b => { b with qfull := qfull, thru := f 28 4 * 1000 * qMilli, q := min b.q qfull }) c
    let c := ((c.wr (F.BAT_Mm_Z_ZSER m) (f 20 2)).wr (F.BAT_Mm_ZD_ZDYN1 m) (f 22 2)).wr (F.BAT_Mm_ZD_ZDYN2 m) (f 24 2)
    let c := ((c.wr (F.BAT_Mm_Z_TZ m) (f 26 2)).wrB (F.BAT_Mm_STAT_ZVALID m) (bit fl 2)).wrB (F.BAT_Mm_STAT_CAPL m) (bit fl 3)
    if full then
      let loss := selfLoss c qfull (c.rdI (F.BAT_Mm_MEAS_TMAX m)) (1000 * restSeconds t c)
      let c := modMod m (fun b => { b with q := min qfull (f 16 4 * qMilli - loss), anch := f 34 2 * 2 ^ 20
                                           anchq := toInt 32 (f 36 4) * qMilli, overq := f 40 4 * qMilli, steady := false }) (tickFree c)
      let c := modMod m (fun b => { b with socr := if atLeast (modIb c m) (c.rd F.BAT_EST_IREST) then min b.socr (socI b) else socI b }) c
      let put := fun (g : Nat → Fld) i (c : Chip) => c.wrB (g m) (bit fl i)
      (put F.BAT_Mm_STAT_DEEP 5 (put F.BAT_Mm_STAT_LOWV 4 (put F.BAT_Mm_STAT_FIRST 1 (put F.BAT_Mm_STAT_DISAGREE 0 c)))).wrB
        (F.BAT_Mm_STAT_VALID m) true
    else if c.flag (F.BAT_Mm_STAT_PRES m) then firstEstimate t m (c.wrB (F.BAT_Mm_STAT_VALID m) false)
    else c.wrB (F.BAT_Mm_STAT_VALID m) false

/-- The check of a staged record, in order (R221): its result code. -/
def restoreCheck (c : Chip) (cw : Nat) : Nat :=
  let all := stagedBytes c 804
  let f := fun (at_ n : Nat) => leNat ((all.drop at_).take n)
  let len := f 2 2
  let nmod := f 6 1
  if f 0 2 ≠ 1 ∨ len ≠ 36 + 48 * nmod ∨ nmod = 0 ∨ 16 < nmod then 4
  else
    let crc := (crc32 (all.take (len - 4))).toNat
    if crc ≠ f (len - 4) 4 then 2
    else if cw ≠ crc then 3
    else if f 24 1 ≠ chem c then 5
    else if c.flag F.BAT_AORET_INTACT && c.rd F.BAT_AORET_SEQ == f 4 2 && !c.flag F.BAT_AORET_CURSEEN && bit (f 7 1) 0 then 0
    else 1

/-- RESTORE_COMMIT: a write of BAT_RCW (R221). -/
def restoreCommit (t : Time) (cw : Nat) (c : Chip) : Chip :=
  if !batOn c then c
  else
    let res := restoreCheck c cw
    let all := stagedBytes c 804
    let nmod := leNat ((all.drop 6).take 1)
    let c := c.wr F.BAT_RRES_IGN 0
    let c := if 2 ≤ res then c
             else (c.forAll (List.range nmod) fun j => restoreBlock t (res = 0) ((all.drop (32 + 48 * j)).take 48)).wr
               F.BAT_RRES_SEQ (leNat ((all.drop 4).take 2))
    let c := irq t 0x12 5 (c.wr F.BAT_RRES_RES res)
    showBat (if res = 0 then c else raise t 0x0A 0x10 res c)

/-- An access to BAT_RDATA reads the selected buffer; a write reaches the staging buffer only; WORD advances with AUTOINC
(R220, R221). -/
def recordRead (c : Chip) : Chip × Nat :=
  let w := c.rd F.BAT_RIDX_WORD
  let v := if c.flag F.BAT_RIDX_BUF then (Tab.get 0 c.bat.sbuf w).toNat else (Tab.get 0 c.bat.rbuf w).toNat
  (if c.flag F.BAT_RIDX_AUTOINC then c.wr F.BAT_RIDX_WORD (w + 1) else c, v)
@[inherit_doc recordRead] def recordWrite (v : Nat) (c : Chip) : Chip :=
  let w := c.rd F.BAT_RIDX_WORD
  let c := if c.flag F.BAT_RIDX_BUF ∧ w ≤ 200 then
      modBat (fun b => { b with sbuf := Tab.set 0 b.sbuf w (BitVec.ofNat 32 v) }) c else c
  if c.flag F.BAT_RIDX_AUTOINC then c.wr F.BAT_RIDX_WORD (w + 1) else c

/-! ### Commit and block reset -/

/-- A code that BAT_STRk_CFG.ISRC or VSRC takes: 0x00–0x5F as far as R101 names it (R200), and 0xFF, none in every register
that takes the codes of R101 (log 14). -/
def batCodeOk (x : Nat) : Bool := decide (x ≤ 0x0F) || (decide (0x20 ≤ x) && decide (x ≤ 0x5F)) || x == 0xFF

/-- The first enabled string whose input codes are refused: the offset of its BAT_STRk_CFG (R200, R510). -/
def judgeBatCodes (c : Chip) : Option Nat :=
  ((strings c).find? fun k => !batCodeOk (c.rd (F.BAT_STRk_CFG_ISRC k)) || !batCodeOk (c.rd (F.BAT_STRk_CFG_VSRC k))).map
    fun k => 0xA0 + 0x10 * k

/-- What a commit of BAT is refused for (R224), in order of offset. -/
def judgeBat (c : Chip) : Option Nat :=
  let slots := (List.range 16).filter fun m => c.flag (F.BAT_Mm_CFG_EN m)
  let cells := (strings c).map (stringCells c)
  if chem c = 3 then some 0x40
  else if c.rd F.BAT_CLIM_VMAXC < c.rd F.BAT_CV_VCV then some 0x4C
  else if c.rdI F.BAT_TWIN_CMAX ≤ c.rdI F.BAT_TWIN_CMIN then some 0x5C
  else if c.rdI F.BAT_DER_CHOT < c.rdI F.BAT_TWIN_CMIN ∨ c.rdI F.BAT_TWIN_CMAX < c.rdI F.BAT_DER_CHOT then some 0x60
  else if cells.any fun x => x != cells.headD 0 then
    ((strings c).find? fun k => stringCells c k != cells.headD 0).map fun k => 0xA0 + 0x10 * k
  else (slots.find? fun m =>
      c.rd (F.BAT_Mm_CFG_NCELL m) == 0 || c.rd (F.BAT_Mm_CFG_QRATED m) == 0
        || !c.flag (F.BAT_STRk_CFG_EN (c.rd (F.BAT_Mm_CFG_STR m)))
        || slots.any fun n => decide (n < m) && c.rd (F.BAT_Mm_CFG_MOD n) == c.rd (F.BAT_Mm_CFG_MOD m)).map fun m => 0x100 + 0x20 * m

/-- After a commit of BAT: a slot whose CFG changed loses its state (R209); CHGEN 0 ends a hold and, like EN 0, puts the
charger into OFF (R213). -/
def batCommitted (t : Time) (was c : Chip) : Chip :=
  let c := c.forAll ((List.range 16).filter fun m => was.rdR (R.BAT_Mm_CFG m) != c.rdR (R.BAT_Mm_CFG m)) fun m c =>
    modMod m (fun _ => {}) (((c.wrR (R.BAT_Mm_STAT m) 0).wrR (R.BAT_Mm_Z m) 0).wrR (R.BAT_Mm_ZD m) 0)
  let c := if c.flag F.BAT_CTL_CHGEN then c else modBat (fun b => { b with hold := false }) c
  let c := if c.flag F.BAT_CTL_EN && c.flag F.BAT_CTL_CHGEN then c else stageCommand (setCharger t chOFF c)
  if c.blockOn 0x12 then batDeliver t (showBat c) else c

/-- A soft block reset of BAT restores all but the always-on items (R218, R455). -/
def batBlockReset (was c : Chip) : Chip :=
  { (c.wrR R.BAT_AORET (was.rdR R.BAT_AORET)) with bat := { savedAt := was.bat.savedAt } }

end Sys2Proof.Machine
end

