-- ==== Sys2Proof/Machine/Cap.lean ====
section
/-! DEFINITION. CAP: grants and reports, the division of budgets, caps and their enforcers, load intents, head roles, car
numbers and the endpoint registry (R148–R175). -/

namespace Sys2Proof.Machine

/-! ### Access -/

/-- CAP runs. -/
def capOn (c : Chip) : Bool := c.blockOn 0x10 && c.flag F.CAP_CTL_EN

/-- The hidden state of CAP changes by `f`. -/
def modCap (f : Cap → Cap) (c : Chip) : Chip := { c with cap := f c.cap }

/-- The head roles of this chip (R164, R165). -/
def isCarHead (c : Chip) : Bool := c.flag F.CAP_NUM_CARHEAD
@[inherit_doc isCarHead] def isConHead (c : Chip) : Bool := c.flag F.CAP_NUM_CONHEAD

/-- The car head: the lowest of the candidates seen, this shelf among them with CARHC (R164). -/
def carHeadShelf (c : Chip) : Option Nat :=
  let own := c.rd F.CAP_NUM_SHELF
  ((List.range 16).find? fun s => (s == own && c.flag F.CAP_CTL_CARHC) || c.cap.shelves.any fun e => e.1 == s)

/-- The 64-bit car identity. -/
def carId (c : Chip) : Nat := c.rdR R.CAP_ID_LO + 2 ^ 32 * c.rdR R.CAP_ID_HI

/-- The sub-ranges c.s.*.* of this shelf and c.*.*.* of this car (R148). -/
def shelfAddr (c : Chip) : Nat := ownAddr c 0 0
@[inherit_doc shelfAddr] def carAddr (c : Chip) : Nat := c.rd F.CAP_CAR_CAR * 2 ^ 20

/-- Car, shelf, module and element of an address (R12). -/
def addrCar (a : Nat) : Nat := a / 2 ^ 20 % 32
@[inherit_doc addrCar] def addrShelf (a : Nat) : Nat := a / 2 ^ 16 % 16
@[inherit_doc addrCar] def addrModule (a : Nat) : Nat := a / 2 ^ 10 % 64
@[inherit_doc addrCar] def addrElement (a : Nat) : Nat := a % 1024

/-- The address lies in this shelf. -/
def inShelf (c : Chip) (a : Nat) : Bool := a / 2 ^ 16 == shelfAddr c / 2 ^ 16

/-- The address names a car number that this car held before (R20). -/
def namesOldCar (c : Chip) (a : Nat) : Bool := c.cap.oldCars.contains (addrCar a)

/-- A command that names the old car number is discarded and counted (R20). -/
def discardOld (c : Chip) : Chip := c.count F.CAP_RDISC_OLDDISC

/-! ### The registry (R168–R171) -/

/-- The unit-table word of an address: car × 16 + shelf (R168). -/
def unitWord (c : Chip) (a : Nat) : Nat := (Tab.get 0 c.cap.units (addrCar a * 16 + addrShelf a)).toNat

/-- The byte address of an entry in LPDDR4X, where its unit is allocated (R168). -/
def entryAt (c : Chip) (a : Nat) : Option Nat :=
  let u := unitWord c a
  if bit u 31 && !c.pwr.ddrBad then
    some (c.rdR R.CAP_RBASE_LO + 2 ^ 32 * c.rdR R.CAP_RBASE_HI + u % 4096 * 2 ^ 20 + a % 65536 * 16)
  else none

/-- The four words of an entry; none where its unit is not allocated. -/
def entryRead (c : Chip) (a : Nat) : Option (List Nat) :=
  (entryAt c a).map fun p => (List.range 4).map fun j => leNat (Tab.getMany 0 c.ddr (p + 4 * j) 4)

/-- The entry changes by `f` on its words; CYCLE takes the cycle count of the write (R169, R170). -/
def entryWrite (t : Time) (a : Nat) (f : List Nat → List Nat) (c : Chip) : Chip :=
  match entryAt c a with
  | none => c
  | some p =>
    let w := f ((List.range 4).map fun j => leNat (Tab.getMany 0 c.ddr (p + 4 * j) 4))
    { c with ddr := Tab.setMany 0 c.ddr p ((w.take 3 ++ [t.stamp.cycle]).flatMap (bytesLE 4)) }

/-- An endpoint attaches: PRES, its source and context, no binding yet (R170). -/
def entryAttach (t : Time) (a src ctx : Nat) (safe : Bool) (c : Chip) : Chip :=
  entryWrite t a (fun w =>
    let w0 := w.headD 0
    let w0 := if bit w0 0 then w0 else setBits w0 31 24 0xFF
    setBits (setBits (setBit (setBit w0 0 true) 3 safe) 6 4 src) 15 8 ctx :: w.drop 1) c

/-- A measurement writes MEAS, RSEQ and CYCLE and refreshes the entry (R170). -/
def entryMeas (t : Time) (a : Nat) (watts : Int) (rseq : Nat) (c : Chip) : Chip :=
  entryWrite t a (fun w => [setBit (w.headD 0) 2 false, w.getD 1 0, ofInt 24 watts + rseq % 256 * 2 ^ 24]) c

/-- A cap takes effect: CAP and CAPV, with binding (0xFF: a head's child) and priority (R169, R170). -/
def entryCap (t : Time) (a watts k prio : Nat) (c : Chip) : Chip :=
  entryWrite t a (fun w =>
    [setBits (setBits (setBit (w.headD 0) 1 true) 17 16 prio) 31 24 k, watts % 2 ^ 24, w.getD 2 0]) c

/-- The priority of a child stands in its entry (R169). -/
def entryPrio (t : Time) (a prio : Nat) (c : Chip) : Chip :=
  entryWrite t a (fun w => setBits (w.headD 0) 17 16 prio :: w.drop 1) c

/-- Every entry of a module is cleared: its context is reclaimed (R170). -/
def entryClear (module : Nat) (c : Chip) : Chip :=
  match entryAt c (ownAddr c module 0) with
  | none => c
  | some p => { c with ddr := Tab.eraseRange c.ddr p (p + 1024 * 16) }

/-- The endpoint is present in the registry; an unallocated unit answers "not present" (R25, R168). -/
def entryPresent (c : Chip) (a : Nat) : Bool := match entryRead c a with | some w => bit (w.headD 0) 0 | none => false

/-- An element that R22 reserves. -/
def reservedElement (c : Chip) (a : Nat) : Bool :=
  let m := addrModule a
  let e := addrElement a
  if e = 1023 ∨ m ≤ 55 then false
  else if m ≤ 61 then !((groupLegs c (m - 56)).contains e)
  else if m = 62 then decide (16 ≤ e)
  else !([0, 1, 16, 17, 18, 19, 32, 33].contains e)

/-- REGISTRY_LOOKUP: a write of CAP_RLA (R171). -/
def lookupStart (a : Nat) (c : Chip) : Chip :=
  modCap (fun x => { x with lookup := some a }) ((c.wrR R.CAP_RLA a).wrB F.CAP_RLST_BUSY true)

/-- REGISTRY_LOOKUP_DONE: the entry appears in CAP_RLD0–RLD3 (R171). A unit without VALID and LPDDR4X that is invalid answer
"not present" with kind 0x20 (R168, R466); a reserved element of this shelf is an addressing fault (R22). -/
def lookupDone (t : Time) (c : Chip) : Chip :=
  match c.cap.lookup with
  | none => c
  | some a =>
    let reserved := inShelf c a && reservedElement c a
    let c := if reserved then raise t 0x08 0x01 a c
      else if (entryAt c a).isNone then raise t 0x08 0x20 a (irq t 0x10 5 c) else c
    let w := if reserved then [0, 0, 0, 0] else (entryRead c a).getD [0, 0, 0, 0]
    let pres := bit (w.headD 0) 0
    let c := if pres then c else c.count F.CAP_RDISC_NOTPRES
    let c := (((c.wrR R.CAP_RLD0 (w.getD 0 0)).wrR R.CAP_RLD1 (w.getD 1 0)).wrR R.CAP_RLD2 (w.getD 2 0)).wrR R.CAP_RLD3 (w.getD 3 0)
    let c := ((c.wrB F.CAP_RLST_BUSY false).wrB F.CAP_RLST_PRES pres).wrB F.CAP_RLST_UNALLOC (entryRead c a).isNone
    modCap (fun x => { x with lookup := none }) c

/-- ENTRY_STALE of an address (R170). -/
def entryStale (t : Time) (a : Nat) (c : Chip) : Chip :=
  if entryPresent c a then entryWrite t a (fun w => setBit (w.headD 0) 2 true :: w.drop 1) c else c

/-- The registry of this shelf follows a context that is allocated (R170); CAP divides again (R154). -/
def regAttach (t : Time) (i : Nat) (c : Chip) : Chip :=
  let x := ctx c i
  let c := modCap (fun p => { p with due := true }) c
  c.forAll (List.range x.nelem ++ [1023]) fun e => entryAttach t (ownAddr c (ctxModule x) e) x.path i x.safe

/-- The own endpoints of R22: legs of groups, channels, the shelf controller's elements, and each module as a whole. -/
def ownEndpoints (c : Chip) : List (Nat × Nat) :=
  ((List.range 6).filter fun k => c.flag (F.LEG_Gk_CFG_EN k)).flatMap (fun k =>
      (groupLegs c k).map (fun l => (56 + k, l)) ++ [(56 + k, 1023)])
    ++ ((List.range 16).map fun n => (62, n)) ++ [(62, 1023)]
    ++ [0, 1, 16, 17, 18, 19, 32, 33, 1023].map fun e => (63, e)

/-- The entries of the own hardware are present, with their SAFE mark (R169, R170); one that already says so is not written. -/
def regOwn (t : Time) (c : Chip) : Chip :=
  let safe := fun (e : Nat × Nat) => e.1 == 62 && inSafeSet c e.2
  let stands := fun (e : Nat × Nat) => match entryRead c (ownAddr c e.1 e.2) with
    | some w => bit (w.headD 0) 0 && bit (w.headD 0) 3 == safe e
    | none => false
  c.forAll ((ownEndpoints c).filter fun e => !stands e) fun e => entryAttach t (ownAddr c e.1 e.2) 0 0xFF (safe e)

/-! ### Measured power (R157) -/

/-- A measurement of an own or partner endpoint in 0.1 mW joins the mean of the period. -/
def capFeed (module element : Nat) (x : Int) (c : Chip) : Chip :=
  let k := module * 1024 + element
  let a := Tab.get (0, 0) c.cap.acc k
  modCap (fun p => { p with acc := Tab.set (0, 0) p.acc k (a.1 + x, a.2 + 1) }) c

/-- The channels deliver current × output voltage from each frame (R193): the current as read, which the register shows
saturated. -/
def capFromEfu (c : Chip) : Chip :=
  c.forAll (List.range 16) fun n => capFeed 62 n (efCurrent4096 c n (efIs c n) / 40960 * (efVolt4096 c n / 4096) : Nat)

/-- The slot-output code of the power of group `k` (CAP_GMSRC). -/
def gmsrc (c : Chip) (k : Nat) : Nat :=
  if k < 4 then bits (c.rdR R.CAP_GMSRC0) (8 * k + 7) (8 * k) else bits (c.rdR R.CAP_GMSRC1) (8 * (k - 4) + 7) (8 * (k - 4))

/-- After an iteration of slot `s`, the groups measured by its outputs are fed: per-unit of VBASE × IBASE (R121, R157). -/
def capFromSlot (s : Nat) (c : Chip) : Chip :=
  c.forAll ((List.range 6).filter fun k => decide (0x80 ≤ gmsrc c k) && gmsrc c k != 0xFF && (gmsrc c k - 0x80) / 4 == s) fun k =>
    capFeed (56 + k) 1023 (divEven (slotOutput c (gmsrc c k - 0x80) * 10 * (c.rd F.BUS_BASE_VBASE * c.rd F.BUS_BASE_IBASE : Nat)) (2 ^ 24))

/-- A report or a read-back of context `i` is fed: P in 10 W (R157, R308). -/
def capFromCtx (i : Nat) (c : Chip) : Chip :=
  capFeed (ctxModule (ctx c i)) 1023 (toInt 16 (bits (ctx c i).lastrep 111 96) * 100000) c

/-- An element report of context `i`: each word holds an element and its power in W (R308). -/
def capElements (i : Nat) (words : List Nat) (c : Chip) : Chip :=
  c.forAll words fun w => capFeed (ctxModule (ctx c i)) (w % 1024) (toInt 22 (w / 1024) * 10000)

/-- The mean power of an endpoint in W: of a module as a whole, the sum over its elements where it has no reading of its
own; of the shelf, the sum over modules 0–62 (R23, R157). -/
def measured10 (c : Chip) (module element : Nat) : Int :=
  let own := Tab.get 0 c.cap.meas (module * 1024 + element)
  let elems := fun m => ((c.cap.meas.filter fun e => e.1 / 1024 == m && e.1 % 1024 != 1023).map Prod.snd).foldl (· + ·) 0
  let whole := fun m => if c.cap.meas.any fun e => e.1 == m * 1024 + 1023 then Tab.get 0 c.cap.meas (m * 1024 + 1023) else elems m
  if element ≠ 1023 then own
  else if module = 63 then ((List.range 63).map whole).foldl (· + ·) 0
  else whole module

/-- The endpoints of a module have no measured power any more (R157). -/
def dropMeasured (module : Nat) (c : Chip) : Chip :=
  modCap (fun p => { p with
    acc := p.acc.filter fun e => e.1 / 1024 != module
    meas := p.meas.filter fun e => e.1 / 1024 != module }) c

/-- The means of the period are formed (R150, R157). -/
def closeMeans (c : Chip) : Chip :=
  let l := c.cap.acc.filter fun e => e.2.2 != 0
  let c := l.foldl (fun c e => modCap (fun p => { p with meas := Tab.set 0 p.meas e.1 (divEven e.2.1 (10000 * e.2.2)) }) c) c
  modCap (fun p => { p with acc := [] }) c

/-- Watts in 10 W, half to even. -/
def tens (w : Int) : Int := divEven w 10

/-! ### Dividing (R151–R153) -/

/-- A child of a division: floor, want, largest, priority, weight, in 10 W. -/
structure Share where
  floor : Nat
  want  : Nat
  max   : Nat
  prio  : Nat
  weight : Nat
  deriving DecidableEq, Repr

/-- One pass over a priority: the shares of the children still below their want (R153). -/
def sharePass (items : List Share) (p : Nat) (g : List Nat) (left : Nat) : List Nat × Nat :=
  let z := items.zip g
  let u := fun (x : Share × Nat) => x.1.prio == p && decide (x.2 < x.1.want)
  let w := ((z.filter u).map fun x => x.1.weight).foldl (· + ·) 0
  if w = 0 ∨ left = 0 then (g, left)
  else
    let ts := z.map fun x => if u x then min (left * x.1.weight / w) (x.1.want - x.2) else 0
    (List.zipWith (· + ·) g ts, left - ts.foldl (· + ·) 0)

/-- The division of `G` among the children: grants, reserve, and whether the floors exceed the budget (R153). -/
def divideBudget (items : List Share) (G : Int) (spare : Bool) : List Nat × Nat × Bool :=
  let floors := (items.map Share.floor).foldl (· + ·) 0
  let left0 := G - (floors : Nat)
  let (g, left) := [0, 0, 1, 1, 2, 2, 3, 3].foldl (fun a p => sharePass items p a.1 a.2) (items.map Share.floor, left0.toNat)
  if spare ∧ 0 < left then
    let s := (List.zipWith (fun (x : Share) g => x.max - g) items g).foldl (· + ·) 0
    let ts := List.zipWith (fun (x : Share) g => if s = 0 then 0 else min (left * (x.max - g) / s) (x.max - g)) items g
    (List.zipWith (· + ·) g ts, left - ts.foldl (· + ·) 0, decide (left0 < 0))
  else (g, left, decide (left0 < 0))

/-- Kind 0x02 once per episode of floors above the budget, by divider level (R153). -/
def floorCheck (t : Time) (level addr : Nat) (bad : Bool) (c : Chip) : Chip :=
  let was := bit c.cap.floorEp level
  let c := modCap (fun p => { p with floorEp := setBit p.floorEp level bad }) c
  if bad && !was then raise t 0x08 0x02 addr c else c

/-- The address of binding `k`; the binding is active (R151). -/
def bindAddr (c : Chip) (k : Nat) : Nat := c.rdR (R.CAP_CBk_EP k)
@[inherit_doc bindAddr] def bindActive (c : Chip) (k : Nat) : Bool :=
  c.flag (F.CAP_CBk_CFG_EN k) && c.rd (F.CAP_CBk_CFG_ACT k) != 0 && inShelf c (bindAddr c k) && entryPresent c (bindAddr c k)
    && !reservedElement c (bindAddr c k)

/-- The active bindings. -/
def bindings (c : Chip) : List Nat := (List.range 32).filter (bindActive c)

/-- P of binding `k` in W. -/
def bindPower (c : Chip) (k : Nat) : Int := measured10 c (addrModule (bindAddr c k)) (addrElement (bindAddr c k))

/-- P with headroom: P × (100 + HR) / 100 of watts, in 10 W rounded up. -/
def withHeadroom (c : Chip) (w : Int) : Nat := (-((-(w * (100 + c.rd F.CAP_TIM_HR : Nat))) / 1000)).toNat

/-- The figures of a binding (R151). -/
def bindShare (c : Chip) (k : Nat) : Share :=
  let fl := c.rd (F.CAP_CBk_LIM_FLOOR k)
  let mx := c.rd (F.CAP_CBk_LIM_CMAX k)
  ⟨fl, min mx (max fl (withHeadroom c (bindPower c k))), mx, c.rd (F.CAP_CBk_CFG_PRIO k), c.rd (F.CAP_CBk_CFG_WEIGHT k)⟩

/-- The shelf's measured power in W. -/
def shelfPower (c : Chip) : Int := measured10 c 63 1023

/-- Pu in 10 W: the shelf's power less that of the active bindings, floored at 0 (R152). -/
def unbound (c : Chip) : Nat := (tens (shelfPower c - ((bindings c).map (bindPower c)).foldl (· + ·) 0)).toNat

/-- BUS holds up, or is about to (R160). -/
def busHolds (c : Chip) : Bool := busOn c && decide (busPREP ≤ busState c) && busState c != busOFF

/-- The budget that the shelf divides: its grant, or FALLBACK, bounded by PHOLD (R160, R161). -/
def shelfBudget (c : Chip) : Nat × Bool :=
  let g := if bit c.cap.lost 1 then c.rd F.CAP_FB_FALLBACK else (Tab.get none c.cap.grants 1).getD (c.rd F.CAP_FB_FALLBACK)
  if busHolds c then (min g (c.rd F.BUS_AVAIL_PHOLD * 10), true) else (g, false)

/-! ### Delivering caps (R155, R156) -/

/-- A module cap object is sent to its module's context (R156). -/
def sendModuleCap (t : Time) (k g : Nat) (c : Chip) : Chip :=
  if c.flt.biv || isStandby c then c
  else match ctxFind c (fun _ x => x.state == ctxACTIVE && x.path == 1 && ctxModule x == addrModule (bindAddr c k)) with
    | some i => sendTo t i 1 0x09 [bindAddr c k, g * 10] c
    | none => c

/-- The cap of a binding reaches its enforcer; in the Bivouac none is delivered (R395), and a standby holds what was
mirrored (R173). -/
def deliverCap (t : Time) (k g : Nat) (c : Chip) : Chip :=
  let a := bindAddr c k
  let par := max 1 (c.rd (F.CAP_CBk_CFG_PARAM k))
  let c := entryCap t a (g * 10) k (c.rd (F.CAP_CBk_CFG_PRIO k)) (c.wr (F.CAP_CBk_STAT_CAP k) (min 0xFFFF g))
  if c.flt.biv || isStandby c then c
  else match c.rd (F.CAP_CBk_CFG_ACT k) with
    | 1 => setRef (0x40 + k) (sigWord (divEven (g * 2 ^ 24 : Nat) par)) c
    | 2 => sendModuleCap t k g c
    | 3 => efCap t (addrElement a) (some (g * 100000 / par)) c
    | 4 => match ctxFind c (fun _ x => x.state == ctxACTIVE && x.path == 2 && ctxModule x == addrModule a) with
      | some i => pmbCapWrite t ((ctx c i).loc % 8) (g * 10) (c.rd (F.CAP_CBk_CFG_PARAM k)) c
      | none => c
    | _ => c

/-- A binding without effect: its cap reference reads the largest signal word (R155). -/
def dropCap (k : Nat) (c : Chip) : Chip := (setRef (0x40 + k) (2 ^ 31 - 1) c).wr (F.CAP_CBk_STAT_CAP k) 0

/-- The channels that no active binding caps have no cap current (R155). -/
def dropChannelCaps (t : Time) (ks : List Nat) (c : Chip) : Chip :=
  c.forAll ((List.range 16).filter fun n => !ks.any fun k =>
      c.rd (F.CAP_CBk_CFG_ACT k) == 3 && addrElement (bindAddr c k) == n) fun n => efCap t n none

/-- The headroom in W for a step due at a stamp (R163). -/
def headroom (c : Chip) (a : Nat) (due : Stamp) : Int :=
  let budget := match (c.cap.pend.filter fun g => g.level == 1 && due.reached g.point).getLast? with
    | some g => if busHolds c then min g.budget (c.rd F.BUS_AVAIL_PHOLD * 10) else g.budget
    | none => c.rd F.CAP_GRANT_BUDGET
  let shelf : Int := (budget * 10 : Nat) - shelfPower c
  match (bindings c).find? fun k => bindAddr c k == a with
  | some k => min shelf ((c.rd (F.CAP_CBk_STAT_CAP k) * 10 : Nat) - bindPower c k)
  | none => shelf

/-- The signal word of a step of `w` W on a route whose slot has the power base `base` in 10 W (R163). -/
def stepWord (w : Int) (base : Nat) : Int := sigWord (divEven (w * 2 ^ 24) (10 * max 1 base))

/-- A cap change in the bin in which a step falls due bounds its feed-forward (R33, R172). -/
def boundIntents (t : Time) (c : Chip) : Chip :=
  { c with intents := c.intents.map fun i =>
      let room := max 0 (headroom c i.ep i.due)
      if 0 < i.watts ∧ t.stamp.reached i.due ∧ room < i.watts then { i with watts := room, delta := stepWord room i.base } else i }

/-- The shelf divides its budget in force, and the caps take effect (R151–R155). -/
def shelfDivide (t : Time) (c : Chip) : Chip :=
  let (G, phb) := shelfBudget c
  let pu := unbound c
  let ks := bindings c
  let (g, res, bad) := divideBudget (ks.map (bindShare c)) ((G : Int) - (pu : Int)) (c.flag F.CAP_CTL_SPARE)
  let was := c.rd F.CAP_GRANT_BUDGET
  let c := (((c.wr F.CAP_GRANT_BUDGET G).wrB F.CAP_GRANT_PHB phb).wrB F.CAP_GRANT_FB (bit c.cap.lost 1)).wr F.CAP_PUNB_PU pu
  let c := floorCheck t 1 (shelfAddr c) bad (c.wr F.CAP_RESV_RESERVE res)
  let c := modCap (fun p => { p with due := false }) c
  let c := if was = G then c else irq t 0x10 0 c
  let c := dropChannelCaps t ks (c.forAll ((List.range 32).filter fun k => !ks.contains k) dropCap)
  boundIntents t (c.forAll (ks.zip g) fun x => deliverCap t x.1 x.2)

/-! ### Objects on their way (R148–R150, R159) -/

/-- An object goes to another car: into the outbox of CPT, or into ring XRING for the host (R149, R442). -/
def toCars (t : Time) (o : CapObj) (c : Chip) : Chip :=
  if isStandby c then c
  else if c.flag F.CAP_CTL_XPATH then
    ringWrite t (c.rd F.CAP_XCFG_XRING) (bytesLE 1 0x82 ++ bytesLE 1 (if o.words.length = 4 then 3 else 4)
      ++ bytesLE 1 o.kind ++ bytesLE 1 o.away.toNat ++ bytesLE 4 0 ++ o.words.flatMap (bytesLE 4)) c
  else modCap (fun p => { p with outbox := p.outbox ++ [o] }) c

/-- The contexts of other W480s on the shelf link (R309). -/
def peers (c : Chip) : List Nat :=
  (List.range 256).filter fun i => let x := ctx c i; x.state == ctxACTIVE && x.path == 1 && x.pclass == 4

/-- An object goes to every W480 on the shelf link in a C2 frame. -/
def toPeers (t : Time) (ty : Nat) (words : List Nat) (c : Chip) : Chip :=
  if isStandby c then c else c.forAll (peers c) fun i => sendTo t i 2 ty words

/-- The context of the shelf that is car head, where its reports have been seen (R164). -/
def headCtx (c : Chip) : Option Nat := (carHeadShelf c).bind fun s => (Tab.get {} c.cap.shelves s).ctx

/-- An object goes to the car head in a C2 frame: to its context, or while it is not known to every W480 on the shelf link
(R149, R286). -/
def toHead (t : Time) (ty : Nat) (words : List Nat) (c : Chip) : Chip :=
  match headCtx c with
  | some i => if isStandby c then c else sendTo t i 2 ty words c
  | none => toPeers t ty words c

/-- The object has come from the car head, for the trunk ports of this shelf (R149). -/
def fromHead (c : Chip) (via : Option Via) : Bool :=
  !isCarHead c && (headCtx c).isSome && via == (headCtx c).map Via.link

/-- The words of a grant (R148). -/
def grantWords (c : Chip) (addr level budget seq angle : Nat) (time : Nat) : List Nat :=
  [addr, budget % 2 ^ 24 + level * 2 ^ 24, seq % 65536 + angle % 65536 * 65536, time % 2 ^ 32, time / 2 ^ 32 % 2 ^ 32, c.rdR R.CAP_ID_LO]

/-- The words of a report (R148). -/
def reportWords (addr level : Nat) (p : Int) (fb above hold carhc : Bool) (floor mx want seq : Nat) : List Nat :=
  [addr, ofInt 24 p + level * 2 ^ 24 + fb.toNat * 2 ^ 27 + above.toNat * 2 ^ 28 + hold.toNat * 2 ^ 29 + carhc.toNat * 2 ^ 30,
   floor % 2 ^ 24, mx % 2 ^ 24, want % 2 ^ 24, seq % 65536]

/-- The first stamp at or after `s` whose angle is `a` (R158). -/
def nextAtAngle (s : Stamp) (a : Nat) : Stamp :=
  BitVec.ofNat 48 ((s.cycle + (decide (a < s.angle)).toNat) * 65536 + a % 65536)

/-- The effective point of a grant, and whether it has passed (R158, R159). -/
def grantPoint (t : Time) (angle time : Nat) (c : Chip) : Stamp × Bool :=
  if c.flag F.ANG_STAT_NSDISC then
    let p := nextAtAngle (stampOfNs t c time) angle
    if t.stamp.later p then (nextAtAngle t.stamp angle, true) else (p, false)
  else (nextAtAngle (t.stamp + BitVec.ofNat 48 (msBins c (c.rd F.CAP_TIM_LEAD))) angle, false)

/-- The figures of a child for the division; without a report for 4 × REPPER its floor counts for all three (R151). -/
def childShare (c : Chip) (j : Nat) (x : CapChild) : Share :=
  let st := c.flag (F.CAP_CHj_REP_STALE j)
  ⟨x.floor, if st then x.floor else c.rd (F.CAP_CHj_REP_WANT j), if st then x.floor else x.max,
   c.rd (F.CAP_CHj_PW_PRIO j), c.rd (F.CAP_CHj_PW_WEIGHT j)⟩

/-- The budget of a child's last grant, in 10 W. -/
def CapChild.granted (x : CapChild) : Option Nat := if x.words.isEmpty then none else some (x.words.getD 1 0 % 2 ^ 24)

/-- A division of a head's budget among its children of a level: grants with an effective point, sent to each (R151,
R159). The head's own shelf or car takes its grant directly. `anew`: every child is granted its share with the point, as an
accepted grant asks (R159); else only a child whose share has changed is granted it, and the others keep the grant in force
with its SEQ (R150). -/
def headDivide (t : Time) (level G angle time : Nat) (anew : Bool) (own : List Nat → Chip → Chip) (c : Chip) : Chip :=
  let ch := c.cap.children.filter fun e => e.2.used && e.2.level == level
  let (g, _, bad) := divideBudget (ch.map fun e => childShare c e.1 e.2) G (c.flag F.CAP_CTL_SPARE)
  let c := floorCheck t (level + 1) (if level = 1 then carAddr c else 0) bad c
  let out := (ch.zip g).filter fun x => anew || x.1.2.granted != some x.2
  let c := if out.isEmpty then c else modCap (fun p => { p with grSeq := (p.grSeq + 1) % 65536 }) c
  out.foldl (fun c x =>
    let j := x.1.1
    let w := grantWords c x.1.2.addr level x.2 c.cap.grSeq angle time
    let c := modCap (fun p => { p with children := Tab.upd {} p.children j fun y => { y with words := w } }) c
    match x.1.2.ctx with
    | some i => if isStandby c then c else sendTo t i 2 0x30 w c
    | none => if level ≠ 3 ∧ x.1.2.addr = (if level = 1 then shelfAddr c else carAddr c) then own w c
              else toCars t { kind := 1, words := w, away := true, from_ := none, dest := x.1.2.via } c) c

/-- The grants of a head's children that have reached their point are in force: CAP_CHj_GR, and the cap in the entry of a
shelf or of a parked train (R158, R170); a sub-range of a car has no entry. -/
def childrenEffective (t : Time) (c : Chip) : Chip :=
  c.forAll c.cap.children fun e c =>
    let w := fun i => e.2.words.getD i 0
    match e.2.granted with
    | none => c
    | some g =>
      if c.rd (F.CAP_CHj_GR_GRANT e.1) = g ∨ !t.stamp.reached (nextAtAngle (stampOfNs t c (w 3 + 2 ^ 32 * w 4)) (w 2 / 65536)) then c
      else
        let c := c.wr (F.CAP_CHj_GR_GRANT e.1) g
        if e.2.level = 2 then c else entryCap t (e.2.addr + 63 * 1024 + 1023) (g * 10) 0xFF (c.rd (F.CAP_CHj_PW_PRIO e.1)) c

/-- The nanosecond time of grants issued now: present time plus LEAD (R159). -/
def leadTime (t : Time) (c : Chip) : Nat := t.ns.toNat + c.rd F.CAP_TIM_LEAD * 1000000

/-- A grant is pending for its level: it replaces one of its head with a later point, and every one of a former head
(R172). -/
def setPending (level budget : Nat) (point : Stamp) (head : Nat) (c : Chip) : Chip :=
  let c := modCap (fun p => { p with
    pend := (p.pend.filter fun g => !(g.level == level && (g.point.reached point || g.head != head))) ++ [⟨level, budget, point, head⟩] }) c
  if level = 1 then (c.wrB F.CAP_GPEND_VALID true).wr F.CAP_GPEND_BUDGET budget else c

/-- Where the last SEQ from the sending head is kept: by level and head; for a shelf its head is the shelf that is car
head (R150). -/
def seqKey (c : Chip) (level head : Nat) : Nat := level * 2 ^ 32 + (if level = 1 then (carHeadShelf c).getD 16 else head)

/-- The SEQ of a grant is later than the last accepted from its head (R150). -/
def seqFresh (c : Chip) (level : Nat) (words : List Nat) : Bool :=
  match Tab.get none c.cap.seqIn (seqKey c level (words.getD 5 0)) with
  | none => true
  | some s => later16 (words.getD 2 0 % 65536) s

/-- A grant of a level is accepted by its SEQ, and is pending until its point (R150, R158). -/
def takeGrant (t : Time) (level : Nat) (words : List Nat) (c : Chip) : Chip × Bool :=
  let w := fun i => words.getD i 0
  let seq := w 2 % 65536
  let key := seqKey c level (w 5)
  if seqFresh c level words then
    let (point, late) := grantPoint t (w 2 / 65536) (w 3 + 2 ^ 32 * w 4) c
    let c := modCap (fun p => { p with seqIn := Tab.set none p.seqIn key (some seq), lostEp := setBit p.lostEp level false, gotAt := Tab.set 0 p.gotAt level t.tick }) c
    let c := if late then raise t 0x08 0x04 (w 0) c else c
    (setPending level (w 1 % 2 ^ 24) point key c, true)
  else
    (if Tab.get none c.cap.seqIn key = some seq then modCap (fun p => { p with gotAt := Tab.set 0 p.gotAt level t.tick, lostEp := setBit p.lostEp level false }) c else c, false)

/-! ### Car numbers and roles (R20, R164–R167) -/

/-- A change of head role or number: ROLE and kind 0x40 (R174). -/
def roleChange (t : Time) (c : Chip) : Chip := raise t 0x08 0x40 (c.rdR R.CAP_ID_LO) (irq t 0x10 3 c)

/-- The unit-table entries of two cars are exchanged; no entry is copied (R170). -/
def swapCars (a b : Nat) (u : Tab Word) : Tab Word :=
  (List.range 16).foldl (fun (u : Tab Word) s =>
    let x := Tab.get 0 u (a * 16 + s)
    Tab.set 0 (Tab.set 0 u (a * 16 + s) (Tab.get 0 u (b * 16 + s))) (b * 16 + s) x) u

/-- Child `j` is known by another address from now on. -/
def readdress (j addr : Nat) (c : Chip) : Chip :=
  modCap (fun p => { p with children := Tab.upd {} p.children j fun y => { y with addr := addr, words := [] } }) (c.wrR (R.CAP_CHj_ID j) addr)

/-- Child `j` is no child any more. -/
def dropChild (j : Nat) (c : Chip) : Chip :=
  modCap (fun p => { p with children := Tab.set {} p.children j {}, headDue := true })
    ((((c.wrR (R.CAP_CHj_ID j) 0).wr (F.CAP_CHj_REP_WANT j) 0).wrB (F.CAP_CHj_REP_STALE j) false).wr (F.CAP_CHj_GR_GRANT j) 0)

/-- The children of a level that this chip divides for no longer are dropped. -/
def keepChildren (c : Chip) : Chip :=
  c.forAll ((c.cap.children.filter fun e => e.2.used && !((e.2.level == 1 && isCarHead c)
      || (e.2.level == 2 && isConHead c && !c.flag F.CAP_CTL_DEPOT) || (e.2.level == 3 && c.flag F.CAP_CTL_DEPOT))).map Prod.fst) dropChild

/-- CAR_RENUMBER: the record, the number, and the old one to be refused from now on (R20). `given`: a consist head gives it
(R19). -/
def renumber (t : Time) (n : Nat) (given : Bool) (c : Chip) : Chip :=
  let old := c.rd F.CAP_CAR_CAR
  let c := c.wrB F.CAP_NUM_NUMBERED given
  if old = n then c
  else
    let c := recWrite t (evRing c) 0x08 0x08 (selfAddr c) t.stamps
      (bytesLE 1 old ++ bytesLE 1 n ++ bytesLE 6 0 ++ bytesLE 8 (carId c)) c
    let c := modCap (fun p => { p with
      oldCars := (old :: p.oldCars.filter (· != old)).filter (· != n), units := swapCars old n p.units, unitsSh := swapCars old n p.unitsSh }) c
    let c := c.forAll (c.cap.children.filter fun e => e.2.level == 1) fun e =>
      readdress e.1 (e.2.addr % 2 ^ 20 + n * 2 ^ 20)
    let c := { c with ctxs := c.ctxs.map fun (e : Nat × Ctx) => (e.1, { e.2 with base := e.2.base % 2 ^ 20 + n * 2 ^ 20 }) }
    roleChange t (c.wr F.CAP_CAR_CAR n)

/-- This car head's election object (R165). -/
def electWords (c : Chip) : List Nat :=
  [c.rdR R.CAP_ID_LO, c.rdR R.CAP_ID_HI, c.rd F.CAP_CTL_CPRIO + c.rd F.CAP_CTL_CHC * 16 + c.rd F.CAP_CAR_CAR * 256
     + c.rd F.CAP_NUM_CONHEAD * 65536, c.cap.elSeq % 65536]

/-- A car head sends its election object (R165); a depot takes no part (R167). -/
def sendElect (t : Time) (c : Chip) : Chip :=
  if isCarHead c && !c.flag F.CAP_CTL_DEPOT then
    let c := modCap (fun p => { p with elSeq := (p.elSeq + 1) % 65536 }) c
    toCars t { kind := 3, words := electWords c, away := false, from_ := none } c
  else c

/-- The time after which a car head or candidate that is not heard counts as gone, in ticks (R161, R164). -/
def grantTo (c : Chip) : Nat := c.rd F.CAP_TIM_GRANTTO * 40000000

/-- The fallback budget comes in with no grant lost: FB (R161, R164, R165, R175). -/
def fallBack (t : Time) (level : Nat) (c : Chip) : Chip :=
  if bit c.cap.lost level then c
  else irq t 0x10 1 (modCap (fun p => { p with lost := setBit p.lost level true, due := true, headDue := true }) c)

/-- The head roles follow the candidates; a new car head says so to the others (R165). Without any, kind 0x40 once and the
fallback budget (R164). -/
def updateCarHead (t : Time) (c : Chip) : Chip :=
  let h := carHeadShelf c
  let me := h == some (c.rd F.CAP_NUM_SHELF)
  let was := isCarHead c
  let c := c.wrB F.CAP_NUM_CARHEAD me
  let c := if me == was then c else
    roleChange t (modCap (fun p => { p with elect := p.elect || me, electAt := t.tick, cars := p.cars.filter fun y => y.id != carId c }) c)
  let c := keepChildren (if me then c else c.wrB F.CAP_NUM_CONHEAD (isConHead c && c.flag F.CAP_CTL_DEPOT))
  let c := if me && !was then sendElect t c else c
  if h.isNone then
    if c.cap.noHeadEp then c
    else raise t 0x08 0x40 (c.rdR R.CAP_ID_LO) (fallBack t 1 (modCap (fun p => { p with noHeadEp := true }) c))
  else modCap (fun p => { p with noHeadEp := false }) c

/-- A shelf is seen as a candidate, or no longer (R164); candidates that have not been seen for GRANTTO go, but for the present
head, whose silence is CAR_HEAD_FAILOVER. -/
def seeShelf (t : Time) (shelf : Nat) (carhc : Bool) (ctx : Option Nat) (c : Chip) : Chip :=
  let head := carHeadShelf c
  let stays := fun (e : Nat × Seen) => e.1 != shelf && (some e.1 == head || decide (t.tick ≤ e.2.heard + grantTo c))
  let l := c.cap.shelves.filter stays
  updateCarHead t (modCap (fun p => { p with shelves := if carhc then Tab.insert l shelf ⟨t.tick, ctx⟩ else l }) c)

/-- CAR_HEAD_FAILOVER: the car head's reports have stopped; the next candidate that is seen takes the role at once (R164). -/
def carHeadFailover (t : Time) (c : Chip) : Chip :=
  match carHeadShelf c with
  | none => c
  | some s =>
    let heard := (c.cap.shelves.find? fun e => e.1 == s).elim 0 fun e => e.2.heard
    if !capOn c || s == c.rd F.CAP_NUM_SHELF || decide (t.tick < heard + grantTo c) then c
    else
      let c := modCap (fun p => { p with shelves := p.shelves.filter fun e => e.1 != s && decide (t.tick ≤ e.2.heard + grantTo c) }) c
      let was := isCarHead c
      let c := updateCarHead t c
      if isCarHead c == was then raise t 0x08 0x40 (c.rdR R.CAP_ID_LO) (irq t 0x10 3 c) else c

/-- A consist head stands: one of the car heads heard claims the role (R19, R165). -/
def claimed (c : Chip) : Bool := c.cap.cars.any CarHead.claim

/-- An election object, from a coupler port, the shelf link or the host (R165). A car head passes it on; a shelf puts what its
car head passes on out of its own trunk ports, and sees from it whether a consist head stands (R19). -/
def electObject (t : Time) (via : Option Via) (words : List Nat) (c : Chip) : Chip :=
  let w := fun i => words.getD i 0
  let id := w 0 + 2 ^ 32 * w 1
  let x : CarHead := ⟨id, w 2 % 16, bit (w 2) 4, bits (w 2) 12 8, bit (w 2) 16, w 3 % 65536, via, t.tick⟩
  let old := c.cap.cars.find? fun y => y.id == id
  let fresh := match old with | none => true | some y => later16 x.seq y.seq
  let note := modCap (fun p => { p with cars := (p.cars.filter fun y => y.id != id) ++ [x] })
  let pass := toCars t { kind := 3, words := words, away := false, from_ := via }
  if !capOn c || c.flag F.CAP_CTL_DEPOT || !fresh then c
  else if !isCarHead c then
    let c := note c
    let c := c.wrB F.CAP_NUM_NUMBERED (claimed c && (c.flag F.CAP_NUM_NUMBERED || (id == carId c && x.car == c.rd F.CAP_CAR_CAR)))
    if fromHead c via then pass c else c
  else if id == carId c then c
  else
    let changed := match old with | none => true | some y => y.chc != x.chc || y.prio != x.prio || y.car != x.car || y.claim != x.claim
    let newSet := old.isNone || (old.map CarHead.chc) != some x.chc || (old.map CarHead.prio) != some x.prio
    let c := modCap (fun p => { p with elect := p.elect || newSet, electAt := if newSet then t.tick else p.electAt }) (note c)
    let c := if via.isSome then pass c else c
    if changed then sendElect t c else c

/-- Cars leave: their objects come no more, and the set of reachable heads changes (R165, R166). -/
def carsGone (t : Time) (gone : CarHead → Bool) (c : Chip) : Chip :=
  if c.cap.cars.any gone then
    let c := modCap (fun p => { p with
      left := (p.cars.filter gone).foldl (fun l y => Tab.insert l y.id (t.tick + c.rd F.CTX_CTL_LINGER * 40000000)) p.left
      cars := p.cars.filter fun y => !gone y, elect := p.elect || isCarHead c, electAt := t.tick }) c
    sendElect t (if isCarHead c then c else c.wrB F.CAP_NUM_NUMBERED (c.flag F.CAP_NUM_NUMBERED && claimed c))
  else c

/-- A coupler port, or the context of another shelf, has lost its partner. -/
def carsLeft (t : Time) (way : Via) (c : Chip) : Chip := carsGone t (fun y => y.via == some way) c

/-- The cars that have not been heard for 4 × REPPER have left (R151, R165). -/
def carsSilent (t : Time) (c : Chip) : Chip := carsGone t (fun y => decide (y.heard + 4 * c.rd F.CAP_TIM_REPPER * 4000000 < t.tick)) c

/-- This car head as the election sees it, and the candidates, this car among them (R165). -/
def selfHead (c : Chip) : CarHead :=
  ⟨carId c, c.rd F.CAP_CTL_CPRIO, c.flag F.CAP_CTL_CHC, c.rd F.CAP_CAR_CAR, isConHead c, c.cap.elSeq, none, 0⟩
@[inherit_doc selfHead] def candidates (c : Chip) : List CarHead := (selfHead c :: c.cap.cars).filter CarHead.chc

/-- The winner: the highest priority, then the lowest identity (R165). -/
def winner (l : List CarHead) : Option CarHead :=
  l.foldl (fun b x => match b with
    | none => some x
    | some y => if y.prio < x.prio ∨ (x.prio = y.prio ∧ x.id < y.id) then some x else b) none

/-- The numbers that consist head `w` gives (R166), by identity, and whether a car is refused one: its own car 0, a member
with 0 the head's old number, the other members as before, and cars that join the lowest free, in the order of their
identities. The number of a car that has left stays taken for the linger time. -/
def numbering (t : Time) (w : CarHead) (c : Chip) : Tab Nat × Bool :=
  let known := fun (id : Nat) => c.cap.numbers.any fun e => e.1 == id
  let home := w.id == carId c || known w.id
  let all := selfHead c :: c.cap.cars
  let gone := c.cap.left.filter fun e => home && decide (t.tick < e.2) && known e.1 && !all.any fun y => y.id == e.1
  let base := gone.foldl (fun (a : Tab Nat) e => Tab.insert a e.1 (Tab.get 0 c.cap.numbers e.1)) [(w.id, 0)]
  let free := fun (a : Tab Nat) (n : Nat) => !a.any fun e => e.2 == n
  let rest := all.filter fun y => y.id != w.id
  let kept := rest.foldl (fun (a : Tab Nat) y =>
    let n := if y.car = 0 then w.car else y.car
    if (known y.id == home) && (home || y.id != carId c) && n != 0 && free a n then Tab.insert a y.id n else a) base
  (rest.foldl (fun (a : Tab Nat) y => Tab.insert a y.id y.car) []).foldl (fun (a : Tab Nat × Bool) e =>
    if a.1.any fun x => x.1 == e.1 then a
    else match ((List.range 31).map (· + 1)).find? (free a.1) with
      | some n => (Tab.insert a.1 e.1 n, a.2)
      | none => (a.1, true)) (kept, false)

/-- The children of a consist head follow the numbers of their cars; a car that has none any more is dropped (R166). -/
def followNumbers (tab : Tab Nat) (c : Chip) : Chip :=
  c.forAll (c.cap.children.filter fun e => e.2.used && e.2.level == 2) fun e =>
    match (selfHead c :: c.cap.cars).find? fun y => y.car == addrCar e.2.addr with
    | some y => match tab.find? fun x => x.1 == y.id with
      | some x => if x.2 = addrCar e.2.addr then id else readdress e.1 (x.2 * 2 ^ 20)
      | none => dropChild e.1
    | none => if tab.any fun x => x.2 == addrCar e.2.addr then id else dropChild e.1

/-- ELECTION_SETTLE: ELECTT has passed since the last change (R165, R166). The rules of R166 give every car head the same
numbers, so each applies them to its own car; without a consist head a car keeps its number, alone it is car 0 (R19). -/
def electSettle (t : Time) (c : Chip) : Chip :=
  if !capOn c || !isCarHead c || c.flag F.CAP_CTL_DEPOT || !c.cap.elect
      || decide (t.tick < c.cap.electAt + 4000000 * c.rd F.CAP_HEADT_ELECTT) then c
  else
    let c := modCap (fun p => { p with elect := false }) c
    match winner (candidates c) with
    | none =>
      let c := fallBack t 2 (modCap (fun p => { p with head := none }) (c.wrB F.CAP_NUM_CONHEAD false))
      let c := if c.cap.cars.isEmpty then renumber t 0 false c else c
      raise t 0x08 0x40 (c.rdR R.CAP_ID_LO) (irq t 0x10 3 (keepChildren (c.wrB F.CAP_NUM_NUMBERED false)))
    | some w =>
      let (tab, refused) := numbering t w c
      let was := isConHead c
      let place := (tab.find? fun e => e.1 == carId c).map Prod.snd
      let me := w.id == carId c || place.isNone
      let c := modCap (fun p => { p with
        head := some (if place.isNone then carId c else w.id), numbers := if place.isNone then [(carId c, 0)] else tab
        left := p.left.filter fun e => decide (t.tick < e.2) }) (c.wrB F.CAP_NUM_CONHEAD me)
      let c := if me then followNumbers tab c else c
      let c := if me == was then c else roleChange t (keepChildren c)
      let c := if refused && me then roleChange t c else c
      sendElect t (renumber t (place.getD 0) true c)

/-! ### Grants and reports in (R150, R151, R159) -/

/-- The shelf grant of the own car head is taken. -/
def takeShelfGrant (t : Time) (words : List Nat) (c : Chip) : Chip := (takeGrant t 1 words c).1

/-- A car head divides the car's budget among its shelves with a point (R159). -/
def carDivide (t : Time) (G angle time : Nat) (anew : Bool) (c : Chip) : Chip :=
  headDivide t 1 G angle time anew (takeShelfGrant t) c

/-- A car grant is taken by the car head: accepted by its SEQ and divided at once with the same point (R159). -/
def takeCarGrant (t : Time) (words : List Nat) (c : Chip) : Chip :=
  let (c, new) := takeGrant t 2 words c
  let w := fun i => words.getD i 0
  if new then carDivide t (w 1 % 2 ^ 24) (w 2 / 65536) (w 3 + 2 ^ 32 * w 4) true c else c

/-- A consist head divides: TOP, in a depot's supply min(TOP, depot grant) (R151). -/
def conDivide (t : Time) (G angle time : Nat) (anew : Bool) (c : Chip) : Chip :=
  headDivide t 2 (min G (c.rd F.CAP_TOP_TOP)) angle time anew (takeCarGrant t) c

/-- The depots that are partners of own ports, as in the HEAD of their grants (R167). -/
def depotsHere (c : Chip) : List Nat :=
  (c.ctxs.filter fun e => e.2.state == ctxACTIVE && e.2.path == 3 && bit e.2.data 79).map fun e => e.2.id % 2 ^ 32

/-- The sender of a grant is the head that the receiver has elected: for a shelf its car's head, for a car the consist head
(R150); for a train the depot at its port, or elsewhere in the train the one whose grant it has (R167). -/
def headMatches (c : Chip) (level head : Nat) : Bool :=
  if level = 1 then head == c.rdR R.CAP_ID_LO
  else if level = 2 then (c.cap.head.map (· % 2 ^ 32)) == some head
  else if (depotsHere c).isEmpty then c.cap.depot.all (· == head)
  else (depotsHere c).contains head

/-- GRANT_RECEIVE at the level of a shelf (R150): a later grant of the car head gives the car number too (R19, R166); what
names an old number otherwise is discarded (R20). -/
def shelfGrant (t : Time) (words : List Nat) (c : Chip) : Chip :=
  let a := words.getD 0 0
  let mine := addrShelf a == c.rd F.CAP_NUM_SHELF && headMatches c 1 (words.getD 5 0)
  if mine && !isCarHead c && seqFresh c 1 words then takeShelfGrant t words (renumber t (addrCar a) (claimed c) c)
  else if namesOldCar c a then discardOld c
  else if mine then takeShelfGrant t words c
  else c

/-- GRANT_RECEIVE: a grant object from a frame, a coupler port or the host (R150, R158, R159). A car head passes on what is
meant for other cars, and a shelf puts what its car head passes on out of its own trunk ports (R149). -/
def grantObject (t : Time) (via : Option Via) (words : List Nat) (c : Chip) : Chip :=
  let w := fun i => words.getD i 0
  let level := bits (w 1) 26 24
  let pass := toCars t { kind := 1, words := words, away := true, from_ := via }
  if !capOn c then c
  else if level = 1 then shelfGrant t words c
  else if c.flag F.CAP_CTL_DEPOT ∨ 4 ≤ level ∨ level = 0 then c
  else if !isCarHead c then (if fromHead c via then pass c else c)
  else if !headMatches c level (w 5) then c
  else if level = 2 then
    if w 0 = carAddr c then takeCarGrant t words c
    else if namesOldCar c (w 0) && !c.cap.cars.any fun y => y.car == addrCar (w 0) then discardOld c
    else if via.isSome then pass c else c
  else if isConHead c then
    let (c, new) := takeGrant t 3 words (modCap (fun p => { p with depot := some (w 5) }) c)
    if new then conDivide t (w 1 % 2 ^ 24) (w 2 / 65536) (w 3 + 2 ^ 32 * w 4) true c else c
  else if via.isSome then pass c else c

/-- The address under which a depot knows the train parked at a port: its depot car number, the lowest free one (R167). -/
def depotAddr (c : Chip) (via : Option Via) : Nat :=
  let here := c.cap.children.filter fun e => e.2.used && e.2.level == 3
  match here.find? fun e => e.2.via == via with
  | some e => e.2.addr
  | none => ((((List.range 31).map (· + 1)).find? fun n => !here.any fun e => e.2.addr == n * 2 ^ 20).getD 0) * 2 ^ 20

/-- The child with an address, or the lowest free place (R151). -/
def childOf (c : Chip) (addr level : Nat) : Option Nat :=
  match (List.range 32).find? fun j => let x := Tab.get {} c.cap.children j; x.used && x.addr == addr && x.level == level with
  | some j => some j
  | none => (List.range 32).find? fun j => !(Tab.get {} c.cap.children j).used

/-- CAP_REPORT_RECEIVE: a child's figures (R151), the car-head candidates (R164) and the registry (R170). A shelf of the own car
is known by its shelf number. A car head passes on the reports of cars and trains toward the consist head and the depot, and a
shelf puts what its car head passes on out of its own trunk ports (R149). -/
def reportObject (t : Time) (via : Option Via) (words : List Nat) (c : Chip) : Chip :=
  let w := fun i => words.getD i 0
  let level := bits (w 1) 26 24
  let shelf := addrShelf (w 0)
  let ctx := match via with | some (.link i) => if level = 1 then some i else none | _ => none
  if !capOn c then c
  else
    let c := if level = 1 ∧ shelf ≠ c.rd F.CAP_NUM_SHELF ∧ (bit (w 1) 30 ∨ c.cap.shelves.any fun e => e.1 == shelf) then
        seeShelf t shelf (bit (w 1) 30) ctx c
      else c
    let depot := c.flag F.CAP_CTL_DEPOT
    let mine := (level = 1 ∧ isCarHead c) ∨ (level = 2 ∧ isConHead c ∧ !depot) ∨ (level = 3 ∧ depot)
    let addr := if level = 3 then depotAddr c via else if level = 1 then carAddr c + shelf * 2 ^ 16 else w 0
    if !mine then
      (if 2 ≤ level ∧ !depot ∧ (if isCarHead c then via.isSome else fromHead c via) then
         toCars t { kind := 2, words := words, away := false, from_ := via } c
       else c)
    else match childOf c addr level with
      | none => c
      | some j =>
        let x : CapChild := { Tab.get {} c.cap.children j with
          addr := addr, level := level, used := true, floor := w 2 % 2 ^ 24, max := w 3 % 2 ^ 24, p := toInt 24 (w 1)
          seq := w 5 % 65536, lastAt := t.tick, ctx := ctx, via := if level = 3 then via else none }
        let c := modCap (fun p => { p with children := Tab.set {} p.children j x }) c
        let c := (((c.wrR (R.CAP_CHj_ID j) addr).wr (F.CAP_CHj_REP_WANT j) (w 4)).wrB (F.CAP_CHj_REP_STALE j) false)
        if level = 2 then c
        else
          let a := addr + 63 * 1024 + 1023
          entryMeas t a (toInt 24 (w 1) * 10) (w 5) (entryPrio t a (c.rd (F.CAP_CHj_PW_PRIO j)) (entryAttach t a 4 (ctx.getD 0xFF) false c))

/-- A context has begun to linger: its endpoints have no measured power, the cars that it led to have left, and CAP divides
again (R154, R157, R165). -/
def capDetached (t : Time) (i : Nat) (c : Chip) : Chip :=
  carsLeft t (.link i) (modCap (fun p => { p with due := true }) (dropMeasured (ctxModule (ctx c i)) c))

/-- A context is reclaimed: the child behind it is gone, and CAP divides again (R154, R167). -/
def capReclaimed (i : Nat) (c : Chip) : Chip :=
  let x := ctx c i
  let gone := (c.cap.children.filter fun e => e.2.used && (e.2.ctx == some i || e.2.via == some (.link i)
    || (x.path == 3 && e.2.via == some (.port (x.loc % 4))))).map Prod.fst
  modCap (fun p => { p with due := true }) (dropMeasured (ctxModule x) (c.forAll gone dropChild))

/-- The linger time of a context has ended: a partner of the shelf link is sent FORGET, the slot is reclaimed, its entries are
cleared (R306, R314). -/
def lingerEnds (t : Time) (i : Nat) (c : Chip) : Chip :=
  let x := ctx c i
  if x.state = ctxLINGER then entryClear (ctxModule x) (ctxReclaim t i (capReclaimed i (sendForget t i c))) else c

/-- A request for a context comes after the reclaims of its tick, but for that of its own identity, which reattaches (R317). -/
def reclaimDue (t : Time) (id : Nat) (c : Chip) : Chip :=
  c.forAll ((c.ctxs.filter fun e => e.2.state == ctxLINGER && decide (e.2.tEnd ≤ t.tick) && e.2.id != id).map Prod.fst) (lingerEnds t)

/-- HELLO is judged (R304, R305); the registry follows the context allocated (R170). -/
def helloTaken (t : Time) (f : RxFrame) (c : Chip) : Chip :=
  let w := fun i => f.words.getD i 0
  let asks := segCtl c f.seg && crcGood c f 1 0x23 && f.words.length == 6
  match helloReceived t f (if asks then reclaimDue t (w 0 + 2 ^ 32 * w 1) c else c) with
  | (c, some i) => regAttach t i c
  | (c, none) => c

/-! ### The report period (R150, R154) -/

/-- This shelf's report (R152). -/
def ownReport (c : Chip) : List Nat :=
  let pu := unbound c
  let ks := bindings c
  let fl := (ks.map fun k => (bindShare c k).floor).foldl (· + ·) pu
  let mx := (ks.map fun k => (bindShare c k).max).foldl (· + ·) pu
  reportWords (shelfAddr c) 1 (tens (shelfPower c)) (bit c.cap.lost 1) c.cap.above (busHolds c) (c.flag F.CAP_CTL_CARHC)
    fl mx (min mx (max fl (withHeadroom c (shelfPower c)))) c.cap.repSeq

/-- A head's report from its children: of its car to the consist head, of its train to a depot (R150, R152, R167). -/
def headReport (level addr : Nat) (c : Chip) : List Nat :=
  let ch := (c.cap.children.filter fun e => e.2.used && e.2.level == level - 1)
  let sum := fun (f : Nat × CapChild → Nat) => (ch.map f).foldl (· + ·) 0
  reportWords addr level ((ch.map fun e => e.2.p).foldl (· + ·) 0) (bit c.cap.lost level) c.cap.above (busHolds c) false
    (sum fun e => (childShare c e.1 e.2).floor) (sum fun e => (childShare c e.1 e.2).max)
    (sum fun e => (childShare c e.1 e.2).want) c.cap.repSeq

/-- Over budget: the measured power above the divided budget and its margin (R161). -/
def overNow (c : Chip) : Bool :=
  decide ((c.rd F.CAP_GRANT_BUDGET * (100 + c.rd F.CAP_HEADT_OVRMARG) * 10 : Nat) < 100 * shelfPower c)

/-- The budget that a head divides from the point of its next grants on: that of a grant pending by then, else the one in
force (R151, R159). Without one a car head has FALLBACK, the consist head TOP (R161). -/
def headBudget (t : Time) (level : Nat) (c : Chip) : Nat :=
  let p := nextAtAngle (stampOfNs t c (leadTime t c)) 0
  let alone := if level = 2 then c.rd F.CAP_FB_FALLBACK else c.rd F.CAP_TOP_TOP
  match (c.cap.pend.filter fun g => g.level == level && p.reached g.point).getLast? with
  | some g => g.budget
  | none => if bit c.cap.lost level then alone else (Tab.get none c.cap.grants level).getD alone

/-- A head divides again (R154): a depot among its trains, a consist head among its cars, a car head among its shelves. -/
def headsDivide (t : Time) (c : Chip) : Chip :=
  let c := modCap (fun p => { p with headDue := false }) c
  if c.flag F.CAP_CTL_DEPOT then headDivide t 3 (c.rd F.CAP_TOP_TOP) 0 (leadTime t c) false (fun _ c => c) c
  else if isConHead c then conDivide t (headBudget t 3 c) 0 (leadTime t c) false c
  else if isCarHead c then carDivide t (headBudget t 2 c) 0 (leadTime t c) false c
  else c

/-- A depot feeds this train: one is the partner of a port, or its grant has come (R151, R167). -/
def depotFed (c : Chip) : Bool :=
  (Tab.get none c.cap.grants 3).isSome || (ctxFind c fun _ x => x.state == ctxACTIVE && x.path == 3 && bit x.data 79).isSome

/-- CAP_REPORT_PERIOD (R150): means, registry, reports, grants and module caps again, a new division. -/
def reportPeriod (t : Time) (c : Chip) : Chip :=
  if !capOn c || decide (t.tick < c.cap.repAt + 4000000 * c.rd F.CAP_TIM_REPPER) then c
  else
    let fresh := (c.cap.acc.filter fun e => e.2.2 != 0).map Prod.fst
    let c := regOwn t (closeMeans (carsSilent t c))
    let c := c.forAll fresh fun k c =>
      let a := ownAddr c (k / 1024) (k % 1024)
      if entryPresent c a then entryMeas t a (Tab.get 0 c.cap.meas k) c.cap.repSeq c else c
    let c := entryMeas t (ownAddr c 63 1023) (shelfPower c) c.cap.repSeq c
    let c := c.wr F.CAP_PSHELF_P (ofInt 24 (tens (shelfPower c)))
    let c := c.forAll (List.range 32) fun k => fun c => c.wrI (F.CAP_CBk_STAT_MEAS k) (clampI (-32768) 32767 (tens (bindPower c k)))
    let c := modCap (fun p => { p with repSeq := (p.repSeq + 1) % 65536, repAt := t.tick, overAt := sinceTick t (overNow c) p.overAt, above := p.above && overNow c, due := true }) c
    let stale := (c.cap.children.filter fun e => e.2.used && decide (e.2.lastAt + 4 * c.rd F.CAP_TIM_REPPER * 4000000 < t.tick)).map Prod.fst
    let c := childrenEffective t (c.forAll stale fun j c => c.wrB (F.CAP_CHj_REP_STALE j) true)
    -- reports
    let c := toPeers t 0x31 (ownReport c) c
    let c := if isCarHead c then reportObject t none (ownReport c) c else c
    let c := if isCarHead c && !c.flag F.CAP_CTL_DEPOT then
        (if isConHead c then reportObject t none (headReport 2 (carAddr c) c) c
         else toCars t { kind := 2, words := headReport 2 (carAddr c) c, away := false, from_ := none } c) else c
    let c := if isConHead c && !c.flag F.CAP_CTL_DEPOT && depotFed c then
        toCars t { kind := 2, words := headReport 3 0 c, away := false, from_ := none } c else c
    let c := sendElect t c
    -- grants in force once more, with their SEQ unchanged
    let c := c.forAll (c.cap.children.filter fun e => e.2.used && !e.2.words.isEmpty) fun e c =>
      match e.2.ctx with
      | some i => if isStandby c then c else sendTo t i 2 0x30 e.2.words c
      | none => if e.2.level ≠ 3 ∧ (e.2.addr = shelfAddr c ∨ e.2.addr = carAddr c) then c
                else toCars t { kind := 1, words := e.2.words, away := true, from_ := none, dest := e.2.via } c
    let c := headsDivide t c
    -- module caps again
    c.forAll ((bindings c).filter fun k => c.rd (F.CAP_CBk_CFG_ACT k) == 2) fun k => fun c => sendModuleCap t k (c.rd (F.CAP_CBk_STAT_CAP k)) c

/-- GRANT_EFFECTIVE: the pending grant of a level has reached its point; with level 0, the division that a cycle start brings
(R154, R158). -/
def grantEffective (t : Time) (level : Nat) (c : Chip) : Chip :=
  if !capOn c then c
  else if level = 0 then
    if c.ang.cycAt != some t.tick then c else
    let c := childrenEffective t (if c.cap.headDue then headsDivide t c else c)
    let c := if c.cap.due || shelfBudget c != (c.rd F.CAP_GRANT_BUDGET, c.flag F.CAP_GRANT_PHB) then shelfDivide t c else c
    modCap (fun p => { p with overAt := sinceTick t (overNow c) p.overAt }) c
  else match (c.cap.pend.filter fun g => g.level == level && t.stamp.reached g.point).getLast? with
    | none => c
    | some g =>
      let c := childrenEffective t c
      let c := modCap (fun p => { p with
        pend := p.pend.filter fun x => !(x.level == level && t.stamp.reached x.point), grants := Tab.set none p.grants level (some g.budget), lost := setBit p.lost level false }) c
      if level = 1 then
        let next := c.cap.pend.find? fun g => g.level == 1
        let c := shelfDivide t ((c.wrB F.CAP_GPEND_VALID next.isSome).wr F.CAP_GPEND_BUDGET ((next.map CapGrant.budget).getD 0))
        modCap (fun p => { p with overAt := sinceTick t (overNow c) p.overAt }) c
      else c

/-- The grants whose point is reached take effect, as caps changes at angle (R32, step 1). -/
def dueGrants (t : Time) (c : Chip) : Chip :=
  c.forAll ((c.cap.pend.filter fun g => t.stamp.reached g.point).map CapGrant.level).eraseDups (grantEffective t)

/-- GRANT_LOST of a level: no grant for GRANTTO (R161). -/
def grantLost (t : Time) (level : Nat) (c : Chip) : Chip :=
  if capOn c && decide (Tab.get 0 c.cap.gotAt level + grantTo c ≤ t.tick) && decide (1 ≤ level) && decide (level ≤ 3) && (level == 1 || (level == 2 && isCarHead c) || (level == 3 && isConHead c && (Tab.get none c.cap.grants 3).isSome)) then
    let was := bit c.cap.lostEp level
    let c := modCap (fun p => { p with
      depot := if level = 3 then none else p.depot, headDue := p.headDue || level != 1, lost := setBit p.lost level true, lostEp := setBit p.lostEp level true, due := true }) c
    if was then c else irq t 0x10 1 (raise t 0x08 0x04 (if level = 1 then shelfAddr c else carAddr c) c)
  else c

/-- OVER_BUDGET: the measured power has stayed above for OVRT (R161). -/
def overBudget (t : Time) (c : Chip) : Chip :=
  if capOn c && heldFor t (4000000 * c.rd F.CAP_HEADT_OVRT) c.cap.overAt && overNow c && !c.cap.above then
    irq t 0x10 2 (raise t 0x08 0x08 (shelfAddr c) (modCap (fun p => { p with above := true }) (c.wr F.CAP_SHEDCFG_NEXT 0)))
  else c

/-- The channel of shedding step `i`. -/
def shedChannel (c : Chip) (i : Nat) : Nat :=
  if i < 8 then bits (c.rdR R.CAP_SHED0) (4 * i + 3) (4 * i) else bits (c.rdR R.CAP_SHED1) (4 * (i - 8) + 3) (4 * (i - 8))

/-- CAP_SHED_STEP (R161): once per OVRT the next listed channel is switched off, never one of the safety set; not once the shelf is
no longer over budget (R172). -/
def shedStep (t : Time) (c : Chip) : Chip :=
  let i := c.rd F.CAP_SHEDCFG_NEXT
  if capOn c && c.flag F.CAP_CTL_SHEDEN && c.cap.above && overNow c && decide (i < c.rd F.CAP_SHEDCFG_N) && !isStandby c
      && (i == 0 || decide (c.cap.shedAt + 4000000 * c.rd F.CAP_HEADT_OVRT ≤ t.tick)) then
    let n := shedChannel c i
    let c := modCap (fun p => { p with shedAt := t.tick }) (c.wr F.CAP_SHEDCFG_NEXT (i + 1))
    if inSafeSet c n then c else efSwitch t (2 ^ n) false c
  else c

/-! ### Load intents (R162, R163) -/

/-- A route contains an endpoint of this shelf. -/
def routeHas (c : Chip) (k a : Nat) : Bool :=
  c.flag (F.CAP_IRk_A_EN k) && (match c.rd (F.CAP_IRk_A_FIX k) with
    | 0 => true
    | 1 => c.rd (F.CAP_IRk_A_MODULE k) == addrModule a
    | 2 => c.rd (F.CAP_IRk_A_MODULE k) == addrModule a && c.rd (F.CAP_IRk_A_ELEMENT k) == addrElement a
    | _ => false)

/-- The registers and the record of a judged intent (R163, R333). -/
def intentResult (t : Time) (origin res : Nat) (dp dpb : Int) (due : Stamp) (routes : Nat) (record : Bool) (c : Chip) : Chip :=
  let c := ((c.wr F.CAP_LISTAT_RES res).wr F.CAP_LISTAT_ROUTES routes).wrI F.CAP_LIRES_DPB (tens dpb)
  if record then
    recWrite t (evRing c) 0x06 0x08 (selfAddr c) t.stamps (bytesLE 1 origin ++ bytesLE 1 res ++ bytesLE 2 0
      ++ bytesLE 4 (ofInt 32 dp) ++ bytesLE 4 (ofInt 32 dpb) ++ bytesLE 6 due.toNat ++ bytesLE 6 0) c
  else c

/-- A load intent of an origin: 0 host, 1 module, 2 coupler (R162, R163). -/
def loadIntent (t : Time) (origin a : Nat) (dp : Int) (due : Stamp) (c : Chip) : Chip :=
  let refused := fun (c : Chip) => raise t 0x08 0x10 a (irq t 0x10 4 c)
  if !capOn c then c
  else if !inShelf c a then
    let c := if namesOldCar c a then discardOld c else c
    refused (intentResult t origin 3 dp 0 due 0 false c)
  else if !entryPresent c a || reservedElement c a then
    let c := if (entryAt c a).isNone then raise t 0x08 0x20 a (irq t 0x10 5 c) else c
    refused (raise t 0x08 0x01 a (intentResult t origin 2 dp 0 due 0 false c))
  else
    let room := max 0 (headroom c a due)
    let bounded := decide (0 < dp) && decide (room < dp)
    let dpb := if bounded then room else dp
    let routes := (List.range 8).filter fun k => routeHas c k a
    let mask := routes.foldl (fun m k => m + 2 ^ k) 0
    let res := if bounded then 1 else if routes.isEmpty then 4 else 0
    let c := intentResult t origin res dp dpb due mask true c
    let c := if bounded then refused c else c
    let c := batIntent t due c
    c.forAll routes fun k => postIntent t
      { slot := c.rd (F.CAP_IRk_A_SLOT k), delta := stepWord dpb (c.rd (F.CAP_IRk_B_PBASE k)), due := due, ep := a, watts := dpb
        base := c.rd (F.CAP_IRk_B_PBASE k) }

/-- LOAD_INTENT_POST: a write of CAP_LIOP with POST (R162). -/
def intentPost (t : Time) (v : Nat) (c : Chip) : Chip :=
  if bit v 0 then
    let due := if bit v 1 then stampOfNs t c (c.rdR R.CAP_LIT0 + 2 ^ 32 * c.rdR R.CAP_LIT1)
               else BitVec.ofNat 48 (c.rdR R.CAP_LIT0 * 65536 + c.rdR R.CAP_LIT1 % 65536)
    loadIntent t 0 (c.rdR R.CAP_LIEP) (toInt 32 (c.rdR R.CAP_LIP)) due c
  else c

/-! ### The host mailbox, commits (R149, R174) -/

/-- The words of CAP_XIN0–CAP_XIN5. -/
def xinWords (c : Chip) (n : Nat) : List Nat := (List.range n).map fun i => c.rdR ⟨0x100c8 + 4 * i, 0⟩

/-- A write of CAP_XINOP delivers the object by its kind (R149); with XPATH = 0 it has no effect. -/
def xinDeliver (t : Time) (kind : Nat) (c : Chip) : Chip :=
  if !c.flag F.CAP_CTL_XPATH then c
  else match kind with
    | 1 => grantObject t none (xinWords c 6) c
    | 2 => reportObject t none (xinWords c 6) c
    | 3 => electObject t none (xinWords c 4) c
    | _ => c

/-- CAP_RUDAT is a window on the unit table at IDX: its word in the active or the shadow table (R168). -/
def unitWrite (v : Nat) (c : Chip) : Chip :=
  modCap (fun p => { p with unitsSh := Tab.set 0 p.unitsSh (c.rd F.CAP_RUIDX_IDX) (BitVec.ofNat 32 (v &&& 0x80000FFF)) }) c

/-- What a commit of CAP is refused for (R22, R155, R175), in order of offset. -/
def judgeCap (c : Chip) : Option Nat :=
  let on := (List.range 32).filter fun k => c.flag (F.CAP_CBk_CFG_EN k)
  let act := fun k => c.rd (F.CAP_CBk_CFG_ACT k)
  let reached := fun k path => (ctxFind c fun _ x => x.state != ctxFREE && x.path == path && ctxModule x == addrModule (bindAddr c k)).isSome
  if c.rdR R.CAP_RBASE_LO % 2 ^ 20 ≠ 0 then some 0x78
  else match (List.range 8).find? fun k => c.flag (F.CAP_IRk_A_EN k) && (c.rd (F.CAP_IRk_A_FIX k) == 3 || c.rd (F.CAP_IRk_B_PBASE k) == 0) with
    | some k => some (if c.rd (F.CAP_IRk_A_FIX k) = 3 then 0x100 + 8 * k else 0x104 + 8 * k)
    | none => on.findSome? fun k =>
      let a := bindAddr c k
      if on.any fun j => decide (j < k) && bindAddr c j == a then some (0x200 + 0x10 * k)
      else if inShelf c a ∧ reservedElement c a then some (0x200 + 0x10 * k)
      else if act k = 3 ∧ !(inShelf c a && addrModule a == 62 && decide (addrElement a ≤ 15)) then some (0x200 + 0x10 * k)
      else if (act k = 2 ∧ !reached k 1) ∨ (act k = 4 ∧ !reached k 2) then some (0x200 + 0x10 * k)
      else if 5 ≤ act k ∨ ((act k = 1 ∨ act k = 3) ∧ c.rd (F.CAP_CBk_CFG_PARAM k) = 0) then some (0x204 + 0x10 * k)
      else if c.rd (F.CAP_CBk_LIM_CMAX k) < c.rd (F.CAP_CBk_LIM_FLOOR k) then some (0x208 + 0x10 * k)
      else none

/-- After a commit of CAP: the unit table, the own entries, roles and a new division at the next cycle start (R154). -/
def capCommitted (t : Time) (c : Chip) : Chip :=
  let c := modCap (fun p => { p with units := p.unitsSh, due := true, headDue := true }) c
  let c := c.wr F.CAP_RSTAT_UNITS (c.cap.units.filter fun e => bit e.2.toNat 31).length
  let c := c.forAll ((List.range 32).filter fun k => !(c.flag (F.CAP_CBk_CFG_EN k) && c.rd (F.CAP_CBk_CFG_ACT k) == 1)) fun k =>
    setRef (0x40 + k) (2 ^ 31 - 1)
  let c := regOwn t c
  if capOn c then
    let c := keepChildren (updateCarHead t (if c.flag F.CAP_CTL_DEPOT then c.wrB F.CAP_NUM_CONHEAD true else c))
    if isCarHead c then sendElect t (modCap (fun p => { p with elect := true, electAt := t.tick }) c) else c
  else c

end Sys2Proof.Machine
end

