-- ==== Sys2Proof/Machine/Wires.lean ====
section
/-! DEFINITION. CPT, wires and packets: windows, attach, wire test, chatter, and the contract wire (R226–R259). What the
policy does when a port attaches or detaches, and when a packet ends, stands in the policy's file. -/

namespace Sys2Proof.Machine

/-! ### Access -/

/-- The hidden state of port `p`. -/
def port (c : Chip) (p : Nat) : Port := Tab.get {} c.cpt.ports p

/-- The hidden state of port `p` changes by `f`. -/
def modPort (p : Nat) (f : Port → Port) (c : Chip) : Chip :=
  { c with cpt := { c.cpt with ports := Tab.upd {} c.cpt.ports p f } }

/-- CPT runs; port `p` is enabled in it. -/
def cptOn (c : Chip) : Bool := c.blockOn 0x13 && c.flag F.CPT_CTL_EN
@[inherit_doc cptOn] def portOn (c : Chip) (p : Nat) : Bool := cptOn c && c.flag (F.CPp_CFG_EN p)

/-- The attach states of R232. -/
def atDISABLED : Nat := 0
@[inherit_doc atDISABLED] def atUNATTSRC : Nat := 1
@[inherit_doc atDISABLED] def atUNATTSNK : Nat := 2
@[inherit_doc atDISABLED] def atTOGGLE : Nat := 3
@[inherit_doc atDISABLED] def atWAITSRC : Nat := 4
@[inherit_doc atDISABLED] def atWAITSNK : Nat := 5
@[inherit_doc atDISABLED] def atATTSRC : Nat := 6
@[inherit_doc atDISABLED] def atATTSNK : Nat := 7
@[inherit_doc atDISABLED] def atFAULT : Nat := 8

/-- The attach state of a port. -/
def att (c : Chip) (p : Nat) : Nat := c.rd (F.CPp_STAT_ATT p)

/-- The port is attached. -/
def attached (c : Chip) (p : Nat) : Bool := att c p == atATTSRC || att c p == atATTSNK

/-- The windows of R230. -/
def winLOW : Nat := 0
@[inherit_doc winLOW] def winSINK : Nat := 1
@[inherit_doc winLOW] def winMARKER : Nat := 2
@[inherit_doc winLOW] def winOPEN : Nat := 3
@[inherit_doc winLOW] def winHIGH : Nat := 4

/-- The filtered windows of the role wire and the marker wire under the present mapping (R227). -/
def roleWin (c : Chip) (p : Nat) : Nat :=
  if c.flag (F.CPp_STAT_MAPPED p) then c.rd (F.CPp_STAT_WINB p) else c.rd (F.CPp_STAT_WINA p)
@[inherit_doc roleWin] def markerWin (c : Chip) (p : Nat) : Nat :=
  if c.flag (F.CPp_STAT_MAPPED p) then c.rd (F.CPp_STAT_WINA p) else c.rd (F.CPp_STAT_WINB p)

/-- The window of a level in mV, at the thresholds of CPT_WIN (R230). -/
def windowOf (c : Chip) (mv : Nat) : Nat :=
  if mv < 20 * c.rd F.CPT_WIN_LOWTOP then winLOW
  else if mv < 20 * c.rd F.CPT_WIN_SINKTOP then winSINK
  else if mv < 20 * c.rd F.CPT_WIN_MARKTOP then winMARKER
  else if mv < 20 * c.rd F.CPT_WIN_OPENTOP then winOPEN
  else winHIGH

/-! ### Terminations (R226–R228, R232, R239) -/

/-- What stands on a configuration wire. -/
inductive Termination where
  | none | source | sink | marker | test | bias
  deriving DecidableEq, Repr

/-- The role wire and the marker wire of a port in an attach state (R232); a step of the wire test has its own (R239). -/
def roleTerms (c : Chip) (p : Nat) (step : Option Nat) : Termination × Termination :=
  match step with
  | some 0 => (.test, .test)
  | some 1 => (.source, .bias)
  | some _ => (.bias, .source)
  | .none =>
    if att c p = atDISABLED then (.bias, .bias)
    else if att c p = atFAULT then (.sink, .marker)
    else (if (port c p).src then .source else .sink, .marker)

/-- CFGA and CFGB of a port whose bank is powered: the role wire is CFGA, or CFGB of a mapped port (R227). -/
def wireTerms (c : Chip) (p : Nat) (step : Option Nat) : Termination × Termination :=
  let (r, m) := roleTerms c p step
  if c.flag (F.CPp_STAT_MAPPED p) then (m, r) else (r, m)

/-- The step of a wire test that runs: three of 200 µs (R239). -/
def testStep (t : Time) (c : Chip) (p : Nat) : Option Nat :=
  if c.flag (F.CPp_DIAG_RUN p) && decide (t.tick - (port c p).testAt < 240000) then some ((t.tick - (port c p).testAt) / 80000)
  else none

/-! ### Attach (R233–R238) -/

/-- What the windows tell a port of a role (R233). -/
inductive Pattern where
  /-- Nothing to act on. -/
  | stay
  /-- A partner: the waiting state; `swapped` when the partner car is turned. -/
  | wait (swapped : Bool)
  /-- A swapped sink that has not mapped itself. -/
  | selfMap
  /-- A swapped source faces this source. -/
  | conflict
  /-- Unknown: the wire test runs. -/
  | test
  deriving DecidableEq, Repr

/-- The table of R233. -/
def pattern (src : Bool) (role marker : Nat) : Pattern :=
  if src then
    if role = winOPEN ∧ marker = winLOW then .stay
    else if role = winSINK ∧ marker = winLOW then .wait false
    else if role = winMARKER ∧ marker = winLOW then .selfMap
    else if role = winMARKER ∧ marker = winMARKER then .conflict
    else .test
  else if role = winLOW ∧ marker = winLOW then .stay
  else if role = winSINK ∧ marker = winLOW then .wait false
  else if role = winLOW ∧ marker = winMARKER then .wait true
  else .test

/-- What port `p` sees now. -/
def seen (c : Chip) (p : Nat) : Pattern := pattern (port c p).src (roleWin c p) (markerWin c p)

/-- The pattern that R233 sees fits a waiting state. -/
def fits (c : Chip) (p : Nat) : Bool := match seen c p with | .wait _ => true | _ => false

/-- A wire test starts (R239): not while the policy holds the port for a swap. -/
def testStart (t : Time) (p : Nat) (c : Chip) : Chip :=
  if c.flag (F.CPp_STAT_SWAPHOLD p) || c.flag (F.CPp_DIAG_RUN p) || att c p == atDISABLED || (port c p).leaving then c
  else modPort p (fun x => { x with testAt := t.tick }) (c.wrB (F.CPp_DIAG_RUN p) true)

/-- The time between two tests in ticks (R239): PROBEPER while the port is unattached or attached, with 0 none; a second in FAULT. -/
def testEvery (c : Chip) (p : Nat) : Option Nat :=
  if att c p = atFAULT then some 400000000
  else if c.rd F.CPT_CTL_PROBEPER ≠ 0 ∧ ([atUNATTSRC, atUNATTSNK, atTOGGLE].contains (att c p) ∨ attached c p) then
    some (c.rd F.CPT_CTL_PROBEPER * 40000000)
  else none

/-- The periodic test (R239). -/
def testPeriodic (t : Time) (p : Nat) (c : Chip) : Chip :=
  if portOn c p && (testEvery c p).any (fun d => decide ((port c p).testAt + d ≤ t.tick)) then testStart t p c else c

/-- A port that is unattached reads R233 and acts. -/
def attachJudge (t : Time) (p : Nat) (c : Chip) : Chip :=
  if !([atUNATTSRC, atUNATTSNK, atTOGGLE].contains (att c p)) then c
  else
    let src := (port c p).src
    match seen c p with
    | .stay => c
    | .wait swapped =>
      c.wr (F.CPp_STAT_ATT p) (if src then atWAITSRC else atWAITSNK) |> fun c =>
        if swapped then c.wrB (F.CPp_STAT_ORIENT p) true else c
    | .selfMap => c.wrB (F.CPp_STAT_ORIENT p) true
    | .conflict =>
      if c.flag (F.CPp_STAT_CONFLICT p) then c
      else raise t 0x0B 0x10 (p + 2 * 256) ((c.wrB (F.CPp_STAT_CONFLICT p) true).wrB (F.CPp_STAT_ORIENT p) true)
    | .test => testStart t p c

/-- The mapping is left: MAPPED and ORIENT clear, and CONFLICT with them (R234). -/
def unmap (p : Nat) (c : Chip) : Chip :=
  ((c.wrB (F.CPp_STAT_MAPPED p) false).wrB (F.CPp_STAT_ORIENT p) false).wrB (F.CPp_STAT_CONFLICT p) false

/-- The port enters DISABLED (R232, R234). -/
def enterDisabled (p : Nat) (c : Chip) : Chip := (unmap p c).wr (F.CPp_STAT_ATT p) atDISABLED

/-- The port enters its unattached state, or TOGGLE; mapping, orientation and conflict clear (R232, R234, R235). -/
def enterUnattached (t : Time) (p : Nat) (c : Chip) : Chip :=
  let role := c.rd (F.CPp_CFG_ROLE p)
  let c := modPort p (fun x => { x with src := role != 2, forced := false, leaving := false, unfit := false }) (unmap p c)
  attachJudge t p (c.wr (F.CPp_STAT_ATT p) (match role with | 1 => atUNATTSRC | 2 => atUNATTSNK | 3 => atTOGGLE | _ => atDISABLED))

/-- The packet layer of a port starts over (R253): queue, counters and what is under way. -/
def linkReset (p : Nat) (c : Chip) : Chip :=
  modPort p (fun x => { x with queue := [], sending := none, waiting := none, colls := 0, tries := 0, tx := 0, rx := none, ack := none
                               resp := [], deliver := none }) c

/-- The changes on the wires within CHATWIN (R237). -/
def recent (t : Time) (c : Chip) (l : List (Nat × Nat)) : List (Nat × Nat) :=
  l.filter fun x => decide (t.tick < x.2 + c.rd F.CPT_DB_CHATWIN * 4000000)

/-- The role of the terminations as an attached state. -/
def attOfRole (c : Chip) (p : Nat) : Nat := if (port c p).src then atATTSRC else atATTSNK

/-- SWAPHOLD is released: R233 under the role of the terminations. A fitting pattern gives the attached state of the role at
once; any other starts the detach debounce (R238). -/
def releaseHold (p : Nat) (c : Chip) : Chip :=
  let c := c.wrB (F.CPp_STAT_SWAPHOLD p) false
  if fits c p then c.wr (F.CPp_STAT_ATT p) (attOfRole c p) else modPort p (fun x => { x with unfit := true }) c

/-- A pattern that fits ends the detach debounce that a release of SWAPHOLD began (R238). -/
def fitAgain (p : Nat) (c : Chip) : Chip :=
  if attached c p && (port c p).unfit && fits c p then
    modPort p (fun x => { x with unfit := false }) (c.wr (F.CPp_STAT_ATT p) (attOfRole c p))
  else c

/-- WIRE_WINDOW_CHANGE: wire 0 CFGA, 1 CFGB, 2 CL has held a level in another window for 1 ms (R230, R231). The answer tells whether the port
left an attached state into FAULT by chatter. -/
def windowChange (t : Time) (p wire mv : Nat) (c : Chip) : Chip × Bool :=
  if !portOn c p || !bankUp c 2 then (c, false)
  else
    let win := windowOf c mv
    let f := match wire with | 0 => F.CPp_STAT_WINA p | 1 => F.CPp_STAT_WINB p | _ => F.CPp_STAT_WINCL p
    if c.rd f = win then (c, false)
    else
      let was := roleWin c p
      let wasM := markerWin c p
      let fitted := fits c p
      let c := modPort p (fun x => { x with changes := (wire, t.tick) :: recent t c x.changes
                                            clAt := if wire = 2 then t.tick else x.clAt }) (c.wr f win)
      let count := ((port c p).changes.filter fun x => x.1 == wire).length
      if c.rd F.CPT_DB_CHATCNT < count ∧ !c.flag (F.CPp_STAT_HELD p) ∧ att c p ≠ atDISABLED then
        let on := attached c p
        let c := irq t 0x13 4 (raise t 0x0B 0x20 (p + wire * 16) c)
        let c := modPort p (fun x => { x with leaving := false, src := false, unfit := false }) (unmap p c)
        ((c.wr (F.CPp_STAT_ATT p) atFAULT).wrB (F.CPp_STAT_HELD p) true, on)
      else if (att c p = atWAITSRC ∨ att c p = atWAITSNK) ∧ (roleWin c p ≠ was ∨ markerWin c p ≠ wasM)
          ∧ !c.flag (F.CPp_STAT_SWAPHOLD p) then
        -- after a hard reset the pattern of the default role may come first (R238)
        (if !fitted && fits c p then c else enterUnattached t p c, false)
      else (attachJudge t p (fitAgain p c), false)

/-- CHATTER_HOLD_END: a whole CHATWIN with no change (R237); a port with a wiring fault stays in FAULT (R241). -/
def chatterHoldEnd (t : Time) (p : Nat) (c : Chip) : Chip :=
  if portOn c p && c.flag (F.CPp_STAT_HELD p) && (recent t c (port c p).changes).isEmpty then
    let c := c.wrB (F.CPp_STAT_HELD p) false
    if c.rd (F.CPp_STAT_FAULT p) = 0 then enterUnattached t p c else c
  else c

/-- SOURCE_SELF_MAP: MARKER, LOW has held for 2 × CFGDB (R234). -/
def sourceSelfMap (t : Time) (p : Nat) (c : Chip) : Chip :=
  if portOn c p && (att c p == atUNATTSRC || (att c p == atTOGGLE && (port c p).src)) && seen c p == .selfMap
      && !c.flag (F.CPp_STAT_MAPPED p) && decide ((port c p).clk.patAt + 800000 * c.rd F.CPT_DB_CFGDB ≤ t.tick) then
    irq t 0x13 2 ((c.wrB (F.CPp_STAT_MAPPED p) true).wrB (F.CPp_STAT_ORIENT p) true)
  else c

/-- The shortest phase of TOGGLE in ticks: DRPDUTY per cent of 50 ms as a source, the rest as a sink (R235). -/
def phaseLeast (c : Chip) (p : Nat) : Nat :=
  let d := c.rd (F.CPp_CFG_DRPDUTY p)
  200000 * (if (port c p).src then d else 100 - d)

/-- TOGGLE_PHASE_END: the other role; the pattern of the ending phase counts first (R235, R257). The length of the period within
its 50–100 ms is the sequence's own. -/
def togglePhase (t : Time) (p : Nat) (c : Chip) : Chip :=
  if portOn c p && att c p == atTOGGLE && decide ((port c p).clk.phaseAt + phaseLeast c p ≤ t.tick) then
    let c := attachJudge t p c
    if att c p = atTOGGLE then attachJudge t p (modPort p (fun x => { x with src := !x.src }) c) else c
  else c

/-! ### The wire test (R239–R241) -/

/-- The readings of a test in CPp_DIAG. -/
def diagShow (p : Nat) (w : WireTest) (pass conf : Bool) (c : Chip) : Chip :=
  let v := w.a0 % 8 + w.b0 % 8 * 2 ^ 3 + w.a1 % 8 * 2 ^ 6 + w.b1 % 8 * 2 ^ 9 + w.cl1 % 8 * 2 ^ 12 + w.a2 % 8 * 2 ^ 15
    + w.b2 % 8 * 2 ^ 18 + w.cl2 % 8 * 2 ^ 21 + w.cl0 % 8 * 2 ^ 24 + pass.toNat * 2 ^ 28 + conf.toNat * 2 ^ 29
  c.wrR (R.CPp_DIAG p) v

/-- The windows of the levels that a test meets (R230). -/
def readTest (c : Chip) (w : WireTest) : WireTest :=
  let f := windowOf c
  ⟨f w.a0, f w.b0, f w.cl0, f w.a1, f w.b1, f w.cl1, f w.a2, f w.b2, f w.cl2⟩

/-- CL has stayed outside LOW for DETDB: a frame would have broken its window (R231, R240). -/
def clStuck (t : Time) (c : Chip) (p : Nat) : Bool :=
  c.rd (F.CPp_STAT_WINCL p) != winLOW && decide ((port c p).clAt + c.rd F.CPT_DB_DETDB * 400000 ≤ t.tick)

/-- The judgement of the windows of a test: none for a pass, else kind, cause and wire (R240, R259). -/
def testJudge (w : WireTest) (stuck mapped attached detaching : Bool) : Option (Nat × Nat × Nat) :=
  let r1 := if mapped then w.b1 else w.a1
  let m2 := if mapped then w.a2 else w.b2
  let role := mapped.toNat
  let marker := 1 - role
  if w.a0 = winHIGH ∨ w.a0 ≠ winLOW then some (0x01, 0, 0)
  else if w.b0 ≠ winLOW then some (0x01, 0, 1)
  else if w.cl0 = winHIGH then some (0x01, 0, 2)
  else if r1 = winLOW then some (0x02, 0, role)
  else if m2 = winLOW then some (0x02, 0, marker)
  else if w.a1 = w.b1 ∧ w.a2 = w.b2 then some (0x04, 1, 3)
  else if w.cl1 ≠ winLOW ∧ w.cl2 = winLOW then some (0x04, if mapped then 3 else 2, 2)
  else if w.cl2 ≠ winLOW ∧ w.cl1 = winLOW then some (0x04, if mapped then 2 else 3, 2)
  else if w.cl0 ≠ winLOW ∨ stuck then some (0x10, 1, 2)
  else if attached ∧ m2 = winOPEN then some (0x08, 2, marker)
  else if detaching ∧ m2 = winMARKER then some (0x08, 1, role)
  else none

/-- The result of the windows of a test on port `p`: one that is detaching is no longer attached (R236, R240). -/
def testResult (t : Time) (c : Chip) (p : Nat) (detaching : Bool) (w : WireTest) : Option (Nat × Nat × Nat) :=
  testJudge w (clStuck t c p) (c.flag (F.CPp_STAT_MAPPED p)) (attached c p && !detaching) detaching

/-- A wiring fault is declared: FAULT, and its kind once while it is latched (R241). -/
def wireFault (t : Time) (p : Nat) (x : Nat × Nat × Nat) (c : Chip) : Chip :=
  let (kind, cause, wire) := x
  let latched := c.rd (F.CPp_STAT_FAULT p)
  let c := ((unmap p c).wr (F.CPp_STAT_ATT p) atFAULT).wr (F.CPp_STAT_FAULT p) (latched ||| kind)
  let c := modPort p (fun y => { y with bad := none, passAt := none, src := false, leaving := false, unfit := false }) c
  if latched &&& kind ≠ 0 then c else irq t 0x13 3 (raise t 0x0B kind (p + wire * 16 + cause * 256) c)

/-- A test passes: in FAULT, the second in a row with every wire at rest for CFGDB between clears it (R241). -/
def testPass (t : Time) (p : Nat) (c : Chip) : Chip :=
  let c := modPort p (fun y => { y with bad := none }) c
  if att c p = atFAULT ∧ !c.flag (F.CPp_STAT_HELD p) then
    match (port c p).passAt with
    | none => modPort p (fun y => { y with passAt := some t.tick }) c
    | some a =>
      let quiet := ((port c p).changes.head?.map fun x => decide (x.2 ≤ a)).getD true
        && decide (a + c.rd F.CPT_DB_CFGDB * 400000 ≤ t.tick)
      if quiet then enterUnattached t p (c.wr (F.CPp_STAT_FAULT p) 0)
      else modPort p (fun y => { y with passAt := some t.tick }) c
  else c

/-- WIRE_TEST_COMPLETE: the three steps are read and judged; a fault waits for its confirmation (R239, R240). -/
def testComplete (t : Time) (p : Nat) (w : WireTest) (c : Chip) : Chip :=
  if !(portOn c p && c.flag (F.CPp_DIAG_RUN p)) || decide (t.tick < (port c p).testAt + 240000) then c
  else
    let w := readTest c w
    let r := testResult t c p false w
    let c := diagShow p w r.isNone false c
    match r with
    | none => testPass t p c
    | some x => modPort p (fun y => { y with bad := some x, passAt := none }) c

/-- What the end of a debounce or of a test tells the policy: nothing, that the port has attached, or that it has left. -/
inductive WireEnd where
  | stays | joined | left
  deriving DecidableEq, Repr

/-- The waiting port attaches (R236). -/
def attachNow (t : Time) (p : Nat) (c : Chip) : Chip × WireEnd :=
  (irq t 0x13 0 (linkReset p (c.wr (F.CPp_STAT_ATT p) (attOfRole c p))), .joined)

/-- The port detaches: its unattached state, DETACH (R236). -/
def detachNow (t : Time) (p : Nat) (c : Chip) : Chip × WireEnd := (enterUnattached t p (irq t 0x13 1 (linkReset p c)), .left)

/-- WIRE_TEST_CONFIRM: the second test, 2 ms or more after the first, has run its 600 µs; the fault is declared when both agree (R239). When they do not, a port that waits
with its pattern attaches on a second test that passes, and a port that was about to detach does so (R236). -/
def testConfirm (t : Time) (p : Nat) (w : WireTest) (c : Chip) : Chip × WireEnd :=
  match (if portOn c p && !c.flag (F.CPp_STAT_SWAPHOLD p) && decide ((port c p).clk.badAt + 1040000 ≤ t.tick) then (port c p).bad
    else none) with
  | none => (c, .stays)
  | some x =>
    let leaving := (port c p).leaving
    let w := readTest c w
    let r := testResult t c p leaving w
    let c := diagShow p w r.isNone (r == some x) c
    if r = some x then (wireFault t p x c, .left)
    else
      let c := modPort p (fun y => { y with bad := none }) c
      if leaving then detachNow t p c
      else if r.isNone && (att c p == atWAITSRC || att c p == atWAITSNK) && fits c p then attachNow t p c
      else (c, .stays)

/-- ATTACH_DEBOUNCE_END, once the pattern has held for CFGDB, up to the policy: a sink with the swapped pattern maps itself; the test passes and the port attaches
(R234, R236). A port whose pattern does not fit returns to its unattached state. -/
def attachEnd (t : Time) (p : Nat) (w : WireTest) (c : Chip) : Chip × WireEnd :=
  if !(portOn c p && (att c p == atWAITSRC || att c p == atWAITSNK)) || c.flag (F.CPp_STAT_SWAPHOLD p)
      || decide (t.tick < (port c p).clk.patAt + 400000 * c.rd F.CPT_DB_CFGDB) then (c, .stays)
  else match seen c p with
    | .wait swapped =>
      let c := if swapped then irq t 0x13 2 ((c.wrB (F.CPp_STAT_MAPPED p) true).wrB (F.CPp_STAT_ORIENT p) true) else c
      let w := readTest c w
      let r := testResult t c p false w
      let c := diagShow p w r.isNone false c
      match r with
      | some x => (modPort p (fun y => { y with bad := some x }) c, .stays)
      | none => attachNow t p c
    | _ => (enterUnattached t p c, .stays)

/-- DETACH_DEBOUNCE_END up to the policy: the role wire has left SINK for DETDB, or no pattern has fitted for as long since a
release of SWAPHOLD (R236, R238); one test, then the unattached state, once a
fault that it shows is confirmed or not (R236, R239). -/
def detachEnd (t : Time) (p : Nat) (w : WireTest) (c : Chip) : Chip × WireEnd :=
  if portOn c p && attached c p && !c.flag (F.CPp_STAT_SWAPHOLD p) && (roleWin c p != winSINK || (port c p).unfit)
      && !(port c p).leaving && heldFor t (400000 * c.rd F.CPT_DB_DETDB) (port c p).clk.leftAt then
    let w := readTest c w
    let r := testResult t c p true w
    let c := diagShow p w r.isNone false c
    match r with
    | some x => (modPort p (fun y => { y with bad := some x, leaving := true }) c, .stays)
    | none => detachNow t p c
  else (c, .stays)

/-! ### Packets (R244–R256) -/

/-- A packet joins the transmit queue. -/
def pktSend (p ty : Nat) (objs : List Nat) (c : Chip) (mail : Bool := false) : Chip :=
  modPort p (fun x => { x with queue := x.queue ++ [⟨ty, objs, mail⟩] }) c

/-- The header of a packet with a MSGID (R248): the present power role is that of the terminations (R261, R280). -/
def header (c : Chip) (p id : Nat) (k : Pkt) : Nat :=
  k.objs.length * 4096 + id * 512 + (port c p).src.toNat * 256 + c.rd (F.CPp_CFG_TRUNK p) * 128 + 32 + k.ty

/-- The header of a packet that this end sends: SRESET with MSGID 0, any other with the transmit MSGID (R253). -/
def pktHeader (c : Chip) (p : Nat) (k : Pkt) : Nat := header c p (if k.ty = 0x08 then 0 else (port c p).tx) k

/-- The port drives CL: packets leave in an attached state of the acting chip only (R232, R258). -/
def linkUp (c : Chip) (p : Nat) : Bool := portOn c p && attached c p && !isStandby c

/-- CL has been idle for IFS after this end's sends and what it has received (R244). -/
def lineFree (t : Time) (c : Chip) (p : Nat) : Bool := decide ((port c p).clk.lineAt + 400 * c.rd F.CPT_LINK_IFS ≤ t.tick)

/-- The bits on CL have all been sent, 4 µs each (R242, R247). -/
def bitsSent (t : Time) (c : Chip) (p : Nat) : Bool := decide ((port c p).clk.txAt + 1600 * (port c p).out.length ≤ t.tick)

/-- PACKET_TRANSMIT_START: CL has been idle for IFS; the first queued packet starts, bit by bit (R244, R247). -/
def txPacket (t : Time) (p : Nat) (c : Chip) : Chip :=
  let x := port c p
  if linkUp c p && lineFree t c p && x.sending.isNone && x.waiting.isNone && !x.hr && !x.hrSending && !sealOnly c then
    match x.queue with
    | [] => c
    | k :: l => modPort p (fun y => { y with sending := some k, queue := l, out := packetBits (pktHeader c p k) k.objs }) c
  else c

/-- PACKET_TRANSMIT_END: the wire is brought low and the ACK wait starts (R243, R255). The answer is the packet sent, the
first time. -/
def txPacketEnd (t : Time) (p : Nat) (c : Chip) : Chip × Option Pkt :=
  match (if bitsSent t c p then (port c p).sending else none) with
  | none => (c, none)
  | some k => (modPort p (fun y => { y with sending := none, waiting := some k }) c, if (port c p).tries = 0 then some k else none)

/-- The MSGID goes on after an ACK or a failed send (R253). -/
def nextId (p : Nat) (k : Pkt) (c : Chip) : Chip :=
  modPort p (fun y => { y with waiting := none, sending := none, colls := 0, tries := 0, tx := if k.ty = 0x08 then 1 else (y.tx + 1) % 8 }) c

/-- SEND_FAILED: kind 0x40 with its cause, SENDFAIL (R255). -/
def sendFailed (t : Time) (p cause : Nat) (k : Pkt) (c : Chip) : Chip :=
  irq t 0x13 7 (raise t 0x0B 0x40 (p + cause * 256) (nextId p k (c.count (F.CPp_CNT_FAIL p))))

/-- COLLISION: stop, wait and send again; after NCOLL the send fails (R244). The answer is the packet that failed. -/
def collision (t : Time) (p : Nat) (c : Chip) : Chip × Option Pkt :=
  match (port c p).sending with
  | none => (c, none)
  | some k =>
    let c := modPort p (fun y => { y with sending := none, queue := k :: y.queue, colls := y.colls + 1 }) (c.count (F.CPp_CNT_COLL p))
    if c.rd F.CPT_LINK_NCOLL ≤ (port c p).colls then
      (sendFailed t p 2 k (modPort p (fun y => { y with queue := y.queue.drop 1 }) c), some k)
    else (c, none)

/-- ACK_TIMEOUT: ACKWAIT has passed; the packet is sent again, up to NRETRY times (R255). The answer is the packet that failed. -/
def ackTimeout (t : Time) (p : Nat) (c : Chip) : Chip × Option Pkt :=
  match (if (port c p).clk.waitAt + 4000 * c.rd F.CPT_LINK_ACKWAIT ≤ t.tick then (port c p).waiting else none) with
  | none => (c, none)
  | some k =>
    if (port c p).tries < c.rd F.CPT_LINK_NRETRY then
      (modPort p (fun y => { y with waiting := none, queue := k :: y.queue, tries := y.tries + 1 }) (c.count (F.CPp_CNT_RETRY p)), none)
    else (sendFailed t p 1 k c, some k)

/-- ACK_RECEIVED with a MSGID: it ends the wait it matches; any other is dropped (R254, R255). The answer is the packet
acknowledged. -/
def ackReceived (p id : Nat) (c : Chip) : Chip × Option Pkt :=
  match (if linkUp c p then (port c p).waiting else none) with
  | none => (c, none)
  | some k =>
    if id = (if k.ty = 0x08 then 0 else (port c p).tx) then (nextId p k (c.count (F.CPp_CNT2_TXOK p)), some k) else (c, none)

/-- ACK_SEND, 25 µs or more after the packet's ET (R254): the packet with the MSGID that it acknowledges (R253). -/
def ackSend (t : Time) (p : Nat) (c : Chip) : Chip :=
  match (if (port c p).clk.ackAt + 10000 ≤ t.tick then (port c p).ack else none) with
  | some id => modPort p (fun y => { y with ack := none, out := packetBits (header c p id { ty := 0x01 }) [] }) c
  | none => c

/-- The fixed number of objects of a type; none where any number, or no rule, holds (R249). -/
def pktObjsOk (ty n : Nat) : Bool :=
  if 0x01 ≤ ty ∧ ty ≤ 0x09 then n == 0
  else match ty with
    | 0x11 => decide (1 ≤ n) | 0x12 => n == 1 | 0x13 => n == 3 | 0x14 => n == 4 | 0x15 => n == 4
    | 0x16 => n == 5 || n == 7 | _ => true

/-- A packet is discarded: counted, not acknowledged (R252). -/
def pktDiscard (t : Time) (p : Nat) (c : Chip) : Chip := irq t 0x13 5 (c.count (F.CPp_CNT_DISC p))

/-- Checks 5 and 6 of R252 on a packet: REV, the fixed NOBJ of its type, and the attach state. -/
def pktGood (c : Chip) (p hdr : Nat) (objs : List Nat) : Bool :=
  bits hdr 6 5 == 1 && pktObjsOk (hdr % 32) objs.length && attached c p

/-- A packet that passes R252 is acknowledged, and unless it is a duplicate its registers show it and it waits for its delivery
to the policy (R252, R253). -/
def pktReceive (t : Time) (p hdr : Nat) (objs : List Nat) (c : Chip) : Chip :=
  let ty := hdr % 32
  let id := bits hdr 11 9
  if (port c p).rx = some id ∧ ty ≠ 0x08 then modPort p (fun y => { y with ack := some id }) c
  else
    let last := if ty = 0x08 then 0 else id
    let c := modPort p (fun y => { y with ack := some id, rx := some last, deliver := some (t.tick, ty, objs) }) c
    let c := (c.wr (F.CPp_RXH_HDR p) hdr).count (F.CPp_CNT2_RXOK p)
    c.forAll (List.range 7) fun n c => c.wrR ⟨0x13114 + 0x40 * p + 4 * n, 0⟩ (objs.getD n 0)

/-- The objects of a message of a type that reaches the policy: those of the packet received within the last 10 µs, where one
of the type waits for its delivery (R252), else those that the command brings. -/
def delivered (t : Time) (p ty : Nat) (objs : List Nat) (c : Chip) : Chip × List Nat :=
  match (port c p).deliver with
  | some (at_, k, o) =>
    if k = ty ∧ t.tick ≤ at_ + 4000 then (modPort p (fun y => { y with deliver := none }) c, o) else (c, objs)
  | none => (c, objs)

/-- HARD_RESET_SEND on an idle wire, HARD_RESET_FORCED 2.0 ms after the command whatever the wire holds: a commanded hard reset
goes ahead of every queued packet; a send in progress is abandoned (R256). -/
def hrSend (t : Time) (forced : Bool) (p : Nat) (c : Chip) : Chip :=
  let may := if forced then decide ((port c p).clk.hrAt + 800000 ≤ t.tick) else lineFree t c p && (port c p).sending.isNone
  if linkUp c p && (port c p).hr && may then
    modPort p (fun y => { y with hr := false, hrSending := true, sending := none, waiting := none, out := resetBits }) c
  else c

/-- The wires after a hard reset: the terminations of the default role, mapping kept, the waiting state (R238). -/
def hrWires (p : Nat) (c : Chip) : Chip :=
  let src := match c.rd (F.CPp_CFG_ROLE p) with | 1 => true | 2 => false | _ => c.flag (F.CPp_CFG_DEF p)
  let c := modPort p (fun y => { y with src := src, hrSending := false, hr := false, unfit := false }) c
  linkReset p ((c.wr (F.CPp_STAT_ATT p) (if src then atWAITSRC else atWAITSNK)).wrB (F.CPp_STAT_SWAPHOLD p) false)

/-! ### Commit -/

/-- What the wire part of a CPT commit is refused for (R259), in order of offset. -/
def judgeWires (c : Chip) : Option Nat :=
  let on := (List.range 4).filter fun p => c.flag (F.CPp_CFG_EN p)
  if c.rd F.CPT_DB_CFGDB < 2 ∨ c.rd F.CPT_DB_DETDB < 2 then some 0x44
  else if c.rd F.CPT_WIN_SINKTOP ≤ c.rd F.CPT_WIN_LOWTOP ∨ c.rd F.CPT_WIN_MARKTOP ≤ c.rd F.CPT_WIN_SINKTOP
      ∨ c.rd F.CPT_WIN_OPENTOP ≤ c.rd F.CPT_WIN_MARKTOP then some 0x48
  else if c.rd F.CPT_LINK_IFS < 20 then some 0x4C
  else match on.find? fun p => c.rd (F.CPp_CFG_ROLE p) == 0 || decide (c.rd (F.CPp_CFG_DRPDUTY p) < 30) || decide (70 < c.rd (F.CPp_CFG_DRPDUTY p)) with
    | some p => some (0x100 + 0x40 * p)
    | none =>
      match (List.range 4).filter fun p => c.flag (F.CPp_CFG_TRUNK p) with
      | _ :: _ :: p :: _ => some (0x100 + 0x40 * p)
      | _ => none

end Sys2Proof.Machine
end

