-- ==== Sys2Proof/Machine/Policy.lean ====
section
/-! DEFINITION. CPT, the contract policy: states, negotiation, transitions, swaps, hard resets, and what passes to BUS, CAP
and the recorder (R261–R292). A port's policy acts on what is delivered to it: the objects of a message are the
command's operands. -/

namespace Sys2Proof.Machine

/-! ### States (R266) -/

/-- The policy states of R266. -/
def pDISABLED : Nat := 0
@[inherit_doc pDISABLED] def pDETACHED : Nat := 1
@[inherit_doc pDISABLED] def pSRCOFFER : Nat := 2
@[inherit_doc pDISABLED] def pSRCTRANS : Nat := 3
@[inherit_doc pDISABLED] def pSRCREADY : Nat := 4
@[inherit_doc pDISABLED] def pSNKWAITCAP : Nat := 5
@[inherit_doc pDISABLED] def pSNKREQ : Nat := 6
@[inherit_doc pDISABLED] def pSNKTRANS : Nat := 7
@[inherit_doc pDISABLED] def pSNKREADY : Nat := 8
@[inherit_doc pDISABLED] def pSNKNOCON : Nat := 9
@[inherit_doc pDISABLED] def pSWAPWAIT : Nat := 10
@[inherit_doc pDISABLED] def pSWAPOFF : Nat := 11
@[inherit_doc pDISABLED] def pSWAPON : Nat := 12
@[inherit_doc pDISABLED] def pSRESET : Nat := 13
@[inherit_doc pDISABLED] def pHRESET : Nat := 14
@[inherit_doc pDISABLED] def pBLOCKED : Nat := 15

/-- The message types of R249 that the policy names. -/
def tyACCEPT : Nat := 0x02
@[inherit_doc tyACCEPT] def tyREJECT : Nat := 0x03
@[inherit_doc tyACCEPT] def tyREADY : Nat := 0x04
@[inherit_doc tyACCEPT] def tyGETCAPS : Nat := 0x05
@[inherit_doc tyACCEPT] def tySWAP : Nat := 0x06
@[inherit_doc tyACCEPT] def tyWAIT : Nat := 0x07
@[inherit_doc tyACCEPT] def tySRESET : Nat := 0x08
@[inherit_doc tyACCEPT] def tyNOTSUPP : Nat := 0x09
@[inherit_doc tyACCEPT] def tyOFFER : Nat := 0x11
@[inherit_doc tyACCEPT] def tyREQUEST : Nat := 0x12
@[inherit_doc tyACCEPT] def tyIDENT : Nat := 0x13
@[inherit_doc tyACCEPT] def tyINTENT : Nat := 0x14
@[inherit_doc tyACCEPT] def tyGAP : Nat := 0x15
@[inherit_doc tyACCEPT] def tyRELAY : Nat := 0x16

/-- The policy state of port `p`. -/
def pst (c : Chip) (p : Nat) : Nat := c.rd (F.CPp_PST_STATE p)

/-- The policy of port `p` goes to a state. -/
def setPst (p n : Nat) (c : Chip) : Chip := c.wr (F.CPp_PST_STATE p) n

/-- The policy runs on port `p` (R292). -/
def polOn (c : Chip) (p : Nat) : Bool := portOn c p && c.flag F.CPT_POL_PEN

/-- The policy of port `p` talks with a partner: an attached state, SRC_OFFER to SRESET, on the acting chip (R266, R290). -/
def talks (c : Chip) (p : Nat) : Bool :=
  polOn c p && attached c p && !isStandby c && decide (pSRCOFFER ≤ pst c p) && decide (pst c p ≤ pSRESET)

/-- The port is a trunk port. -/
def isTrunk (c : Chip) (p : Nat) : Bool := c.flag (F.CPp_CFG_TRUNK p)

/-- A contract is in force (R271); not while it is suspended (R276, R280). -/
def inForce (c : Chip) (p : Nat) : Bool := c.flag (F.CPp_PST_CON p)

/-- The port is in source role (R261). -/
def inSource (c : Chip) (p : Nat) : Bool := c.flag (F.CPp_PST_ROLE p)

/-- A kind of the policy: the port, and its state at the event (R291). -/
def polFault (t : Time) (p kind : Nat) (c : Chip) : Chip := raise t 0x0C kind (p + pst c p * 16) c

/-- A message is sent; where it needs a reply, its timer runs (R275). -/
def say (p ty : Nat) (objs : List Nat) (c : Chip) : Chip :=
  let c := pktSend p ty objs c
  if [tyOFFER, tyREQUEST, tySWAP, tySRESET, tyGETCAPS].contains ty || (ty == tyIDENT && !inSource c p) then
    modPort p (fun x => { x with resp := ty :: x.resp.filter (· != ty) }) c
  else c

/-- A reply to a message of a type has come (R275). -/
def answered (p ty : Nat) (c : Chip) : Chip := modPort p (fun x => { x with resp := x.resp.filter (· != ty) }) c

/-! ### Line, references and ranges (R262–R265) -/

/-- Line voltage in 10 mV / 2^20 on CPp_LMON; an input that is not named reads 0 (R101, R264). -/
def lineVolts (c : Chip) (p : Nat) : Int :=
  let s := c.rd (F.CPp_LMON_SRC p)
  let k : Int := c.rd (F.CPp_LMON_VSCALE p) * 100
  if s ≤ 0x0F then c.rdI (F.AFE_FINn_DATA_VALUE s) * k
  else if 0x20 ≤ s ∧ s ≤ 0x3F then c.rd (F.AFE_SINn_DATA_VALUE (s - 0x20)) * k
  else 0

/-- VSAFE0 in 10 mV / 2^20, and whether the line reads below it. -/
def safe0 (c : Chip) (p : Nat) : Int := (c.rd (F.CPp_VCTL_VSAFE0 p) * 50 * 2 ^ 20 : Nat)
@[inherit_doc safe0] def lineIsSafe (c : Chip) (p : Nat) : Bool := decide (lineVolts c p < safe0 c p)

/-- The line voltage as a target in 10 mV / 400,000. -/
def lineTarget (c : Chip) (p : Nat) : Nat := (divEven (lineVolts c p * 400000) (2 ^ 20)).toNat

/-- A REQUEST or CPp_CON object by field (R250, R292). -/
def conPos (w : Nat) : Nat := bits w 2 0
@[inherit_doc conPos] def conIop (w : Nat) : Nat := bits w 12 3
@[inherit_doc conPos] def conVreq (w : Nat) : Nat := bits w 21 13
@[inherit_doc conPos] def conDir (w : Nat) : Nat := bits w 23 22
@[inherit_doc conPos] def conPrio (w : Nat) : Nat := bits w 25 24

/-- The directions seen from the other end. -/
def turnDir (w : Nat) : Nat := setBits w 23 22 (match conDir w with | 1 => 2 | 2 => 1 | d => d)

/-- Operating current in 0.5 A and directions in force; during a renegotiation the smaller current and the directions that
both contracts allow (R271). -/
def conNow (c : Chip) (p : Nat) : Nat × Nat :=
  let w := c.rdR (R.CPp_CON p)
  match (port c p).neg with
  | some n => (min (conIop w) (conIop n), conDir w &&& conDir n)
  | none => (conIop w, conDir w)

/-- The DAB group of port `p`. -/
def portGroup (c : Chip) (p : Nat) : Nat := c.rd (F.CPp_PCFG_GROUP p)

/-- The coupler source of BUS that names a group (R125). -/
def couplerSource (c : Chip) (k : Nat) : Option Nat := (List.range 8).find? fun i => srcKind c i == 3 && srcUnit c i == k

/-- The range that CPT gives BUS in 2^−20 of IBASE; none without a contract in force (R264). -/
def portRange (c : Chip) (p : Nat) : Option (Int × Int) :=
  if !inForce c p || c.flt.biv then none
  else if inSource c p then
    let m := ((couplerSource c (portGroup c p)).bind (measured c)).getD 0
    some (m, m)
  else
    let (iop, dir) := conNow c p
    let vbus := busLevel c
    let ib := orFree c ((iop * 5 * 2 ^ 20 : Nat) * lineVolts c p) (vbus * max 1 (c.rd F.BUS_BASE_IBASE))
    some (if bit dir 1 then -ib else 0, if bit dir 0 then ib else 0)

/-- A current in 0.1 A in 2^−20 of IBASEP. -/
def perPort (c : Chip) (p : Nat) (deci : Nat) : Int := divEven ((deci * 2 ^ 20 : Nat) : Int) (max 1 (c.rd (F.CPp_BASE_IBASEP p)))

/-- The sink's command in 2^−20 of IBASEP (R265). -/
def sinkCommand (c : Chip) (p : Nat) : Int :=
  let (iop, dir) := conNow c p
  let s := ((couplerSource c (portGroup c p)).map (shareOf c)).getD 0
  let v := max (lineVolts c p) (safe0 c p)
  let i := orFree c (s * c.rd F.BUS_BASE_IBASE * busLevel c) (v * max 1 (c.rd (F.CPp_BASE_IBASEP p)))
  let top := perPort c p (iop * 5)
  clampI (if bit dir 1 then -top else 0) (if bit dir 0 then top else 0) i

/-- The references of port `p` as signal words (R262, R272, R277, R288). -/
def portRefs (c : Chip) (p : Nat) : Int × Int :=
  let x := port c p
  let volts := fun (v : Nat) => divEven ((v : Int) * 2 ^ 24) (400000 * max 1 (c.rd (F.CPp_BASE_VBASEP p)))
  if c.flt.biv then (0, 0)
  else if x.disch then (0, perPort c p (c.rd (F.CPp_VCTL_IDIS p) * 10) * 16)
  else if x.srcRun then
    let iop := if inForce c p || x.susp then conIop (c.rdR (R.CPp_CON p)) else conIop (x.neg.getD 0)
    (volts x.vref, perPort c p (iop * 5) * 16)
  else if inForce c p && !inSource c p then (volts (conVreq (c.rdR (R.CPp_CON p)) * 50 * 400000), sinkCommand c p * 16)
  else (0, 0)

/-- Reference 2p moves toward its target at SLEW (R272). -/
def slewLine (t : Time) (p : Nat) (c : Chip) : Chip :=
  let d := c.rd (F.CPp_VCTL_SLEW p) * 10 * (t.tick - (port c p).vAt)
  modPort p (fun x => { x with vref := (toward x.vref x.vtgt d).toNat, vAt := t.tick }) c

/-- What port `p` delivers: its range to BUS, its references, and CPp_VNOW (R262, R264, R265); a port that is off none, with
its references at 0. -/
def portRefresh (t : Time) (p : Nat) (c : Chip) : Chip :=
  if !portOn c p then
    let c := if (Tab.get none c.bus.ports (portGroup c p)).isSome && !(List.range 4).any (fun q => portOn c q && portGroup c q == portGroup c p) then
        let c := modBus (fun b => { b with ports := Tab.set none b.ports (portGroup c p) none }) c
        if busOn c then busChanged t c else c
      else c
    setRef (0x60 + 2 * p) 0 (setRef (0x61 + 2 * p) 0 c)
  else
    let c := slewLine t p c
    let c := c.wrB (F.CPp_STAT_CLBUSY p) ((port c p).sending.isSome || (port c p).hrSending)
    let k := portGroup c p
    let r := portRange c p
    let changed := Tab.get none c.bus.ports k != r
    let c := modBus (fun b => { b with ports := Tab.set none b.ports k r }) c
    let c := if changed && busOn c then busChanged t c else c
    let (v, i) := portRefs c p
    let c := setRef (0x60 + 2 * p) v (setRef (0x61 + 2 * p) i c)
    (c.wr (F.CPp_VNOW_VTGT p) (if (port c p).srcRun then (port c p).vref / 400000 else 0)).wr (F.CPp_VNOW_VLINE p)
      (clampI 0 65535 (divEven (lineVolts c p) (2 ^ 20))).toNat

/-- Every port in turn. -/
def cptRefresh (t : Time) (c : Chip) : Chip :=
  if c.blockOn 0x13 then c.forAll (List.range 4) (portRefresh t) else c

/-! ### Runs (R263) -/

/-- The slots of a run of port `p`. -/
def runSlots (c : Chip) (src : Bool) (p : Nat) : List Nat :=
  if src then (List.range (c.rd (F.CPp_SLOT_SRCN p))).map (c.rd (F.CPp_SLOT_SRCFIRST p) + ·)
  else (List.range (c.rd (F.CPp_SLOT_SNKN p))).map (c.rd (F.CPp_SLOT_SNKFIRST p) + ·)

/-- A slot is enabled or disabled as by a CEN commit (R111, R263). -/
def runSlot (t : Time) (on : Bool) (s : Nat) (c : Chip) : Chip :=
  if c.flag (F.CEN_LPs_CFG_EN s) = on then c
  else (if on then enableSlot s else disableSlot t s) (c.wrB (F.CEN_LPs_CFG_EN s) on)

/-- The legs of the port's group are held low while neither run is active (R263). -/
def holdPort (p : Nat) (c : Chip) : Chip :=
  holdGroup 1 (portGroup c p) (portOn c p && !(port c p).srcRun && !(port c p).snkRun) c

/-- A run of port `p` starts or stops (R263). -/
def setRun (t : Time) (src on : Bool) (p : Nat) (c : Chip) : Chip :=
  let was := if src then (port c p).srcRun else (port c p).snkRun
  if was = on then c
  else
    let c := c.forAll (runSlots c src p) (runSlot t on)
    holdPort p (modPort p (fun x => if src then { x with srcRun := on } else { x with snkRun := on }) c)

/-- The slots that a run in progress keeps enabled whatever a CEN commit says (R263). -/
def runningSlots (c : Chip) : List Nat :=
  (List.range 4).flatMap fun p =>
    (if (port c p).srcRun then runSlots c true p else []) ++ (if (port c p).snkRun then runSlots c false p else [])

/-! ### Ends of a contract: soft reset, hard reset, detach (R276–R278, R282) -/

/-- The contract ends (R267): nothing is in force or suspended, and CEND is raised where one was. -/
def contractEnd (t : Time) (p : Nat) (c : Chip) : Chip :=
  let had := inForce c p || (port c p).susp
  let c := modPort p (fun x => { x with susp := false, neg := none, swapStep := 0, yielded := false, resend := false }) c
  let c := ((c.wrB (F.CPp_PST_CON p) false).wrR (R.CPp_CON p) 0).wr (F.CPp_PST_RETGT p) 0
  if had then irq t 0x13 17 c else c

/-- The line discharge starts: the sink run takes the line's energy (R277, step 3); not in the Bivouac (R288). -/
def startDischarge (t : Time) (p : Nat) (c : Chip) : Chip :=
  let c := setRun t true false p c
  let c := modPort p (fun x => { x with lineSafe := false, vref := 0, vtgt := 0 }) c
  if c.flt.biv then setRun t false false p c
  else setRun t false true p (modPort p (fun x => { x with disch := true }) c)

/-- Steps 1–3 of R277; an unfinished swap is abandoned (R282). -/
def endAndDischarge (t : Time) (p : Nat) (c : Chip) : Chip :=
  let swap := decide (pSWAPWAIT ≤ pst c p) && decide (pst c p ≤ pSWAPON)
  let c := startDischarge t p (contractEnd t p c)
  let c := c.wrB (F.CPp_STAT_SWAPHOLD p) false
  if swap then irq t 0x13 20 c else c

/-- A copy of the mailbox that is lost with its queue counts as failed (R287). -/
def mailDone (p : Nat) (ok : Bool) (c : Chip) : Chip :=
  if bit c.cpt.mail p then
    let m := setBit c.cpt.mail p false
    let c := { c with cpt := { c.cpt with mail := m } }
    let c := if ok then c.wr F.CPT_TXRES_OK (setBit (c.rd F.CPT_TXRES_OK) p true)
             else c.wr F.CPT_TXRES_FAIL (setBit (c.rd F.CPT_TXRES_FAIL) p true)
    c.wrB F.CPT_TXRES_BUSY (m != 0)
  else c

/-- A hard reset is to be sent (R256). -/
def commandHr (p : Nat) (c : Chip) : Chip :=
  if portOn c p && attached c p && !isStandby c then modPort p (fun x => { x with hr := true }) c else c

/-- The policy enters BLOCKED with a cause (R267, R277). -/
def block (t : Time) (p cause : Nat) (c : Chip) : Chip :=
  irq t 0x13 26 (setPst p pBLOCKED (c.wr (F.CPp_PST_CAUSE p) cause))

/-- The last symbol of a hard reset, sent or received (R277). -/
def hardReset (t : Time) (p : Nat) (c : Chip) : Chip :=
  if !portOn c p then c
  else
    let c := irq t 0x13 6 c
    if pst c p = pDISABLED then hrWires p c
    else
      let c := endAndDischarge t p c
      let c := mailDone p false (hrWires p c)
      let n := min 15 (c.rd (F.CPp_PST_HRCNT p) + 1)
      let c := (c.wr (F.CPp_PST_HRCNT p) n).wrB (F.CPp_PST_IDOK p) false
      let c := modPort p (fun x => { x with ident := none, capExp := 0 }) c
      if pst c p = pBLOCKED ∧ c.rd (F.CPp_PST_CAUSE p) = 3 then c
      else
        let c := c.wr (F.CPp_PST_CAUSE p) 0
        if c.rd F.CPT_PTIM2_HRMAX < n then block t p 1 (polFault t p 0x40 c) else setPst p pHRESET c

/-- CPp_PID shows the identity of the partner as its context has it (R28, R283); 0 with none. -/
def showPid (p id : Nat) (c : Chip) : Chip := (c.wrR (R.CPp_PID_LO p) (id % 2 ^ 32)).wrR (R.CPp_PID_HI p) (id / 2 ^ 32)

/-- The partner is gone: its context lingers, and its identity and counters clear (R277, R306). -/
def partnerGone (t : Time) (p : Nat) (c : Chip) : Chip :=
  let i := c.rd (F.CPp_PST_CTX p)
  let c := carsLeft t (.port p) c
  let c := if i = 0xFF then c else capDetached t i (ctxToBus t i false (ctxDetach t i c))
  let c := mailDone p false (linkReset p c)
  let c := modPort p (fun x => { x with ident := none, capExp := 0, refused := false, hr := false, hrSending := false }) c
  (((showPid p 0 (c.wr (F.CPp_PST_CTX p) 0xFF)).wr (F.CPp_PST_HRCNT p) 0).wrB (F.CPp_PST_IDOK p) false).wrB (F.CPp_PST_PDRP p) false

/-- A forced detach (R278). -/
def forcedDetach (t : Time) (p : Nat) (c : Chip) : Chip :=
  let c := partnerGone t p (endAndDischarge t p c)
  let c := if att c p = atFAULT then c else modPort p (fun x => { x with forced := true }) (irq t 0x13 1 (enterDisabled p c))
  setPst p pDETACHED (c.wr (F.CPp_PST_CAUSE p) 0)

/-- The attach state has left ATT_SRC and ATT_SNK without a hard reset (R267, R277). A BLOCKED port leaves through a forced
detach, but for the Bivouac's cause. -/
def policyDetach (t : Time) (p : Nat) (c : Chip) : Chip :=
  if pst c p = pDISABLED then linkReset p c
  else if pst c p = pBLOCKED then
    if c.rd (F.CPp_PST_CAUSE p) = 3 then partnerGone t p c else forcedDetach t p c
  else setPst p pDETACHED (partnerGone t p (endAndDischarge t p c))

/-- FORCED_DETACH_RELEASE: DETDB has passed; the attach machine starts again (R278). -/
def forcedRelease (t : Time) (p : Nat) (c : Chip) : Chip :=
  if portOn c p && (port c p).forced && decide ((port c p).clk.forcedAt + 400000 * c.rd F.CPT_DB_DETDB ≤ t.tick) then enterUnattached t p (modPort p (fun x => { x with forced := false }) c) else c

/-- The escalation of a timer: hard reset on a trunk port, forced detach on a branch port (R274). -/
def escalate (t : Time) (p : Nat) (c : Chip) : Chip :=
  if isTrunk c p then commandHr p c else forcedDetach t p c

/-- The OFFER of this end's objects (R267); none in the Bivouac (R288). -/
def sendOffer (p : Nat) (c : Chip) : Chip :=
  let objs := (List.range (c.rd (F.CPp_PCFG_NOFF p))).map fun n => c.rdR ⟨0x13214 + 0x40 * p + 4 * n, 0⟩
  setPst p pSRCOFFER (modPort p (fun x => { x with offTx := objs }) (if c.flt.biv then c else say p tyOFFER objs c))

/-- The sink waits for an OFFER (R267). -/
def waitCap (p : Nat) (c : Chip) : Chip := setPst p pSNKWAITCAP (modPort p (fun x => { x with capExp := 0 }) c)

/-- Negotiation begins as after attach (R268, R276, R280). -/
def negotiate (p : Nat) (c : Chip) : Chip := if inSource c p then sendOffer p c else waitCap p c

/-- A soft reset has been agreed (R276): the contract is suspended, the source keeps the line at the present target. -/
def softReset (t : Time) (p : Nat) (c : Chip) : Chip :=
  let swap := decide (pSWAPWAIT ≤ pst c p) && decide (pst c p ≤ pSWAPON)
  let c := if swap then irq t 0x13 20 c else c
  let c := slewLine t p c
  let c := modPort p (fun x => { x with susp := x.susp || inForce c p, neg := none, vtgt := x.vref, swapStep := 0, yielded := false, resend := false, resp := [] }) c
  let c := setRun t false false p ((c.wrB (F.CPp_PST_CON p) false).wr (F.CPp_PST_RETGT p) 0)
  negotiate p c

/-- SRESET is sent (R267). -/
def sendSreset (t : Time) (p : Nat) (c : Chip) : Chip := setPst p pSRESET (irq t 0x13 21 (say p tySRESET [] c))

/-- A contract error (R267); on a swap it is a hard reset (R289). -/
def contractError (t : Time) (p : Nat) (c : Chip) : Chip :=
  let c := polFault t p 0x04 c
  if pst c p = pSWAPOFF ∨ pst c p = pSWAPON then commandHr p c else sendSreset t p c

/-! ### Attach (R267, R268, R283) -/

/-- The identity by which a context is requested at attach, while the partner has not told its own (log 20). -/
def provisional (p : Nat) : Nat := 2 ^ 64 - 256 + p

/-- A slot of a port whose partner left without an IDENT is free again: no partner can be known as its former one (log 20). -/
def dropProvisional (p : Nat) (c : Chip) : Chip :=
  match ctxFind c fun _ x => x.state == ctxLINGER && x.id == provisional p with
  | some i => entryClear (ctxModule (ctx c i)) (ctxClear i (capReclaimed i c))
  | none => c

/-- A context is requested for the partner of port `p` with an identity (R24, R283, R313); the registry follows (R170). -/
def portRequest (t : Time) (p id : Nat) (c : Chip) : Chip :=
  match ctxRequest t { id := id, path := 3, pclass := 6, loc := p } (reclaimDue t id c) with
  | (c, .ok i) => regAttach t i (c.wr (F.CPp_PST_CTX p) i)
  | (c, .error _) => modPort p (fun x => { x with refused := true }) (c.wr (F.CPp_PST_CTX p) 0xFF)

/-- The policy accepts an attach: it takes a context, and a source offers once the line is below VSAFE0 (R267, R283). -/
def policyAttach (t : Time) (p : Nat) (c : Chip) : Chip :=
  if !(polOn c p && attached c p && !isStandby c && !c.flt.biv) || (port c p).refused
      || !(pst c p == pDETACHED || (pst c p == pHRESET && (port c p).lineSafe)) || c.flag (F.CPp_STAT_SWAPHOLD p) then c
  else
    let src := decide (att c p = atATTSRC)
    let c := c.wrB (F.CPp_PST_ROLE p) src
    let c := if c.rd (F.CPp_PST_CTX p) ≠ 0xFF then c else portRequest t p (provisional p) (dropProvisional p c)
    if (port c p).refused then c
    else if src then (if lineIsSafe c p && !(port c p).disch then sendOffer p c else c)
    else waitCap p c

/-! ### Contracts (R268–R273) -/

/-- The objects of this end's IDENT (R250, R283). -/
def identObjs (c : Chip) (p : Nat) : List Nat :=
  [c.rdR R.CAP_ID_LO, c.rdR R.CAP_ID_HI,
   c.rd F.CAP_CAR_CAR + c.rd F.CAP_NUM_NUMBERED * 2 ^ 5 + c.rd F.CAP_NUM_CONHEAD * 2 ^ 6 + c.rd F.CAP_NUM_CARHEAD * 2 ^ 7
     + c.rd F.CAP_NUM_SHELF * 2 ^ 8 + p * 2 ^ 12 + (c.rd (F.CPp_CFG_ROLE p) == 3).toNat * 2 ^ 14
     + c.rd F.CAP_CTL_DEPOT * 2 ^ 15 + c.rd (F.CPp_PCFG_PMAX p) * 2 ^ 16]

/-- This end's IDENT is sent. -/
def sendIdent (p : Nat) (c : Chip) : Chip :=
  modPort p (fun x => { x with ident := some (identObjs c p) }) (say p tyIDENT (identObjs c p) c)

/-- A wished or requested direction is covered by an offer's (R269). -/
def covers (offer wish : Nat) : Bool :=
  match wish with | 1 => bit offer 0 | 2 => bit offer 1 | 3 => offer == 3 | _ => false

/-- The first object of an OFFER that fits the wish, from position `n` on (R269). -/
def chooseFrom (wish : Nat) : Nat → List Nat → Option (Nat × Nat)
  | _, [] => none
  | n, o :: l =>
    if bits o 8 0 ≤ conVreq wish ∧ conVreq wish ≤ bits o 17 9 ∧ covers (bits o 29 28) (conDir wish) then some (n, o)
    else chooseFrom wish (n + 1) l

/-- The sink chooses among the last OFFER and sends REQUEST (R269); nothing fits: the answer is `none`. -/
def request (p : Nat) (c : Chip) : Option Chip :=
  let wish := c.rdR (R.CPp_SNK p)
  (chooseFrom wish 1 (port c p).offRx).map fun (n, o) =>
    let iop := min (conIop wish) (bits o 27 18)
    let w := n + iop * 2 ^ 3 + conVreq wish * 2 ^ 13 + conDir wish * 2 ^ 22 + conPrio wish * 2 ^ 24
    setPst p pSNKREQ (modPort p (fun x => { x with req := w, resend := false }) (say p tyREQUEST [w] c))

/-- A contract comes into force with the values agreed (R271): PRIO goes to the port endpoint's registry entry. -/
def contractStart (t : Time) (p : Nat) (c : Chip) : Chip :=
  match (port c p).neg with
  | none => c
  | some w =>
    let c := modPort p (fun x => { x with neg := none, susp := false }) c
    let c := (c.wrR (R.CPp_CON p) w).wrB (F.CPp_PST_CON p) true
    let i := c.rd (F.CPp_PST_CTX p)
    let c := if i = 0xFF then c else setCtx i { ctx c i with data := setBits (ctx c i).data 127 96 w } c
    let c := entryWrite t (ownAddr c 63 (16 + p)) (fun l => setBits (l.headD 0) 17 16 (conPrio w) :: l.drop 1) c
    irq t 0x13 16 (if inSource c p then c else setRun t false true p c)

/-- The port reaches SRC_READY or SNK_READY (R273, R277). -/
def readyState (p n : Nat) (c : Chip) : Chip :=
  setPst p n ((c.wr (F.CPp_PST_RETGT p) 0).wr (F.CPp_PST_HRCNT p) 0)

/-- The cap in force for the port endpoint, in W, where one is bound (R270). -/
def portCap (c : Chip) (p : Nat) : Option Nat :=
  ((bindings c).find? fun k => bindAddr c k == ownAddr c 63 (16 + p)).map fun k => c.rd (F.CAP_CBk_STAT_CAP k) * 10

/-- What the source answers a REQUEST (R270). -/
inductive Verdict where
  | wait | error | reject | accept
  deriving DecidableEq, Repr

/-- The table of R270, in order. -/
def judgeRequest (c : Chip) (p w : Nat) : Verdict :=
  let x := port c p
  let o := x.offTx.getD (conPos w - 1) 0
  if !c.flag (F.CPp_PST_IDOK p) then .wait
  else if conPos w < 1 ∨ x.offTx.length < conPos w ∨ conDir w = 0 then .error
  else if conVreq w < bits o 8 0 ∨ bits o 17 9 < conVreq w ∨ bits o 27 18 < conIop w ∨ !covers (bits o 29 28) (conDir w) then .reject
  else if c.rd (F.CPp_PCFG_PMAX p) * 400 < conIop w * conVreq w ∨ (portCap c p).any (fun cap => decide (cap * 4 < conIop w * conVreq w)) then
    .reject
  else if pst c p = pSRCTRANS ∧ c.rd (F.CPp_PST_RETGT p) = 4 ∧ (x.neg.map conVreq) ≠ some (conVreq w) then .error
  else .accept

/-- The ET of the source's ACCEPT: a transition starts, or goes on to a new target (R272, R273). -/
def startTransition (t : Time) (p : Nat) (c : Chip) : Chip :=
  match (port c p).neg with
  | none => c
  | some w =>
    let c := if (port c p).srcRun then slewLine t p c
      else setRun t true true p (modPort p (fun x => { x with vref := lineTarget c p, vAt := t.tick }) c)
    modPort p (fun x => { x with vtgt := conVreq w * 50 * 400000, clk := { x.clk with transAt := some t.tick } }) c

/-! ### Messages (R267) -/

/-- A message of a listed type that the present state does not expect; in BLOCKED, HRESET and PDETACHED the policy sends
nothing. -/
def unexpected (t : Time) (p : Nat) (c : Chip) : Chip := if talks c p then contractError t p c else c

/-- In the Bivouac GETCAPS, REQUEST and SWAP are answered with REJECT (R288). -/
def bivReject (p : Nat) (c : Chip) : Chip := if polOn c p && attached c p && !isStandby c then say p tyREJECT [] c else c

/-- The row 1 of a swap: SWAPHOLD, the contract suspended (R280); a wire test under way is abandoned (R257). -/
def swapBegin (p : Nat) (c : Chip) : Chip :=
  modPort p (fun x => { x with swapStep := 1, susp := x.susp || inForce c p, neg := none })
    (((c.wrB (F.CPp_STAT_SWAPHOLD p) true).wrB (F.CPp_DIAG_RUN p) false).wrB (F.CPp_PST_CON p) false)

/-- Both ends leave SWAP_WAIT or READY toward the swap (R267). -/
def toSwap (p : Nat) (c : Chip) : Chip := setPst p (if inSource c p then pSWAPOFF else pSWAPON) c

/-- OFFER_RECEIVED (R267, R269). -/
def offerReceived (t : Time) (p : Nat) (objs : List Nat) (c : Chip) : Chip :=
  if !([pSNKWAITCAP, pSNKNOCON, pSNKREADY].contains (pst c p)) || !talks c p then unexpected t p c
  else if objs.any fun o => bits o 29 28 == 0 then contractError t p c
  else
    let c := modPort p (fun x => { x with offRx := objs, capExp := 0 }) (answered p tyGETCAPS c)
    let c := if (port c p).ident.isSome then c else sendIdent p c
    match request p c with
    | some c => c
    | none => setPst p pSNKNOCON (setRun t false false p (irq t 0x13 18 (contractEnd t p c)))

/-- REQUEST_RECEIVED (R270, R273). -/
def requestReceived (t : Time) (p w : Nat) (c : Chip) : Chip :=
  if c.flt.biv then bivReject p c
  else if !([pSRCOFFER, pSRCTRANS, pSRCREADY].contains (pst c p)) || !talks c p then unexpected t p c
  else
    let c := answered p tyOFFER c
    match judgeRequest c p w with
    | .wait => say p tyWAIT [] c
    | .error => contractError t p c
    | .reject => say p tyREJECT [] c
    | .accept =>
      let retarget := decide (pst c p = pSRCTRANS) && (port c p).neg.map conVreq != some (conVreq w)
      let c := if retarget then c.count (F.CPp_PST_RETGT p) else c
      setPst p pSRCTRANS (say p tyACCEPT [] (modPort p (fun x => { x with neg := some (turnDir w % 2 ^ 26) }) c))

/-- ACCEPT_RECEIVED. -/
def acceptReceived (t : Time) (p : Nat) (c : Chip) : Chip :=
  if !talks c p then c
  else if pst c p = pSNKREQ then
    setPst p pSNKTRANS (modPort p (fun x => { x with neg := some x.req, resend := false }) (answered p tyREQUEST c))
  else if pst c p = pSWAPWAIT then swapBegin p (toSwap p (answered p tySWAP c))
  else if pst c p = pSRESET then softReset t p c
  else if (port c p).yielded then modPort p (fun x => { x with yielded := false }) c
  else contractError t p c

/-- REJECT_RECEIVED. -/
def rejectReceived (t : Time) (p : Nat) (c : Chip) : Chip :=
  if !talks c p then c
  else if pst c p = pSNKREQ then
    irq t 0x13 18 (setPst p (if inForce c p then pSNKREADY else pSNKNOCON) (answered p tyREQUEST c))
  else if pst c p = pSWAPWAIT then setPst p (port c p).back (answered p tySWAP c)
  else if (port c p).yielded then modPort p (fun x => { x with yielded := false }) c
  else contractError t p c

/-- WAIT_RECEIVED: the timer of the REQUEST restarts, and the REQUEST goes out again after 100 ms (R267, R275). -/
def waitReceived (t : Time) (p : Nat) (c : Chip) : Chip :=
  if !talks c p then c
  else if pst c p = pSNKREQ then modPort p (fun x => { x with resend := true }) c
  else if pst c p = pSWAPWAIT then setPst p (port c p).back (answered p tySWAP c)
  else if (port c p).yielded then modPort p (fun x => { x with yielded := false }) c
  else contractError t p c

/-- WAIT_RESEND, 100 ms after the WAIT. -/
def waitResend (t : Time) (p : Nat) (c : Chip) : Chip :=
  if talks c p && pst c p == pSNKREQ && (port c p).resend && decide ((port c p).clk.resendAt + 40000000 ≤ t.tick) then
    say p tyREQUEST [(port c p).req] (modPort p (fun x => { x with resend := false }) c)
  else c

/-- NOTSUPP_RECEIVED. -/
def notsuppReceived (t : Time) (p : Nat) (c : Chip) : Chip :=
  if !talks c p then c
  else if pst c p = pSWAPWAIT then setPst p (port c p).back (answered p tySWAP c)
  else if (port c p).yielded then modPort p (fun x => { x with yielded := false }) c
  else contractError t p c

/-- READY_RECEIVED: the sink's contract comes into force (R271), or a swap goes on (R280). -/
def readyReceived (t : Time) (p : Nat) (c : Chip) : Chip :=
  if !talks c p then c
  else if pst c p = pSNKTRANS then readyState p pSNKREADY (contractStart t p c)
  else if pst c p = pSWAPON ∧ (port c p).swapStep = 1 then
    let v := lineTarget c p
    let c := modPort p (fun x => { x with vref := v, vtgt := v, vAt := t.tick, src := true, swapStep := 2 }) (setRun t false false p c)
    setRun t true true p (c.wrB (F.CPp_PST_ROLE p) true)
  else if pst c p = pSWAPOFF ∧ (port c p).swapStep = 2 then
    let c := setRun t false false p (irq t 0x13 19 (releaseHold p c))
    waitCap p (modPort p (fun x => { x with swapStep := 0, yielded := false }) c)
  else contractError t p c

/-- GETCAPS_RECEIVED. -/
def getcapsReceived (t : Time) (p : Nat) (c : Chip) : Chip :=
  if c.flt.biv then bivReject p c
  else if talks c p && (pst c p == pSRCOFFER || pst c p == pSRCREADY) then sendOffer p c
  else unexpected t p c

/-- The conditions of R279 but for the policy's state. -/
def swapMet (c : Chip) (p : Nat) : Bool :=
  c.flag (F.CPp_PCFG_SWAPEN p) && c.rd (F.CPp_CFG_ROLE p) == 3 && c.flag (F.CPp_PST_PDRP p) && c.flag (F.CPp_PST_IDOK p)

/-- A SWAP is answered under R279: ACCEPT or REJECT. -/
def answerSwap (p back : Nat) (c : Chip) : Chip :=
  if swapMet c p then toSwap p (say p tyACCEPT [] c) else setPst p back (say p tyREJECT [] c)

/-- The partner's identity. -/
def partnerId (c : Chip) (p : Nat) : Nat := c.rdR (R.CPp_PID_LO p) + 2 ^ 32 * c.rdR (R.CPp_PID_HI p)

/-- Equal identities: both ends send hard reset, kind 0x20 (R281, R283). -/
def sameIdentity (t : Time) (p : Nat) (c : Chip) : Chip := commandHr p (polFault t p 0x20 c)

/-- SWAP_RECEIVED (R279, R281). -/
def swapReceived (t : Time) (p : Nat) (c : Chip) : Chip :=
  if c.flt.biv then bivReject p c
  else if !talks c p then c
  else
    let s := pst c p
    if s = pSRCREADY ∨ s = pSNKREADY then answerSwap p s c
    else if s = pSRCOFFER ∨ s = pSRCTRANS ∨ s = pSNKREQ ∨ s = pSNKTRANS then say p tyWAIT [] c
    else if s = pSWAPWAIT then
      if carId c = partnerId c p then sameIdentity t p c
      else if partnerId c p < carId c then c
      else answerSwap p (port c p).back (modPort p (fun x => { x with yielded := true, queue := x.queue.filter (·.ty != tySWAP) }) (answered p tySWAP c))
    else contractError t p c

/-- SRESET_RECEIVED: answered with ACCEPT, the contract suspended (R276); on a swap a hard reset (R289). -/
def sresetReceived (t : Time) (p : Nat) (c : Chip) : Chip :=
  if !talks c p then c
  else if pst c p = pSWAPOFF ∨ pst c p = pSWAPON then contractError t p c
  else softReset t p (say p tyACCEPT [] (irq t 0x13 21 c))

/-- The context of port `p` is that of the partner with an identity (R24, R28): one that came without an identity takes it where
the identity has none of its own, bound or lingering; else it is given up for that one, and one that held another identity
lingers. -/
def identify (t : Time) (p id : Nat) (c : Chip) : Chip :=
  let i := c.rd (F.CPp_PST_CTX p)
  if i = 0xFF ∨ (ctx c i).id = id then c
  else
    let known := (ctxFind c fun _ x => x.state != ctxFREE && x.id == id).isSome || (bindingOf c id).isSome
    if (ctx c i).id ≠ provisional p then portRequest t p id (capDetached t i (ctxToBus t i false (ctxDetach t i c)))
    else if known then portRequest t p id (entryClear (ctxModule (ctx c i)) (ctxClear i (capReclaimed i c)))
    else setCtx i { ctx c i with id := id } c

/-- IDENT_RECEIVED: the partner's identity goes to its context and CPp_PID; in SRC_OFFER the own IDENT answers (R267, R283). A
partner whose identity is refused a context is sent nothing more, and what was agreed with it ends (R283). -/
def identReceived (t : Time) (p : Nat) (objs : List Nat) (c : Chip) : Chip :=
  let lo := objs.getD 0 0
  let hi := objs.getD 1 0
  let w := objs.getD 2 0
  if !talks c p then c
  else if lo + 2 ^ 32 * hi = carId c then sameIdentity t p c
  else
    let c := answered p tyIDENT c
    let id := lo % 2 ^ 32 + 2 ^ 32 * (hi % 2 ^ 32)
    let c := identify t p id c
    let i := c.rd (F.CPp_PST_CTX p)
    if (port c p).refused then setPst p pDETACHED (endAndDischarge t p (showPid p 0 c))
    else
      let c := if i = 0xFF then c else
        setCtx i { ctx c i with data := setBits (ctx c i).data 95 0 (id + 2 ^ 64 * (w % 2 ^ 32)), last := t.stamps } c
      let c := ((showPid p id c).wrB (F.CPp_PST_PDRP p) (bit w 14)).wrB (F.CPp_PST_IDOK p) true
      if pst c p = pSRCOFFER then sendIdent p c else c

/-- A received message is written to the recorder as an event in every case (R284, R288): the EVENT record of its bit, once. -/
def eventAlways (t : Time) (b : Nat) (c : Chip) : Chip :=
  let n := c.due.length
  let c := irq t 0x13 b c
  if recOn c && !(c.due.drop n).any (fun d => match d with | .event pg bt _ _ => pg == 0x13 && bt == b | _ => false) then
    c.push (.event 0x13 b (c.rdR (irqRaw 0x13)) t.stamps)
  else c

/-- INTENT_RECEIVED (R284). -/
def intentReceived (t : Time) (p : Nat) (objs : List Nat) (c : Chip) : Chip :=
  if !(portOn c p && attached c p) then c
  else
    let c := eventAlways t 23 c
    let pct := c.rd (F.CPp_PCFG_INTPCT p)
    if polOn c p && inForce c p && pct != 0 && !isStandby c then
      loadIntent t 2 (ownAddr c 63 (16 + p)) (divEven (toInt 32 (objs.getD 1 0) * pct) 100)
        (stampOfNs t c (objs.getD 2 0 + 2 ^ 32 * objs.getD 3 0)) c
    else c

/-- A GAP passes to BUS as a coupler notice with its ID remapped, and on to other ports and shelves (R285). `from_`: the port
it arrived on; none from another shelf. -/
def gapMessage (t : Time) (from_ : Option Nat) (objs : List Nat) (c : Chip) : Chip :=
  let w := objs.getD 0 0
  let id := w % 16
  let origin := objs.getD 3 0
  let ns := objs.getD 1 0 + 2 ^ 32 * objs.getD 2 0
  let dur := bits w 27 4
  let queued := fun n => c.bus.notices.any fun x => x.coupler && x.id == n
  let mapped := (c.cpt.idMap.find? fun e => e.1 == origin && e.2.1 == id && queued e.2.2).map fun e => e.2.2
  let c :=
    if bit w 28 then (match mapped with | some n => cancelNotice t n c | none => c)
    else if mapped.isSome then c
    else
      let n := (((List.range 8).map (· + 8)).find? fun n => !queued n).getD 15
      let c := { c with cpt := { c.cpt with idMap := ((c.cpt.idMap.filter fun e => e.2.2 != n) ++ [(origin, id, n)]) } }
      postNotice t true n dur (stampOfNs t c ns) c
  let live := c.cpt.passed.filter fun e => decide (t.ns.toNat < e.2.2)
  if !c.flag F.CPT_POL_GAPRELAY || origin == c.rdR R.CAP_ID_LO || live.any (fun e => e.1 == origin && e.2.1 == id) || isStandby c then c
  else
    let pairs := live ++ [(origin, id, ns + dur * 1000000)]
    let c := { c with cpt := { c.cpt with passed := pairs.drop (pairs.length - 8) } }
    let c := c.forAll ((List.range 4).filter fun q => some q != from_ && isTrunk c q && inForce c q) fun q => pktSend q tyGAP objs
    if from_.isSome then toPeers t 0x34 objs c else c

/-- GAP_RECEIVED (R285). -/
def gapReceived (t : Time) (p : Nat) (objs : List Nat) (c : Chip) : Chip :=
  if !(portOn c p && attached c p) then c
  else
    let c := eventAlways t 24 c
    if polOn c p then gapMessage t (some p) objs c else c

/-! ### Relays and the mailbox (R286, R287) -/

/-- The objects that CAP has handed over leave as RELAY on every trunk port with a contract in force, with HOPS raised by 1
(R286); those of a car head also in C2 frames to the other shelves of the car, for their ports (R149). None goes back the way it
came in. -/
def capFlush (t : Time) (c : Chip) : Chip :=
  let c' := modCap (fun x => { x with outbox := [] }) c
  let goes := fun (o : CapObj) (v : Via) => some v != o.from_ && (o.dest.isNone || o.dest == some v)
  if isStandby c then c'
  else c'.forAll c.cap.outbox fun o c =>
    let c := c.forAll ((List.range 4).filter fun q => cptOn c && goes o (.port q) && isTrunk c q && inForce c q) fun q =>
      pktSend q tyRELAY ((o.kind + min 15 (o.hops + 1) * 16 + o.away.toNat * 256) :: o.words)
    if isCarHead c || c.flag F.CAP_CTL_DEPOT then
      c.forAll ((peers c).filter fun i => goes o (.link i)) fun i => sendTo t i 2 (0x2F + o.kind) o.words
    else c

/-- RELAY_RECEIVED: the object goes to the CAP of the car head; on a branch port, or with XPATH = 1, it is dropped (R286). -/
def relayReceived (t : Time) (p : Nat) (objs : List Nat) (c : Chip) : Chip :=
  let h := objs.headD 0
  let words := objs.drop 1
  if !(polOn c p && attached c p) then c
  else if !isTrunk c p || c.flag F.CAP_CTL_XPATH then c.count (F.CPp_CNT_DISC p)
  else
    let c := irq t 0x13 25 c
    if isCarHead c || c.flag F.CAP_CTL_DEPOT then
      let n := c.cap.outbox.length
      let c := match h % 4 with
        | 1 => grantObject t (some (.port p)) words c
        | 2 => reportObject t (some (.port p)) words c
        | 3 => electObject t (some (.port p)) words c
        | _ => c
      modCap (fun x => { x with outbox := x.outbox.take n ++ (x.outbox.drop n).map fun o =>
        if o.words = words then { o with hops := bits h 7 4 } else o }) c
    else match h % 4 with
      | 1 => toHead t 0x30 words c
      | 2 => toHead t 0x31 words c
      | 3 => toHead t 0x32 words c
      | _ => c

/-- UNKNOWN_TYPE_RECEIVED (R267). -/
def unknownReceived (p : Nat) (c : Chip) : Chip := if talks c p then say p tyNOTSUPP [] c else c

/-- The mailbox sends a message of a type on each named port with a contract in force (R287). -/
def mailboxSend (ty ports : Nat) (c : Chip) : Chip :=
  if c.flag F.CPT_TXRES_BUSY then c
  else
    let objs := (List.range 4).map fun n => c.rdR ⟨0x13060 + 4 * n, 0⟩
    let ok := (bitsOf 4 ports).filter fun p => polOn c p && inForce c p && !isStandby c
    let mask := ok.foldl (fun m p => setBit m p true) 0
    let c := { c with cpt := { c.cpt with mail := mask } }
    let c := ((c.wr F.CPT_TXRES_OK 0).wr F.CPT_TXRES_FAIL (ports % 16 - mask)).wrB F.CPT_TXRES_BUSY (mask != 0)
    c.forAll ok fun p c => pktSend p ty objs c true

/-! ### What packets under way tell the policy -/

/-- A packet has been sent for the first time (ET): ACCEPT starts a transition or a swap (R272, R280). -/
def policySent (t : Time) (p : Nat) (k : Pkt) (c : Chip) : Chip :=
  if k.ty ≠ tyACCEPT ∨ !talks c p then c
  else if pst c p = pSRCTRANS then startTransition t p c
  else if (pst c p = pSWAPOFF ∨ pst c p = pSWAPON) ∧ (port c p).swapStep = 0 then swapBegin p c
  else c

/-- A packet has been acknowledged: the source's READY brings the contract into force (R271); the new source's ends the swap
(R280, row 5). -/
def policyAcked (t : Time) (p : Nat) (k : Pkt) (c : Chip) : Chip :=
  let c := if k.mail then mailDone p true c else c
  if k.ty ≠ tyREADY ∨ !talks c p then c
  else if pst c p = pSRCREADY then contractStart t p c
  else if pst c p = pSWAPON ∧ (port c p).swapStep = 3 then
    sendOffer p (modPort p (fun x => { x with swapStep := 0, yielded := false }) (irq t 0x13 19 (releaseHold p c)))
  else c

/-- A reply has not come: kind 0x01 on a trunk port; in SRESET a hard reset, else SRESET (R274). -/
def noReply (t : Time) (p : Nat) (c : Chip) : Chip :=
  if isTrunk c p then
    let c := polFault t p 0x01 c
    if pst c p = pSRESET then commandHr p c else sendSreset t p (modPort p (fun x => { x with resp := [] }) c)
  else forcedDetach t p (polFault t p 0x02 c)

/-- A send has failed: one that needs a reply counts as not answered (R275). -/
def policyFailed (t : Time) (p : Nat) (k : Pkt) (c : Chip) : Chip :=
  let c := if k.mail then mailDone p false c else c
  if talks c p && (port c p).resp.contains k.ty then noReply t p c else c

/-! ### Timers (R274) -/

/-- A message sent `ms` ago or earlier still awaits its reply (R275). -/
def replyLate (t : Time) (c : Chip) (p ms : Nat) : Bool :=
  (port c p).clk.replies.any fun r => (port c p).resp.contains r.1 && decide (r.2 + 400000 * ms ≤ t.tick)

/-- SENDER_RESPONSE_TIMEOUT: trunk ports only. -/
def responseTimeout (t : Time) (p : Nat) (c : Chip) : Chip :=
  if talks c p && isTrunk c p && replyLate t c p (c.rd F.CPT_PTIM_TSRESP) then noReply t p c else c

/-- TRANSITION_TIMEOUT: a transition, and on a branch port a reply. -/
def transitionTimeout (t : Time) (p : Nat) (c : Chip) : Chip :=
  let late := heldFor t (400000 * c.rd F.CPT_PTIM_TTRANS) (port c p).clk.transAt
  if talks c p && ((late && (pst c p == pSRCTRANS || pst c p == pSNKTRANS))
      || (!isTrunk c p && replyLate t c p (c.rd F.CPT_PTIM_TTRANS))) then
    escalate t p (polFault t p 0x02 c)
  else c

/-- SINK_WAIT_CAP_TIMEOUT. -/
def waitCapTimeout (t : Time) (p : Nat) (c : Chip) : Chip :=
  if talks c p && pst c p == pSNKWAITCAP && decide ((port c p).clk.capAt + 4000000 * c.rd F.CPT_PTIM_TSINKCAP ≤ t.tick) then
    let n := (port c p).capExp + 1
    if 3 ≤ n then escalate t p c else say p tyGETCAPS [] (modPort p (fun x => { x with capExp := n }) c)
  else c

/-- SWAP_OFF_TIMEOUT, SWAP_ON_TIMEOUT: the swap fails. -/
def swapTimeout (t : Time) (p step : Nat) (c : Chip) : Chip :=
  let ms := if step = 1 then c.rd F.CPT_PTIM2_TSWAPOFF else c.rd F.CPT_PTIM2_TSWAPON
  if t.tick < (port c p).clk.swapAt + 400000 * ms then c
  else if talks c p && (pst c p == pSWAPOFF || pst c p == pSWAPON) && (port c p).swapStep == step then
    escalate t p (polFault t p 0x08 (irq t 0x13 20 c))
  else c

/-- SAFE0_TIMEOUT: BLOCKED, cause 2. Not judged in the Bivouac (R288). -/
def safe0Timeout (t : Time) (p : Nat) (c : Chip) : Chip :=
  if portOn c p && (port c p).disch && !c.flt.biv && decide ((port c p).clk.dischAt + 4000000 * c.rd F.CPT_PTIM_TSAFE0 ≤ t.tick) then block t p 2 (polFault t p 0x10 c) else c

/-- REQ_RETRY_TIMEOUT. -/
def reqRetryTimeout (t : Time) (p : Nat) (c : Chip) : Chip :=
  if talks c p && pst c p == pSNKNOCON && decide ((port c p).clk.stAt + 40000000 * c.rd F.CPT_PTIM2_TREQRETRY ≤ t.tick) then waitCap p (say p tyGETCAPS [] c) else c

/-! ### The line (R272, R277, R280) -/

/-- The line reads within VTOL of the target (R272). -/
def lineInBand (c : Chip) (p : Nat) : Bool :=
  let v : Int := divEven (((port c p).vtgt : Int) * 2 ^ 20) 400000
  let tol : Int := (c.rd (F.CPp_VCTL_VTOL p) * 10 * 2 ^ 20 : Nat)
  decide (v - tol ≤ lineVolts c p) && decide (lineVolts c p ≤ v + tol)

/-- Every line reading for 1 ms has met a condition, since `at_`; a line without an input has no readings and reads 0 from `start`
on (R101, R272, R277). -/
def readingsFor (t : Time) (c : Chip) (p : Nat) (at_ : Option Nat) (start : Nat) : Bool :=
  let s := c.rd (F.CPp_LMON_SRC p)
  let named := decide (s ≤ 0x0F) || (decide (0x20 ≤ s) && decide (s ≤ 0x3F))
  if named then heldFor t 400000 at_ else decide (start + 400000 ≤ t.tick)

/-- SOURCE_SETTLED: reference 2p equals VREQ and the line has stayed within VTOL for 1 ms; READY is sent. -/
def sourceSettled (t : Time) (p : Nat) (c : Chip) : Chip :=
  let c := slewLine t p c
  let x := port c p
  let inBand := x.srcRun && x.vref == x.vtgt && lineInBand c p && readingsFor t c p x.clk.bandAt (x.clk.transAt.getD x.clk.swapAt)
  if !talks c p || !inBand then c
  else if pst c p = pSRCTRANS ∧ (x.neg.map fun w => conVreq w * 50 * 400000) = some x.vtgt then
    readyState p pSRCREADY (say p tyREADY [] c)
  else if pst c p = pSWAPON ∧ x.swapStep = 2 then modPort p (fun x => { x with swapStep := 3 }) (say p tyREADY [] c)
  else c

/-- LINE_DISCHARGED: the line has stayed below VSAFE0 for 1 ms; the discharge run stops (R277). -/
def lineDischarged (t : Time) (p : Nat) (c : Chip) : Chip :=
  if portOn c p && (port c p).disch && lineIsSafe c p && readingsFor t c p (port c p).clk.safeAt (port c p).clk.dischAt then
    let c := modPort p (fun x => { x with disch := false, lineSafe := true }) c
    policyAttach t p (irq t 0x13 22 (setRun t false false p c))
  else c

/-- SWAP_LINE_RELEASED: the former source hands over the line with READY (R280, row 2). -/
def swapLineReleased (t : Time) (p : Nat) (c : Chip) : Chip :=
  if talks c p && pst c p == pSWAPOFF && (port c p).swapStep == 1 then
    let c := setRun t false true p (setRun t true false p c)
    let c := modPort p (fun x => { x with src := false, swapStep := 2, vref := 0, vtgt := 0 }) c
    say p tyREADY [] (c.wrB (F.CPp_PST_ROLE p) false)
  else c

/-- A reading of an input: since when the line has stood in band, and below VSAFE0 (R272, R277); ports that wait for a safe line
act on it (R267). -/
def lineReading (t : Time) (code : Nat) (c : Chip) : Chip :=
  if cptOn c then
    c.forAll ((List.range 4).filter fun p => portOn c p && c.rd (F.CPp_LMON_SRC p) == code) fun p c =>
      let c := modPort p (fun x => { x with clk := { x.clk with
        bandAt := sinceTick t (lineInBand c p) x.clk.bandAt, safeAt := sinceTick t (lineIsSafe c p) x.clk.safeAt } }) c
      if polOn c p then policyAttach t p c else c
  else c

/-! ### Host commands (R267, R279) -/

/-- SWAP_COMMAND (R279). -/
def swapCommand (p : Nat) (c : Chip) : Chip :=
  let s := pst c p
  if talks c p && swapMet c p && (s == pSRCREADY || s == pSNKREADY) then
    setPst p pSWAPWAIT (modPort p (fun x => { x with back := s }) (say p tySWAP [] c))
  else c

/-- RENEG_COMMAND. -/
def renegCommand (t : Time) (p : Nat) (c : Chip) : Chip :=
  if !talks c p then c
  else if pst c p = pSRCREADY then sendOffer p c
  else if pst c p = pSNKREADY then (match request p c with | some c => c | none => irq t 0x13 18 c)
  else c

/-- SRESET_COMMAND. -/
def sresetCommand (t : Time) (p : Nat) (c : Chip) : Chip := if talks c p then sendSreset t p c else c

/-- UNBLOCK_COMMAND. -/
def unblockCommand (t : Time) (p : Nat) (c : Chip) : Chip :=
  if polOn c p && pst c p == pBLOCKED && c.rd (F.CPp_PST_CAUSE p) != 3 then forcedDetach t p c else c

/-- IDENT_RESEND (R283): a field of the IDENT sent last has changed. -/
def identResend (p : Nat) (c : Chip) : Chip :=
  if talks c p && (port c p).ident.any (· != identObjs c p) then sendIdent p c else c

/-! ### The times of a port -/

/-- The message types that await a reply (R275). -/
def awaitsReply (ty : Nat) : Bool := [tyOFFER, tyREQUEST, tySWAP, tySRESET, tyGETCAPS, tyIDENT].contains ty

/-- What a command has begun at port `p` counts from the present tick: a pattern, a phase, a send, a wait, a state of the policy
(R234–R241, R244, R254–R256, R274). -/
def portClock (t : Time) (was c : Chip) (p : Nat) : PortClock :=
  let x := port was p
  let y := port c p
  let k := y.clk
  let new := fun (b : Bool) (at_ : Nat) => if b then t.tick else at_
  let moved := pst was p != pst c p
  let sent := match y.waiting with | some m => if x.waiting.isNone then some m.ty else none | none => none
  let again := if y.resend && !x.resend then some tyREQUEST else none
  let replies := k.replies.filter fun r => y.resp.contains r.1 && sent != some r.1 && again != some r.1
  { k with
    patAt := new ((att was p, x.src, was.rd (F.CPp_STAT_WINA p), was.rd (F.CPp_STAT_WINB p))
      != (att c p, y.src, c.rd (F.CPp_STAT_WINA p), c.rd (F.CPp_STAT_WINB p))) k.patAt
    leftAt := sinceTick t (attached c p && !c.flag (F.CPp_STAT_SWAPHOLD p) && (roleWin c p != winSINK || y.unfit)) k.leftAt
    phaseAt := new (att c p == atTOGGLE && (att was p != atTOGGLE || x.src != y.src)) k.phaseAt
    badAt := new (x.bad != y.bad) k.badAt
    forcedAt := new (y.forced && !x.forced) k.forcedAt
    txAt := new ((y.sending.isSome && x.sending.isNone) || (y.hrSending && !x.hrSending)) k.txAt
    waitAt := new (y.waiting.isSome && x.waiting.isNone) k.waitAt
    hrAt := new (y.hr && !x.hr) k.hrAt
    ackAt := new (y.ack.isSome && x.ack != y.ack) k.ackAt
    lineAt := if x.ack.isSome && y.ack.isNone then t.tick + 1600 * y.out.length
      else if x.colls < y.colls then t.tick + (if y.src then 0 else 40000)
      else new ((x.sending.isSome && y.sending.isNone) || (x.hrSending && !y.hrSending) || x.ack != y.ack || x.deliver != y.deliver) k.lineAt
    stAt := new moved k.stAt
    replies := (sent.toList ++ again.toList).eraseDups.filterMap (fun ty => if awaitsReply ty then some (ty, t.tick) else none) ++ replies
    transAt := if moved then (if pst c p = pSNKTRANS then some t.tick else none) else k.transAt
    swapAt := new (x.swapStep != y.swapStep) k.swapAt
    capAt := new ((moved && pst c p == pSNKWAITCAP) || x.capExp != y.capExp) k.capAt
    dischAt := new (y.disch && !x.disch) k.dischAt
    resendAt := new (y.resend && !x.resend) k.resendAt
    bandAt := if x.vtgt = y.vtgt then k.bandAt else none
    safeAt := if y.disch && !x.disch then none else k.safeAt }

/-- The times of every port follow a command. -/
def portsFollow (t : Time) (was c : Chip) : Chip :=
  if !cptOn c then c
  else c.forAll (List.range 4) fun p c => modPort p (fun x => { x with clk := portClock t was c p }) c

/-- The running times of a port begin again at full length (R258, R290). -/
def portRestart (t : Time) (c : Chip) (p : Nat) : PortClock :=
  let n := t.tick
  { patAt := n, phaseAt := n, badAt := n, forcedAt := n, txAt := n, waitAt := n, hrAt := n, ackAt := n, lineAt := n, stAt := n
    replies := (port c p).resp.map fun ty => (ty, n)
    transAt := if pst c p = pSRCTRANS ∨ pst c p = pSNKTRANS then some n else none
    swapAt := n, capAt := n, dischAt := n, resendAt := n }

/-! ### Bivouac, commit, block reset, switchover (R288, R290, R291) -/

/-- Bivouac entry (R288): a port in a transition, a swap or with a contract in force sends hard reset once and is BLOCKED,
cause 3. -/
def cptBivouac (t : Time) (c : Chip) : Chip :=
  c.forAll ((List.range 4).filter fun p => polOn c p) fun p c =>
    let s := pst c p
    let c := if s = pSRCTRANS ∨ s = pSNKTRANS ∨ (pSWAPWAIT ≤ s ∧ s ≤ pSWAPON) ∨ inForce c p then
        block t p 3 (contractEnd t p (commandHr p c))
      else c
    modPort p (fun x => { x with disch := false }) (setRun t false false p (setRun t true false p c))

/-- The policy of port `p` stops: the contract ends and no run is active. -/
def policyStop (t : Time) (p : Nat) (c : Chip) : Chip :=
  let c := setRun t true false p (setRun t false false p (partnerGone t p (contractEnd t p c)))
  let c := modPort p (fun x => { x with disch := false }) c
  setPst p pDISABLED (((c.wr (F.CPp_PST_CAUSE p) 0).wrB (F.CPp_PST_ROLE p) false).wrB (F.CPp_STAT_SWAPHOLD p) false)

/-- A timer field lies outside its range (R274): the offset of its register. -/
def judgeTimers (c : Chip) : Option Nat :=
  if c.rd F.CPT_PTIM_TTRANS < 5 ∨ c.rd F.CPT_PTIM_TSRESP < 10 ∨ c.rd F.CPT_PTIM_TSINKCAP < 2 ∨ c.rd F.CPT_PTIM_TSAFE0 < 1 then some 0x50
  else if c.rd F.CPT_PTIM2_TSWAPOFF < 1 ∨ c.rd F.CPT_PTIM2_TSWAPON < 1 ∨ c.rd F.CPT_PTIM2_TREQRETRY < 1 ∨ c.rd F.CPT_PTIM2_HRMAX < 1 then some 0x54
  else none

/-- What the policy refuses a commit for (R291), in order of offset. -/
def judgePolicy (c : Chip) : Option Nat :=
  let on := (List.range 4).filter fun p => c.flag (F.CPp_CFG_EN p)
  let slots := fun p => runSlots c true p ++ runSlots c false p
  match judgeTimers c with
  | some o => some o
  | none => on.findSome? fun p =>
    let b := 0x200 + 0x40 * p
    let n := c.rd (F.CPp_PCFG_NOFF p)
    let mine := slots p
    let others := (on.filter (· != p)).flatMap slots
    if n < 1 ∨ 4 < n ∨ c.rd (F.CPp_PCFG_PMAX p) = 0 ∨ 6 ≤ portGroup c p ∨ c.rd (F.LEG_Gk_CFG_TOPO (portGroup c p)) ≠ 3
        ∨ on.any (fun q => decide (q < p) && portGroup c q == portGroup c p) then some b
    else if c.rd (F.CPp_SLOT_SRCN p) = 0 ∨ c.rd (F.CPp_SLOT_SNKN p) = 0 ∨ mine.any (fun s => decide (31 < s))
        ∨ mine.eraseDups.length ≠ mine.length ∨ mine.any (fun s => others.contains s) then some (b + 4)
    else if (List.range (min 4 n)).any fun m => decide (bits (c.rdR ⟨0x13214 + 0x40 * p + 4 * m, 0⟩) 8 0 ≤ c.rd (F.CPp_VCTL_VSAFE0 p)) then some (b + 0x10)
    else none

/-- After a commit of CPT: ports and policies start and stop, and changed offers and wishes are sent (R267). -/
def cptCommitted (t : Time) (was c : Chip) : Chip :=
  let c := c.forAll (List.range 4) fun p c =>
    let c := if portOn was p ∧ portGroup was p ≠ portGroup c p then holdGroup 1 (portGroup was p) false c else c
    let on := portOn c p
    let c := if portOn was p && !on then
        modPort p (fun x => { x with forced := false, unfit := false }) (enterDisabled p (policyStop t p c))
      else if polOn was p && !polOn c p then policyStop t p c
      else c
    let c := if polOn c p && !polOn was p then setPst p pDETACHED (c.wr (F.CPp_PST_CTX p) 0xFF) else c
    let c := if on && (!portOn was p || (c.rd (F.CPp_CFG_ROLE p) != was.rd (F.CPp_CFG_ROLE p) && !attached c p)) then enterUnattached t p c else c
    let c := if portOn was p || on then holdPort p c else c
    let offers := fun (x : Chip) => (x.rd (F.CPp_PCFG_NOFF p), (List.range 4).map fun n => x.rdR ⟨0x13214 + 0x40 * p + 4 * n, 0⟩)
    let c := if pst c p = pSRCREADY ∧ offers was ≠ offers c then renegCommand t p c else c
    let c := if pst c p = pSNKREADY ∧ was.rdR (R.CPp_SNK p) ≠ c.rdR (R.CPp_SNK p) then renegCommand t p c else c
    policyAttach t p c
  cptRefresh t c

/-- Before a block reset of CPT: every run stops and BUS loses the ports' ranges. -/
def cptDrop (t : Time) (c : Chip) : Chip :=
  let c := c.forAll (List.range 4) fun p c =>
    let c := setRun t true false p (setRun t false false p c)
    setRef (0x60 + 2 * p) 0 (setRef (0x61 + 2 * p) 0 (holdGroup 1 (portGroup c p) false (partnerGone t p c)))
  modBus (fun b => { b with ports := [] }) { c with cpt := {} }

/-- At a switchover the slew goes on from the measured line voltage (R290). -/
def cptSwitchover (t : Time) (c : Chip) : Chip :=
  c.forAll (List.range 4) fun p c =>
    if (port c p).srcRun then modPort p (fun x => { x with vref := lineTarget c p, vAt := t.tick }) c else c

end Sys2Proof.Machine
end

