-- ==== Sys2Proof/Machine/Par.lean ====
section
/-! DEFINITION. PAR: the Stake, the Guyline, states, give-up, handover and the PAIR link (R351–R374). -/

namespace Sys2Proof.Machine

/-- The states of R357. -/
def prSOLO : Nat := 0
@[inherit_doc prSOLO] def prSTART : Nat := 1
@[inherit_doc prSOLO] def prRESYNC : Nat := 2
@[inherit_doc prSOLO] def prSTANDBY : Nat := 3
@[inherit_doc prSOLO] def prCLAIM : Nat := 4
@[inherit_doc prSOLO] def prACTIVE : Nat := 5
@[inherit_doc prSOLO] def prOUT : Nat := 6
@[inherit_doc prSOLO] def prDESYNC : Nat := 7

/-- The state of PAR. -/
def prState (c : Chip) : Nat := c.rd F.PAR_STAT_STATE

/-- PAR goes to a state. -/
def setPr (n : Nat) (c : Chip) : Chip := c.wr F.PAR_STAT_STATE n

/-- The hidden state of PAR changes by `f`. -/
def modPar (f : Par → Par) (c : Chip) : Chip := { c with par := f c.par }

/-- Pair operation is on and the page runs. -/
def pairOn (c : Chip) : Bool := c.blockOn 9 && prState c != prSOLO

/-- This chip holds the Stake; drives GUY (R353). -/
def hasStake (c : Chip) : Bool := c.flag F.PAR_STAT_STAKE
@[inherit_doc hasStake] def drivesGuy (c : Chip) : Bool := c.flag F.PAR_STAT_GUYDRV

/-- A lane of PAIR is up (R363); without a protocol in common PAIR counts as down (R432). -/
def pairUp (c : Chip) : Bool := (c.flag F.PAR_STAT_LANE0 || c.flag F.PAR_STAT_LANE1) && !c.flag F.UPD_STAT_PPMIS

/-- SYNCED becomes `b` (R357). -/
def setSynced (t : Time) (b : Bool) (c : Chip) : Chip :=
  if c.flag F.PAR_STAT_SYNCED = b then c else irq t 9 2 (c.wrB F.PAR_STAT_SYNCED b)

/-! ### Frames (R363) -/

/-- The types that are acknowledged by sequence number. -/
def pairAcked (ty : Nat) : Bool := ty == 0x11 || ty == 0x10 || ty == 0x12 || ty == 0x13

/-- The lane of a frame: lane 0 up to OFFER, ALIGN, APPLIED and SLFRAME, lane 1 else; the other one carries all traffic while its
own is down. -/
def pairLane (c : Chip) (ty : Nat) : Nat :=
  if !c.flag F.PAR_STAT_LANE1 then 0 else if !c.flag F.PAR_STAT_LANE0 then 1 else if ty < 0x10 ∨ ty = 0x11 then 0 else 1

/-- A frame as its lane carries it: K27.7, the header of eight bytes, the payload, their CRC-32 and K29.7. Payload and FLAGS are
free values: the manual does not give them (log 25). -/
def pairSymbols (ty seq ack : Nat) (flags : Byte) (payload : List Byte) : List PairSym :=
  let body := bytesLE 1 ty ++ [flags] ++ bytesLE 2 payload.length ++ bytesLE 2 seq ++ bytesLE 2 ack ++ payload
  [.k277] ++ (body ++ bytesLE 4 (crc32 body).toNat).map .byte ++ [.k297]

/-- A frame goes out on its lane, with the number of the last frame acknowledged; K28.5 fills the idle. -/
def pairPut (f : PairFrame) (c : Chip) : Chip :=
  tickFree (modPar (fun p =>
    let line := pairSymbols f.ty f.seq p.rxSeq (Config.pairFlags c.free) ((Config.pairPayload c.free).take 1024)
    { p with sent := Tab.insert p.sent f.ty f, out := Tab.set [.k285] p.out f.lane line }) c)

/-- A frame is sent on PAIR, when it is up. -/
def pairSend (t : Time) (ty : Nat) (data : List Nat) (c : Chip) (item : Option MirrorItem := none) : Chip :=
  if pairOn c && pairUp c then
    let f : PairFrame := { ty := ty, seq := c.par.seq, data := data, item := item, lane := pairLane c ty, sentAt := t.tick }
    pairPut f (modPar (fun p => { p with
      seq := (p.seq + 1) % 65536, unacked := if pairAcked ty then p.unacked ++ [f] else p.unacked }) c)
  else c

/-- PAIR_FRAME_RESEND: the oldest frame 4 µs without acknowledgement is sent again, up to three times (R363). -/
def pairResend (t : Time) (c : Chip) : Chip :=
  match c.par.unacked.find? fun f => decide (f.sentAt + 1600 ≤ t.tick) with
  | none => c
  | some f =>
    if 3 ≤ f.again then modPar (fun p => { p with unacked := p.unacked.erase f }) c
    else
      let g := { f with again := f.again + 1, lane := pairLane c f.ty, sentAt := t.tick }
      (pairPut g (modPar (fun p => { p with unacked := p.unacked.map fun x => if x = f then g else x }) c)).count F.PAR_CNT_RETX

/-! ### The Stake (R354–R356) -/

/-- The lease is renewed: E becomes now plus LEASE (R354). -/
def renew (t : Time) (c : Chip) : Chip :=
  (modPar (fun p => { p with leaseEnd := t.tick + c.rd F.PAR_TIM_LEASE * 400 }) c).wr F.PAR_STAKE_LEFT (c.rd F.PAR_TIM_LEASE)

/-- PAR_STAKE.LEFT, the lease left in whole µs (R374). -/
def leaseShow (t : Time) (c : Chip) : Chip :=
  if hasStake c then c.wr F.PAR_STAKE_LEFT ((c.par.leaseEnd - t.tick) / 400) else c

/-- The gates are low and ACT_N is deasserted (R353, R360). -/
def stopActing (t : Time) (c : Chip) : Chip :=
  modPar (fun p => { p with gapFrom := t.tick }) (c.wrB F.PAR_STAT_ACT false)

/-- GUY is released and the Stake is gone. -/
def releaseGuy (c : Chip) : Chip :=
  ((c.wrB F.PAR_STAT_GUYDRV false).wrB F.PAR_STAT_STAKE false).wr F.PAR_STAKE_LEFT 0

/-- STAKEGEN rises by 1 (R354). -/
def nextGen (c : Chip) : Chip := c.wr F.PAR_STAKE_GEN (c.rd F.PAR_STAKE_GEN + 1)

/-- STAKE_SEND every LEASE/4 (R354). -/
def stakeSend (t : Time) (c : Chip) : Chip :=
  if pairOn c && hasStake c && periodOver t (100 * c.rd F.PAR_TIM_LEASE) c.par.stakeAt then
    pairSend t 0x02 [c.rd F.PAR_STAKE_GEN] (modPar (fun p => { p with stakeAt := some t.tick }) c)
  else c

/-- STAKE_RECEIVED: answered with STAKE ACK; the partner's lease runs anew (R354, R355). -/
def stakeReceived (t : Time) (gen : Nat) (c : Chip) : Chip :=
  if pairOn c && !hasStake c then
    pairSend t 0x03 [gen] (modPar (fun p => { p with ackAt := t.tick, lapsed := false, offered := false }) (c.wr F.PAR_STAKE_GEN gen))
  else c

/-- LEASE_LAPSE: once E has passed the lease lapses; GUY is released and ACT_N deasserted (R353, R354). -/
def leaseLapse (t : Time) (c : Chip) : Chip :=
  if pairOn c && hasStake c && decide (c.par.leaseEnd ≤ t.tick) then releaseGuy (stopActing t c) else c

/-- STAKE_ACK_RECEIVED renews the lease; in the tick in which E passes, it lapses (R354, R372). -/
def stakeAck (t : Time) (c : Chip) : Chip :=
  if pairOn c && hasStake c then (if c.par.leaseEnd ≤ t.tick then leaseLapse t c else renew t c) else c

/-- The partner can take the Stake, as its IDLE frames report (R354, R356). -/
def peerMayTake (c : Chip) : Bool :=
  c.flag F.PAR_PEER_VALID && ((c.rd F.PAR_PEER_STATE == prSTANDBY && c.flag F.PAR_PEER_SYNCED)
    || (c.rd F.PAR_PEER_STATE == prDESYNC && c.flag F.PAR_CTL_COLD))

/-- SELF_RENEW every LEASE/4 (R354). -/
def selfRenew (t : Time) (c : Chip) : Chip :=
  if prState c != prSOLO && hasStake c && drivesGuy c && (c.flt.biv || (c.blockOn 9 && (!pairUp c || !peerMayTake c)))
      && periodOver t (100 * c.rd F.PAR_TIM_LEASE) c.par.renewAt then
    renew t (modPar (fun p => { p with renewAt := some t.tick }) c)
  else c

/-- This chip may take the Stake (R356). -/
def mayTake (c : Chip) : Bool :=
  (prState c == prSTANDBY && c.flag F.PAR_STAT_SYNCED) || (prState c == prDESYNC && c.flag F.PAR_CTL_COLD)

/-- PARTNER_LEASE_LAPSED (R355): LEASE + GUARD after the last STAKE ACK sent. -/
def partnerLapsed (t : Time) (c : Chip) : Chip :=
  if pairOn c && !hasStake c && decide (c.par.ackAt + (c.rd F.PAR_TIM_LEASE + c.rd F.PAR_TIM_GUARD) * 400 ≤ t.tick) then 
    modPar (fun p => { p with lapsed := true, gapFrom := t.tick }) c
  else c

/-- A Guyline fault with its cause, once per episode (R371, R373). -/
def guyFault (t : Time) (cause : Nat) (c : Chip) : Chip :=
  if c.par.guyEp then c else irq t 9 4 (raise t 0x12 0x04 cause (modPar (fun p => { p with guyEp := true }) c))

/-- GUY is driven low, the Stake taken: CLAIM (R356, R357). -/
def claim (t : Time) (swc : Nat) (c : Chip) : Chip :=
  let c := modPar (fun p => { p with
    swc := swc, lapsed := false, offered := false, claimAt := t.tick, claimOf := prState c }) c
  renew t (setPr prCLAIM (((c.wrB F.PAR_STAT_GUYDRV true).wrB F.PAR_STAT_GUYRD true).wrB F.PAR_STAT_STAKE true))

/-- GUY has read high for GUYFREE, and by `more` µs longer; `highFor`: the ticks for which it has, 0 where it reads low (R356). -/
def guyFree (c : Chip) (highFor more : Nat) : Bool := decide (c.rd F.PAR_TIM_GUYFREE * 40 + more * 400 ≤ highFor)

/-- GUYLINE_CLAIM: after a lapse GUY must have read high for GUYFREE, after a TAKE or an OFFER for 1 µs; a chip that was offered
the Stake claims while it reads low, with kind 0x04 (R356, R371). -/
def guyClaim (t : Time) (highFor : Nat) (c : Chip) : Chip :=
  if !pairOn c || hasStake c then c
  else
    let c := c.wrB F.PAR_STAT_GUYRD (highFor == 0)
    if !(mayTake c && (c.par.lapsed || c.par.offered)) then c
    else if c.par.offered then
      if highFor = 0 then claim t 2 (guyFault t 3 c) else if highFor < 400 then c else claim t 2 c
    else if highFor = 0 then guyFault t 2 c
    else if !guyFree c highFor 0 then c
    else if c.flag F.PAR_PEER_VALID && pairUp c && c.flag F.PAR_PEER_GUYDRV then c
    else claim t (if prState c = prDESYNC then 4 else 3) c

/-! ### Switchover (R357, R361, R367, R368) -/

/-- What both chips keep of a switchover: the SWITCH record, kind 0x08, the counter and the cause (R347, R357, R373). The first
claim of position 0 (cause 0) takes over from no chip: the record of R357 alone. -/
def switchNote (t : Time) (newPos cause : Nat) (c : Chip) : Chip :=
  let c := recSwitch t newPos cause c
  if cause = 0 then c else
  let c := raise t 0x12 0x08 cause c
  irq t 9 0 ((c.count F.PAR_CNT_SWITCH).wr F.PAR_CAUSE_SWC cause)

/-- With an invalid shelf-link mirror the new active chip moves every sequence number on (R367). -/
def skipSequences (c : Chip) : Chip :=
  let on := fun x => (x + 0x7FFF) % 65536
  let c := c.forAll (c.ctxs.map Prod.fst) fun i c => let x := ctx c i; setCtx i { x with tx1 := on x.tx1, tx2 := on x.tx2, tx3 := on x.tx3 } c
  c.forAll (List.range 2) fun n => modSeg n (fun s => { s with tx := s.tx.map fun x => (x + 0x7FFF) % 65536 })

/-- A take-over with an invalid mirror (R118, R368): slots are seeded, batteries make a first estimate, coupler ports with a
contract or a transition send hard reset, kind 0x40 cause 1. -/
def coldTakeover (t : Time) (c : Chip) : Chip :=
  let c := c.forAll ((List.range 32).filter (slotOn c)) fun s c => modSlot s (fun x => { x with seedDue := true }) c
  let c := c.forAll (c.bat.mods.map Prod.fst) fun m => modMod m (fun x => { x with firstDue := x.firstDue || x.held })
  let c := c.forAll ((List.range 4).filter fun p => inForce c p || pst c p == pSRCTRANS || pst c p == pSNKTRANS) fun p => commandHr p
  raise t 0x12 0x40 1 (skipSequences c)

/-- ANG at a switchover (R55): the oscillator goes on at its last frequency, and the filter takes over within the slew limit. -/
def angTakes (t : Time) (c : Chip) : Chip := modAng (fun a => { a with lockAt := t.tick, steer := if a.steer = .pll then .slew else a.steer }) c

/-- LEG, AFE and CMP at a switchover (R85): slope windows, holdoff and hold, edge and limit counters and open-wire results
start from zero. -/
def legsTake (t : Time) (c : Chip) : Chip :=
  let c := { c with limRuns := [], fins := c.fins.map fun (e : Nat × Fin16) => (e.1, { e.2 with hist := [], owFail := 0, owPass := 0 }) }
  let c := { c with sins := c.sins.map fun (e : Nat × Sin32) => (e.1, { e.2 with owFail := 0, owPass := 0 }) }
  let c := c.forAll (List.range 6) fun k c =>
    modGroup k (fun g => { g with slopeOn := false, slopeEnd := none, holdEp := false })
      ((c.wrB (F.LEG_Gk_STAT_HOLDOFF k) false).wrB (F.LEG_Gk_STAT_SHEDFRZ k) false)
  let c := c.forAll (List.range 24) fun n c =>
    modCmp n (fun s => { s with winAt := t.tick, limEp := false }) ((c.wr (F.CMP_Cn_STAT_EDGES n) 0).wr (F.CMP_Cn_STAT_LIMRUN n) 0)
  let c := c.forAll (List.range 16) fun n c => c.wrB (F.AFE_FINn_DATA_OPEN n) false
  let c := c.forAll (List.range 32) fun n c => c.wrB (F.AFE_SINn_DATA_OPEN n) false
  (c.wrR R.AFE_OWSTAT_F 0).wrR R.AFE_OWSTAT_S 0

/-- CEN at a switchover (R117): counters, flags and DLYMAX start from zero. -/
def cenTakes (c : Chip) : Chip :=
  c.forAll (List.range 32) fun s c =>
    let c := (((c.wrB (F.CEN_LPs_STAT_SEEDED s) false).wrB (F.CEN_LPs_STAT_OVR s) false).wrB (F.CEN_LPs_STAT_WSAT s) false).wrB (F.CEN_LPs_STAT_SAT s) false
    (c.wrR (R.CEN_LPs_DLYMAX s) 0).wrR (R.CEN_LPs_CNT s) 0

/-- CAP at a switchover (R173): averages, STALE timers, over-budget episodes and shedding progress start from zero. -/
def capTakes (t : Time) (c : Chip) : Chip :=
  let c := modCap (fun p => { p with
    acc := [], meas := [], above := false, overAt := none, repAt := t.tick, gotAt := [(1, t.tick), (2, t.tick), (3, t.tick)], electAt := t.tick, children := p.children.map fun e => (e.1, { e.2 with lastAt := t.tick }) }) c
  c.wr F.CAP_SHEDCFG_NEXT 0

/-- BUS, EFU and BAT at a switchover: take-over timing and episodes of BUS start from zero (R145), so do the counters of EFU
(R196), and open impedance windows and announced steps are abandoned (R223). -/
def powerTakes (t : Time) (c : Chip) : Chip :=
  let c := modBus (fun b => { b with
    takeAt := none, takeLate := false, unmetEp := false, shareEp := 0, uvAt := none, ovAt := none, dipAt := none, unmetAt := none
    offAt := [], sentAt := t.tick, repAt := (List.range 8).map fun n => (n, t.tick)
    rhoAt := t.tick, rampTo := t.tick + 400000 * b.rhoK, freeAt := t.tick }) c
  let c := c.forAll (List.range 16) fun n c => c.wr (F.EFU_CHn_CNT_TRIPS n) 0
  modBat (fun b => { b with dues := [], strs := b.strs.map fun e => (e.1, { e.2 with win := none, is := [], vs := [] }) }) c

/-- SLK, PMB and CTX at a switchover (R318): polls, grants, miss counts and cycles begin anew, and JOINING and LINGER run at full
length. -/
def linksTake (t : Time) (c : Chip) : Chip :=
  let polled := c.ctxs.map fun (e : Nat × Ctx) => (e.1, some t.tick)
  let c := c.forAll (List.range 2) fun n => modSeg n (fun s => { s with
    polls := [], grant := none, left := 0, discAt := some t.tick, timeAt := some t.tick, polled := polled, heardAt := t.tick })
  let dev := fun (d : PmbDev) => { d with okRun := 0, missRun := 0, cycAt := some t.tick }
  let c := { c with xacts := [], pmbDevs := c.pmbDevs.map fun (e : Nat × PmbDev) => (e.1, dev e.2) }
  let full := fun (x : Ctx) => if x.state = ctxJOINING then t.tick + c.rd F.CTX_CTL_JOINTO * 400000
    else if x.state = ctxLINGER then t.tick + c.rd F.CTX_CTL_LINGER * 40000000 else x.tEnd
  { c with ctxs := c.ctxs.map fun (e : Nat × Ctx) => (e.1, { e.2 with missrun := 0, tEnd := full e.2 }) }

/-- CPT at a switchover (R258, R290): chatter counts, test results and a send in progress start from zero; the packet of that
send is still in the mirrored queue. The slew goes on from the measured line voltage. -/
def portsTake (t : Time) (c : Chip) : Chip :=
  let c := c.forAll (List.range 4) fun p c =>
    (modPort p (fun x => { x with
      changes := [], bad := none, leaving := false, passAt := none, unfit := false, sending := none, waiting := none, colls := 0
      tries := 0, ack := none, deliver := none, hrSending := false, clk := portRestart t c p }) c).wrR (R.CPp_DIAG p) 0
  cptSwitchover t c

/-- What every block recomputes from zero as its chip begins to act in place of another (R31, R368). -/
def takeOver (t : Time) (c : Chip) : Chip :=
  portsTake t (linksTake t (powerTakes t (capTakes t (cenTakes (legsTake t (angTakes t c))))))

/-- ACT_N is asserted: this chip acts (R356, R357). The first claim takes over from no chip. -/
def startActing (t : Time) (cause : Nat) (c : Chip) : Chip :=
  let cold := !c.flag F.PAR_STAT_SYNCED
  let c := setPr prACTIVE (c.wrB F.PAR_STAT_ACT true)
  let c := c.wr F.PAR_GAP_LAST (min 65535 (divUp (t.tick - c.par.gapFrom) 40))
  let c := switchNote t (c.rd F.PAR_STAT_POS) cause c
  let c := if cause = 0 then cptSwitchover t c else takeOver t c
  let c := if cold && (cause == 2 || cause == 4) then coldTakeover t c else c
  setSynced t false (modPar (fun p => { p with mirrorBad := false }) c)

/-- Ticks of a period of group `k` (R61). -/
def periodTicks (c : Chip) (k : Nat) : Nat := max 1 (c.rd (F.LEG_Gk_PER_PER k) / 16)

/-- A period boundary of group REFG falls in this tick; any tick will do while the group is not enabled (R356, R361). -/
def atRefBoundary (t : Time) (c : Chip) : Bool :=
  let k := c.rd F.PAR_CTL_REFG
  !groupOn c k || (t.tick - (group c k).periodAt) % periodTicks c k == 0

/-- CLAIM_END, CLAIM after the claim: ACT_N is asserted at the boundary of REFG; when the partner already acts, the chip at position 1 yields (R356,
R372). -/
def claimEnd (t : Time) (c : Chip) : Chip :=
  if !pairOn c || prState c != prCLAIM || c.par.giving.isSome || decide (t.tick < c.par.claimAt + c.rd F.PAR_TIM_CLAIM * 40)
      || !atRefBoundary t c then c
  else if c.flag F.PAR_PEER_VALID && c.rd F.PAR_PEER_STATE == prACTIVE && c.flag F.PAR_PEER_ACT && c.rd F.PAR_STAT_POS == 1 then
    setPr prSTART (releaseGuy c)
  else startActing t c.par.swc c

/-- A part of the copy of RESYNC has come: the slots count their iterations from it (R369). -/
def copyPart (t : Time) (c : Chip) : Chip :=
  modPar (fun p => { p with copyAt := t.tick, iters := (List.range 32).map fun s => (s, c.rd (F.CEN_LPs_CNT_ITER s)) }) c

/-- RESYNC begins: nothing is copied yet (R369). -/
def enterResync (t : Time) (c : Chip) : Chip := copyPart t ((setPr prRESYNC c).wrR R.PAR_SYNC 0)

/-! ### START, IDLE frames (R357, R363, R371) -/

/-- PAIR_START_LISTEN_END: what the 2 ms of listening have shown decides; `highFor`: the ticks for which GUY has read high, which
must be GUYFREE, plus STARTDLY at position 1 (R357). While it is high for less, the chip goes on waiting. -/
def startListenEnd (t : Time) (highFor : Nat) (c : Chip) : Chip :=
  if !pairOn c || prState c != prSTART || decide (t.tick < c.par.listenTo) then c
  else
    let c := c.wrB F.PAR_STAT_GUYRD (highFor == 0)
    if c.flag F.PAR_PEER_VALID then
      if c.rd F.PAR_PEER_STATE = prACTIVE then enterResync t c
      else if c.rd F.PAR_STAT_POS = 0 ∧ !c.par.posEp then claim t 0 (c.wr F.PAR_STAKE_GEN 1)
      else c
    else if highFor = 0 then setPr prDESYNC c
    else if guyFree c highFor (if c.rd F.PAR_STAT_POS = 1 then c.rd F.PAR_CTL_STARTDLY else 0) then claim t 3 c
    else c

/-- PAIR_IDLE_SEND: every 1 µs; GUY is read and judged (R363, R371). -/
def idleSend (t : Time) (guyLow : Bool) (c : Chip) : Chip :=
  if !pairOn c || !periodOver t 400 c.par.idleAt then c
  else
    let c := modPar (fun p => { p with idleAt := some t.tick }) (c.wrB F.PAR_STAT_GUYRD guyLow)
    let peerDrives := c.flag F.PAR_PEER_VALID && c.flag F.PAR_PEER_GUYDRV
    let c :=
      if !guyLow && (drivesGuy c || peerDrives) then guyFault t 1 c
      else if guyLow && !drivesGuy c && !peerDrives && c.par.lapsed then guyFault t 2 c
      else modPar (fun p => { p with guyEp := false }) c
    pairSend t 0x01 [c.rdR R.PAR_STAT, c.rd F.PAR_STAKE_GEN, c.par.rxSeq] c

/-- A lane carries a valid frame: it is up (R363). -/
def laneUp (t : Time) (lane : Nat) (c : Chip) : Chip :=
  let f := if lane = 0 then F.PAR_STAT_LANE0 else F.PAR_STAT_LANE1
  let c := modPar (fun p => { p with laneAt := Tab.set 0 p.laneAt lane t.tick }) c
  if c.flag f then c else irq t 9 3 (c.wrB f true)

/-- A handover is refused or abandoned. -/
def handoverRefused (t : Time) (c : Chip) : Chip :=
  irq t 9 5 (modPar (fun p => { p with offer := none, taken := false }) (c.wrB F.PAR_STAT_HOREF true))

/-- The partner's SYNCED falls in the tick of the host's HANDOVER: it is refused (R372). -/
def offerUnsynced (t : Time) (c : Chip) : Chip :=
  if hasStake c && c.par.offer.isSome && c.par.offerAt == t.tick then handoverRefused t c else c

/-- PAIR_IDLE_RECEIVED: the partner's state, acknowledgements, conflicts, and the moves that wait for an active partner. -/
def idleReceived' (t : Time) (x : PairIdle) (c : Chip) : Chip :=
  if !pairOn c then c
  else
    let c := laneUp t x.lane c
    let c := ((((c.wrB F.PAR_PEER_VALID true).wrB F.PAR_PEER_GUYDRV x.guyDrv).wrB F.PAR_PEER_ACT x.act).wrB F.PAR_PEER_SYNCED x.synced).wr F.PAR_PEER_STATE x.state
    let c := modPar (fun p => { p with unacked := p.unacked.filter fun f => later16 f.seq x.ack }) c
    if x.pos = c.rd F.PAR_STAT_POS then
      if c.par.posEp then c else raise t 0x12 0x08 7 (modPar (fun p => { p with posEp := true }) c)
    else
      let c := modPar (fun p => { p with posEp := false }) c
      let c := if !(x.state == prSTANDBY && x.synced) then offerUnsynced t c else c
      if prState c = prCLAIM ∧ c.par.claimAt = t.tick ∧ x.guyDrv ∧ c.par.swc ≠ 2 ∧ c.par.swc ≠ 0 then
        modPar (fun p => { p with lapsed := true }) (setPr c.par.claimOf (releaseGuy c))
      else if drivesGuy c && x.guyDrv && c.rd F.PAR_STAT_POS == 1 then
        raise t 0x12 0x08 6 (setPr prSTART (releaseGuy (stopActing t c)))
      else if drivesGuy c && x.guyDrv then raise t 0x12 0x08 6 c
      else if x.state = prACTIVE ∧ !x.biv ∧ (prState c = prSTART ∨ prState c = prDESYNC) then enterResync t c
      else if x.state = prSTANDBY ∧ x.synced ∧ acts c then modPar (fun p => { p with mirrorBad := false }) c
      else c

/-- Ranges of PAIR protocols that do not overlap (R424, R432). -/
def ppApart (aMin aMax bMin bMax : Nat) : Bool := decide (aMax < bMin) || decide (bMax < aMin)

/-- The partner reports the range of its running SUP over PAIR: the highest in both is in
use, a new one from the next RESYNC, or none in common (R424, R432). -/
def partnerRange (lo hi : Nat) (resync : Bool) (c : Chip) : Chip :=
  let c := (c.wr F.UPD_PP_PMIN lo).wr F.UPD_PP_PMAX hi
  let top := min hi (c.rd F.UPD_PP_OWNMAX)
  let apart := ppApart lo hi (c.rd F.UPD_PP_OWNMIN) (c.rd F.UPD_PP_OWNMAX)
  let used := c.rd F.UPD_PP_USED
  let stays := !resync && decide (max lo (c.rd F.UPD_PP_OWNMIN) ≤ used) && decide (used ≤ top)
  (c.wrB F.UPD_STAT_PPMIS apart).wr F.UPD_PP_USED (if apart then 0 else if stays then used else top)

/-- PAIR is down: kind 0x02, and the mirror is invalid (R357, R363). -/
def pairLost (t : Time) (c : Chip) : Chip :=
  let c := modPar (fun p => { p with mirrorBad := true, badAt := if p.mirrorBad then p.badAt else some t.tick, unacked := [] }) (raise t 0x12 0x02 0 (c.wrB F.PAR_PEER_VALID false))
  let c := offerUnsynced t c
  if prState c = prSTANDBY then setSynced t false (setPr prDESYNC c) else c

/-- An IDLE frame with the range of PAIR protocols of the partner's SUP: without one in common PAIR is treated as down (R424,
R432). -/
def idleTaken (t : Time) (x : PairIdle) (c : Chip) : Chip :=
  if !pairOn c then c
  else
    let up := pairUp c
    let c := partnerRange x.ppMin x.ppMax (x.state == prRESYNC || prState c == prRESYNC) c
    if !c.flag F.UPD_STAT_PPMIS then idleReceived' t x c
    else if up then pairLost t c
    else c

/-- The frames without acknowledgement that went by a lane that is down go out on the other one (R372). -/
def otherLane (lane : Nat) (c : Chip) : Chip :=
  let l := c.par.unacked.filter (·.lane == lane)
  let c := modPar (fun p => { p with unacked := p.unacked.map fun f => if f.lane = lane then { f with lane := 1 - lane } else f }) c
  c.forAll l fun f c => (pairPut { f with lane := 1 - lane } c).count F.PAR_CNT_RETX

/-- PAIR_LANE_DOWN, LINKTO without a valid frame: kind 0x01; with both lanes down PAIR is down (R357, R363). -/
def laneDown (t : Time) (lane : Nat) (c : Chip) : Chip :=
  let f := if lane = 0 then F.PAR_STAT_LANE0 else F.PAR_STAT_LANE1
  if !pairOn c || !c.flag f || decide (t.tick < Tab.get 0 c.par.laneAt lane + 400 * c.rd F.PAR_TIM2_LINKTO) then c
  else
    let c := raise t 0x12 0x01 lane (irq t 9 3 ((c.wrB f false).count F.PAR_CNT_DOWN))
    if c.flag F.PAR_STAT_LANE0 || c.flag F.PAR_STAT_LANE1 then otherLane lane c else pairLost t c

/-- PWM_ALIGNMENT_LOST: ALIGN, and kind 0x04 of LEG for every group that runs, since the command names none (log 28); SYNCED
falls (R85, R86, R357). -/
def alignLost (t : Time) (c : Chip) : Chip :=
  if pairOn c && (prState c == prSTANDBY || prState c == prRESYNC) then
    let c := (irq t 0x0B 5 c).forAll ((List.range 6).filter (groupOn c)) fun k c => raise t 0x03 0x04 k c
    if prState c = prSTANDBY then setSynced t false (setPr prDESYNC c) else c
  else c

/-- The enabled slots that have run 100 iterations in shadow since the copy (R369). -/
def slotsSettled (c : Chip) : List Nat :=
  (List.range 32).filter fun s => slotOn c s && decide (Tab.get 0 c.par.iters s + 100 ≤ c.rd (F.CEN_LPs_CNT_ITER s))

/-- PAR_SYNC.SLOTS while the copy settles (R374). -/
def syncShow (c : Chip) : Chip := if prState c = prRESYNC then c.wr F.PAR_SYNC_SLOTS (slotsSettled c).length else c

/-- RESYNC_COMPLETE: every enabled slot has run 100 iterations, and SETTLE has passed since the copy (R369). -/
def resyncComplete (t : Time) (c : Chip) : Chip :=
  if pairOn c && prState c == prRESYNC && decide (c.par.copyAt + c.rd F.PAR_TIM2_SETTLE * 400000 ≤ t.tick)
      && (slotsSettled c).length == ((List.range 32).filter (slotOn c)).length then
    let c := modPar (fun p => { p with mirrorBad := false }) c
    setSynced t true (setPr prSTANDBY ((c.wr F.PAR_SYNC_COPY 100).wr F.PAR_SYNC_SLOTS ((List.range 32).filter (slotOn c)).length))
  else c

/-- ALIGN_RECEIVED: the standby slaves its stamp to the active stamp (R55, R363). -/
def alignReceived (s : Stamp) (c : Chip) : Chip :=
  if pairOn c && isStandby c then c.askTime (.follow s) else c

/-- MIRROR_OUTAGE: the mirror has been invalid for more than 1.0 s, which is told once (R367). -/
def mirrorOutage (t : Time) (c : Chip) : Chip :=
  if pairOn c && c.par.mirrorBad && heldFor t 400000001 c.par.badAt then
    raise t 0x12 0x40 2 (modPar (fun p => { p with badAt := none }) c)
  else c

/-- APPLIED_RECEIVED: the values the active chip applied (R117). -/
def appliedReceived (vs : List (Nat × Int)) (c : Chip) : Chip :=
  if pairOn c && isStandby c then c.forAll vs fun v c => { c with mirrored := Tab.set none c.mirrored v.1 (some v.2) } else c

/-! ### Giving up (R358–R360) -/

/-- A give-up cause arises in the tick in which the chip has answered YIELD or OFFER: its TAKE does not go out, and the Stake
stays where it is (R372). -/
def takeWithdrawn (t : Time) (c : Chip) : Chip :=
  if c.par.offered && c.par.offerAt == t.tick then
    (modPar (fun p => { p with offered := false, sent := Tab.erase p.sent 0x05 }) c).wr F.PAR_STAKE_GEN (c.rd F.PAR_STAKE_GEN - 1)
  else c

/-- A give-up cause (R357–R360). -/
def giveUp (t : Time) (cause : Nat) (c : Chip) : Chip :=
  let s := prState c
  if s = prSOLO ∨ s = prOUT ∨ c.par.giving.isSome ∨ c.flag F.PAR_STAT_BIV then c
  else
    let c := if c.rd F.PAR_CAUSE_GIVE = 0 then c.wr F.PAR_CAUSE_GIVE cause else c
    let c := irq t 9 1 (raise t 0x12 0x10 cause c)
    if s = prCLAIM ∨ s = prACTIVE then
      let c := modPar (fun p => { p with giving := some cause, gaveAt := t.tick, offer := none, taken := false }) (stopActing t c)
      pairSend t 0x04 [cause] c
    else if s = prSTART then c
    else setSynced t false (setPr prOUT (takeWithdrawn t c))

/-- YIELD_COMMAND: cause 8 (R358). -/
def yieldCommand (t : Time) (c : Chip) : Chip := if pairOn c then giveUp t 8 c else c

/-- YIELD_RECEIVED: a chip that may take the Stake answers with TAKE (R360). -/
def yieldReceived (t : Time) (c : Chip) : Chip :=
  if !pairOn c || hasStake c then c
  else
    let c := modPar (fun p => { p with lapsed := true, gapFrom := t.tick }) c
    if mayTake c then pairSend t 0x05 [] (nextGen (modPar (fun p => { p with offered := true, offerAt := t.tick }) c)) else c

/-- The other chip of the pair takes over; this one has released GUY (R360, R361). -/
def handedOver (t : Time) (cause : Nat) (c : Chip) : Chip :=
  switchNote t (1 - c.rd F.PAR_STAT_POS) cause (nextGen (releaseGuy c))

/-- TAKE_RECEIVED: a yielding chip releases GUY and is OUT, in the Bivouac where its incident took it there (R360); an offering
chip waits for the boundary (R361). -/
def takeReceived (t : Time) (c : Chip) : Chip :=
  if !pairOn c then c
  else match c.par.giving with
    | some _ =>
      let b := c.par.biv
      let c := setPr prOUT (handedOver t 2 (modPar (fun p => { p with giving := none, biv := none }) c))
      match b with
      | some (cause, src, kind) => c.push (.bivouac cause src kind)
      | none => c
    | none => if c.par.offer.isSome && hasStake c then modPar (fun p => { p with taken := true }) c else c

/-- NO_TAKER_TIMEOUT, LEASE after the YIELD: the chip keeps the Guyline and enters the Bivouac with kind 0x20, acting (R360). -/
def noTaker (t : Time) (c : Chip) : Chip :=
  if prState c != prSOLO && c.par.giving.isSome && decide (c.par.gaveAt + 400 * c.rd F.PAR_TIM_LEASE ≤ t.tick) then
    let c := modPar (fun p => { p with giving := none, biv := none }) c
    let c := renew t (setPr prACTIVE ((c.wrB F.PAR_STAT_ACT true).wrB F.PAR_STAT_BIV true))
    raise t 0x12 0x20 0 c
  else c

/-! ### Planned handover (R361) -/

/-- The first period boundary of REFG at least 50 µs ahead; 50 µs ahead when the group is not enabled. -/
def handoverPoint (t : Time) (c : Chip) : Nat :=
  let k := c.rd F.PAR_CTL_REFG
  if groupOn c k then
    let per := periodTicks c k
    let a := (group c k).periodAt
    a + divUp (t.tick + 20000 - a) per * per
  else t.tick + 20000

/-- HANDOVER_COMMAND. -/
def handoverCommand (t : Time) (c : Chip) : Chip :=
  if !pairOn c then c
  else if prState c == prACTIVE && c.flag F.PAR_STAT_ACT && c.par.giving.isNone && c.flag F.PAR_PEER_VALID
      && c.rd F.PAR_PEER_STATE == prSTANDBY && c.flag F.PAR_PEER_SYNCED then
    let b := handoverPoint t c
    pairSend t 0x06 [b] (modPar (fun p => { p with offer := some b, taken := false, offerAt := t.tick }) (c.wrB F.PAR_STAT_HOREF false))
  else handoverRefused t c

/-- HANDOVER_OFFER_RECEIVED with boundary B, as a tick of this chip. -/
def offerOfStake (t : Time) (b : Nat) (c : Chip) : Chip :=
  if pairOn c && prState c == prSTANDBY && c.flag F.PAR_STAT_SYNCED then
    pairSend t 0x05 [] (modPar (fun p => { p with offer := some b }) c)
  else c

/-- HANDOVER_BOUNDARY: both chips change over in one tick; during a Step Catch the boundary moves (R361, R372). -/
def handoverBoundary (t : Time) (c : Chip) : Chip :=
  let k := c.rd F.PAR_CTL_REFG
  if !pairOn c || c.par.offer.all (fun b => decide (t.tick < b)) || c.flag (F.LEG_Gk_STAT_CATCH k) || !(c.par.offer == some t.tick || atRefBoundary t c) then c
  else if hasStake c then
    if c.par.taken then
      let c := modPar (fun p => { p with offer := none, taken := false }) (stopActing t c)
      setSynced t true (setPr prSTANDBY (handedOver t 1 c))
    else c
  else if prState c = prSTANDBY then
    let c := modPar (fun p => { p with offer := none, gapFrom := t.tick }) c
    startActing t 1 (renew t (nextGen (((c.wrB F.PAR_STAT_GUYDRV true).wrB F.PAR_STAT_GUYRD true).wrB F.PAR_STAT_STAKE true)))
  else c

/-- HANDOVER_ABANDON: no TAKE has come 10 µs before B. -/
def handoverAbandon (t : Time) (c : Chip) : Chip :=
  if pairOn c && hasStake c && c.par.offer.any (fun b => decide (b ≤ t.tick + 4000)) && !c.par.taken then handoverRefused t c else c

/-! ### Start, commit (R357, R362, R364) -/

/-- tGap in 0.1 µs (R362). -/
def gapBound (c : Chip) : Nat :=
  let k := c.rd F.PAR_CTL_REFG
  let tref := if c.flag (F.LEG_Gk_CFG_EN k) then divUp (c.rd (F.LEG_Gk_PER_PER k)) 640 else 0
  c.rd F.PAR_TIM_LEASE * 10 + c.rd F.PAR_TIM_GUARD * 10 + c.rd F.PAR_TIM_GUYFREE + c.rd F.PAR_TIM_CLAIM + tref + 10

/-- What a commit of PAR is refused for (R362, R364), in order of offset. -/
def judgePar (c : Chip) : Option Nat :=
  let ctl := fun n => c.flag (F.SLK_SEGn_CFG_EN n) && !c.flag (F.SLK_SEGn_CFG_MODE n)
  if !c.flag F.PAR_CTL_MODE && ((ctl 0 && ctl 1) || c.flag F.CAP_CTL_CARHC || c.flag F.CAP_CTL_CHC) then some 0x40
  else if 500 < gapBound c then some 0x44
  else none

/-- After a commit of PAR: the bound is reported. -/
def parCommitted (c : Chip) : Chip := c.wr F.PAR_GAP_BOUND (gapBound c)

/-- The shelf is configured (end of start-up phase 2): alone the chip acts, in a pair it listens (R357, R471). -/
def parStart (t : Time) (c : Chip) : Chip :=
  if c.flag F.PAR_CTL_EN then setPr prSTART (modPar (fun p => { p with listenTo := t.tick + 800000 }) c) else (setPr prSOLO c).wrB F.PAR_STAT_ACT true

end Sys2Proof.Machine
end

