-- ==== Sys2Proof/Machine/Flt.lean ====
section
/-! DEFINITION. FLT: bookkeeping, incidents, pins, the Bivouac and the start hold (R375–R400, R511). The reaction stage stands
with the operations. -/

namespace Sys2Proof.Machine

/-- The incident entry of a source. -/
def incident (c : Chip) (s : Nat) : Incident := Tab.get {} c.flt.table s

/-- The hidden state of FLT changes by `f`. -/
def modFlt (f : Flt → Flt) (c : Chip) : Chip := { c with flt := f c.flt }

/-- The incident number after `n` (R386). -/
def nextIncident (n : Nat) : Nat := if n = 0xFFFFFFFF then 1 else n + 1

/-- FAULT_BOOKKEEPING: the first message waiting enters the incident table as its lane decided, and goes to REC (R376, R383). -/
def bookkeep (t : Time) (c : Chip) : Chip :=
  match c.flt.queue with
  | [] => c
  | m :: rest =>
    let c := (modFlt (fun x => { x with queue := rest }) c).wr F.FLT_STAT_QFILL rest.length
    let e : Incident :=
      if m.opened then
        { firstk := m.firstk, kinds := m.kind, taken := m.react, inj := m.inj, qmrg := decide (m.merged ≠ 0), number := c.rdR R.FLT_INCNO
          mcount := m.merged, addr := m.addr, laddr := m.laddr, first := m.at_, last := m.last }
      else
        let e := incident c m.source
        { e with kinds := e.kinds ||| m.kind, taken := e.taken ||| m.react, qmrg := e.qmrg || decide (m.merged ≠ 0)
                 mcount := satAdd 0xFFFFFFFF e.mcount (m.merged + 1), laddr := m.laddr, last := m.last }
    let c := if m.opened then c.wrR R.FLT_INCNO (nextIncident (c.rdR R.FLT_INCNO)) else c
    recFault t m e.number e.mcount (modFlt (fun x => { x with table := Tab.set {} x.table m.source e }) c)

/-- The incident of a source closes; ERR_N follows (R385, R387). -/
def closeIncident (t : Time) (s : Nat) (c : Chip) : Chip :=
  if (lane c s).isOpen then errUpdate t (setLane s { lane c s with isOpen := false, trap := false } c) else c

/-- The host closes the incident of a source. A message of the same tick comes after the close, and opens the next incident
(R397). -/
def closeByHost (t : Time) (s : Nat) (c : Chip) : Chip :=
  match c.flt.queue.find? fun m => m.source == s && m.tick == t.tick with
  | none => closeIncident t s c
  | some m => if m.opened then c else redecide t s true c

/-- INCIDENT_CLOSE: a write of FLT_ICLOSE closes the named incidents without BIV (R385). -/
def hostClose (t : Time) (v : Nat) (c : Chip) : Chip :=
  c.forAll ((List.range 26).filter fun s => decide (1 ≤ s) && bit v s && !bit (lane c s).taken reactBIV) (closeByHost t)

/-- TRAP_HANDLED_CLOSE: the supervisor ends its trap handling of a source's incident (R385). -/
def trapClose (t : Time) (s : Nat) (c : Chip) : Chip :=
  let l := lane c s
  let others := bit l.taken reactINT || bit l.taken reactHNMI || bit l.taken reactERR || bit l.taken reactBIV
  let c := if l.isOpen && l.trap && !others then closeIncident t s c
           else if l.isOpen && l.trap then setLane s { l with trap := false } c else c
  if (List.range 26).any fun s => (lane c s).trap then c else c.wrB F.SUP_STAT_TRAP false

/-- INCIDENT_AUTO_CLOSE: ACLOSE has passed since the incident's last message (R385). A message of the same tick merges all the
same (R397). -/
def autoClose (t : Time) (s : Nat) (c : Chip) : Chip :=
  let x := (lane c s).taken
  let lasts := decide (t.tick < (lane c s).lastAt + c.rd F.FLT_CTL_ACLOSE * 4000000)
  if c.rd F.FLT_CTL_ACLOSE = 0 ∨ lasts ∨ !(lane c s).isOpen ∨ bit x reactINT ∨ bit x reactTRAP ∨ bit x reactHNMI ∨ bit x reactERR ∨ bit x reactBIV then c
  else closeIncident t s (setLane s { lane c s with autoAt := some t.tick } c)

/-- HNMI_PULSE_END: WIDTH has passed since the last HNMI reaction (R388). -/
def hnmiEnd (t : Time) (c : Chip) : Chip :=
  if t.tick < c.flt.hnmiAt + c.rd F.FLT_HNMI_WIDTH * 400 then c else modFlt (fun x => { x with hnmi := false }) c

/-- ERR_MIN_WIDTH_END: MINW has passed since ERR_N was asserted (R387). -/
def errMinEnd (t : Time) (c : Chip) : Chip :=
  if t.tick < c.flt.errAt + c.rd F.FLT_ERR_MINW * 4000 then c else errUpdate t (modFlt (fun x => { x with minRun := false }) c)

/-- FAULT_INJECT: a write of FLT_INJ with GO; ignored while INJEN is 0 (R400). -/
def faultInject (t : Time) (v : Nat) (c : Chip) : Chip :=
  let s := v % 256
  let k := bits v 15 8
  if bit v 31 && c.flag F.FLT_CTL_INJEN && decide (1 ≤ s) && decide (s ≤ 0x19) then raise t s k 0xFFFFFFFF c true else c

/-- The bytes of an incident entry (R386). -/
def incidentBytes (c : Chip) (s : Nat) : List Byte :=
  let e := incident c s
  let st := (lane c s).isOpen.toNat + 2 * e.inj.toNat + 4 * e.qmrg.toNat
  bytesLE 1 s ++ bytesLE 1 e.firstk ++ bytesLE 1 e.kinds ++ bytesLE 1 e.taken ++ bytesLE 1 st ++ bytesLE 3 0 ++ bytesLE 4 e.number
    ++ bytesLE 4 e.mcount ++ bytesLE 4 e.addr ++ bytesLE 4 e.laddr ++ bytesLE 6 e.first.stamp.toNat ++ bytesLE 2 0
    ++ bytesLE 8 e.first.ns.toNat ++ bytesLE 6 e.last.stamp.toNat ++ bytesLE 2 0 ++ bytesLE 8 e.last.ns.toNat ++ bytesLE 8 0

/-- INCIDENT_READ: a read of FLT_IDATA; word 0 latches the entry (R386). -/
def incidentRead (c : Chip) : Chip × Nat :=
  let w := c.rd F.FLT_ISEL_WORD
  let b := incidentBytes c (c.rd F.FLT_ISEL_SRC)
  let c := if w = 0 then modFlt (fun x => { x with latch := (List.range 16).map fun i => leNat ((b.drop (4 * i)).take 4) }) c else c
  (if c.flag F.FLT_ISEL_AUTOINC then c.wr F.FLT_ISEL_WORD (w + 1) else c, c.flt.latch.getD w 0)

/-! ### The Bivouac (R393–R396) -/

/-- Retention flags of an entry (R393, R396). -/
def bivRetain (cause src kind : Nat) (c : Chip) : Chip :=
  let host := decide (cause = 3 ∨ cause = 4)
  let c := ((c.wrB F.FLT_BIVST_BIVPREV true).wr F.FLT_BIVST_CAUSE cause).wr F.FLT_BIVST_SOURCE (if host then 0 else src)
  (c.wr F.FLT_BIVST_KIND (if host then 0 else kind)).count F.FLT_BIVST_COUNT

/-- The entry itself (R394, R395). -/
def bivNow (t : Time) (cause src kind : Nat) (c : Chip) : Chip :=
  let act := acts c
  let c := modFlt (fun x => { x with biv := true, bivCause := cause, bivAt := t.tick, sticky := c.flag F.FLT_CTL_STICKY }) (c.wrB F.FLT_STAT_BIV true)
  let c := irq t 8 1 (errUpdate t (bivRetain cause src kind c))
  let c := legStatus (efToSafe t c)
  let c := if act && cause != 3 then shedAll t c else c
  let c := if cause = 3 then c else cptBivouac t c
  let c := if busOn c then busStop t c else c
  let c := if c.blockOn 0x12 then batDeliver t c else c
  let c := if busOn c then busChanged t c else c
  let c := fireAll (trigEntries c 4 fun _ => true) (src + 256 * kind) cause c
  let c := raise t 0x19 0x10 cause c
  if prState c = prSOLO then c
  else if act then modPar (fun p => { p with offer := none, taken := false }) (c.wrB F.PAR_STAT_BIV true)
  else giveUp t 6 c

/-- Within the Bivouac a further entry only raises COUNT (R393); SAFE's own entry in the tick of another makes one entry, of
cause 3 (R397). -/
def bivAgain (t : Time) (cause : Nat) (c : Chip) : Chip :=
  if cause = 3 ∧ c.flt.bivAt = t.tick then
    modFlt (fun x => { x with bivCause := 3 }) (((c.wr F.FLT_BIVST_CAUSE 3).wr F.FLT_BIVST_SOURCE 0).wr F.FLT_BIVST_KIND 0)
  else if c.flt.bivCause = 3 ∧ c.flt.bivAt = t.tick ∧ cause ≠ 4 then c
  else c.count F.FLT_BIVST_COUNT

/-- Bivouac entry (R393): within the Bivouac only COUNT rises; a chip with a synchronised partner gives up first and is in the
Bivouac once it is OUT; while a give-up waits for its TAKE the entry waits with it (R360, R394). -/
def bivEnter (t : Time) (cause src kind : Nat) (c : Chip) : Chip :=
  if c.flt.biv then bivAgain t cause c
  else if c.par.giving.isSome then
    if c.par.biv.isSome then c else modPar (fun p => { p with biv := some (cause, src, kind) }) c
  else if prState c != prSOLO && c.flag F.PAR_STAT_ACT && cause != 6 && cause != 3 && c.flag F.PAR_PEER_VALID
      && c.rd F.PAR_PEER_STATE == prSTANDBY && c.flag F.PAR_PEER_SYNCED then
    giveUp t 6 (modPar (fun p => { p with biv := some (cause, src, kind) }) c)
  else bivNow t cause src kind c

/-- The cause of an entry that a message has set off: a give-up with no taker is cause 6, an image mismatch at start cause 5, a
lost reference clock cause 3 (R393, R397, R426). -/
def bivCauseOf (cause src kind : Nat) : Nat :=
  if src = 0x12 ∧ bit kind 5 then 6 else if src = 0x15 ∧ bit kind 2 then 5 else if src = 0x19 ∧ bit kind 0 then 3 else cause

/-- BIVOUAC_COMMAND: a write of FLT_BIVCMD (R393). -/
def bivCommand (t : Time) (key : Nat) (c : Chip) : Chip := if key = 0xB1F00001 then bivEnter t 4 0 0 c else c

/-- BIVOUAC_ACK: FLT_BIVST clears and the start hold ends (R396). -/
def bivAck (t : Time) (v : Nat) (c : Chip) : Chip :=
  if bit v 0 then
    let c := modFlt (fun x => { x with held := false, sticky := false }) ((c.wrR R.FLT_BIVST 0).wrB F.FLT_STAT_HELD false)
    errUpdate t (legStatus (efPins (cptRefresh t c)))
  else c

/-! ### Commit and block reset (R382, R387, R391, R511) -/

/-- After a commit of FLT: ERR_N's start cause ends with the first EN = 1; SAFE takes its copy, and the registry's SAFE marks
follow the safety set (R391). -/
def fltCommitted (t : Time) (c : Chip) : Chip :=
  let c := c.onlyIf (capOn c) (regOwn t)
  errUpdate t (efRetain (if c.flag F.FLT_CTL_EN then modFlt (fun x => { x with startErr := false }) c else c))

/-- A soft block reset of FLT restores FLT_CTL, FLT_ERR, FLT_HNMI and FLT_ISEL alone (R511). -/
def fltBlockReset (t : Time) (was c : Chip) : Chip :=
  let keep := fun (r : Reg) (c : Chip) => c.wrR r (was.rdR r)
  let c := c.wrShR R.FLT_SAFESET (was.shR R.FLT_SAFESET)
  errUpdate t (keep R.FLT_STAT (keep R.FLT_SAFESET (keep R.FLT_OPEN (keep R.FLT_INCNO (keep R.FLT_BIVST (keep R.FLT_RSTINC c))))))

/-- FLTMAP selects BRST for a source that may not be reset by its own message (R382): the offset of FLTMAP. -/
def judgeFltmap (c : Chip) (p : Nat) : Option Nat :=
  if (p = 9 ∨ p = 3 ∨ p = 5 ∨ p = 8) ∧ bit (c.rd (F.FLTMAP_REACT0 p)) reactBRST then some 0x1C
  else if p = 8 ∧ bit (c.rd (F.FLTMAP_REACT1 p)) reactBRST then some 0x1C
  else none

end Sys2Proof.Machine
end

