-- ==== Sys2Proof/Machine/Wdg.lean ====
section
/-! DEFINITION. WDG: ticks, the supervisor window, the host cycles and the evidence (R401–R414). -/

namespace Sys2Proof.Machine

/-- The hidden state of WDG changes by `f`. -/
def modWdg (f : Wdg → Wdg) (c : Chip) : Chip := { c with wdg := f c.wdg }

/-- WDG_TICK (R401): 32,768 ticks a second, or the safety oscillator divided by 610. -/
def wdgTick (t : Time) (c : Chip) : Nat :=
  let d := t.tick - c.wdg.baseAt
  (c.wdg.base + (if c.wdg.fallback then d / 12200 else d * 256 / 3125000)) % 2 ^ 32

/-- WDG goes over to an oscillator at the next tick boundary (R401). -/
def wdgOscillator (t : Time) (fallback : Bool) (c : Chip) : Chip :=
  let n := wdgTick t c
  modWdg (fun w => { w with base := n, baseAt := t.tick, fallback := fallback }) c

/-- Ticks from `a` to `b`, modulo 2^32. -/
def tickDiff (b a : Nat) : Nat := (b + 2 ^ 32 - a % 2 ^ 32) % 2 ^ 32

/-- Ticks of the present host cycle at WDG tick `n`; 0 before its first tick (R407, R412). -/
def hostAge (n : Nat) (c : Chip) : Nat := let d := tickDiff n c.wdg.hAt; if d < 2 ^ 31 then d else 0

/-- WDG_TICK, WDG_SSTAT.AGE and WDG_HSTAT.OPEN as they stand now (R414). -/
def wdgShow (t : Time) (c : Chip) : Chip :=
  let n := wdgTick t c
  let opened := c.flag F.WDG_CTL_EN && decide (c.rd F.WDG_HWIN_HOPEN * 2 ^ c.rd F.WDG_CTL_HSCALE ≤ hostAge n c)
  ((c.wrR R.WDG_TICK n).wr F.WDG_SSTAT_AGE (min 65535 (tickDiff n c.wdg.sAt))).wrB F.WDG_HSTAT_OPEN opened

/-- Stamps into four registers from an offset on. -/
def putStamps (off : Nat) (s : Stamps) (c : Chip) : Chip :=
  (((c.wrR ⟨off, 0⟩ s.stamp.cycle).wrR ⟨off + 4, 0⟩ s.stamp.angle).wrR ⟨off + 8, 0⟩ (s.ns.toNat % 2 ^ 32)).wrR ⟨off + 12, 0⟩ (s.ns.toNat / 2 ^ 32)

/-- A failure reaches its evidence block: the first since the last clear writes the block, a later one raises COUNT (R410). A
failure captured in hibernation has no stamps of its own, and HIB tells so. -/
def putEvidence (x : Caught) (c : Chip) : Chip :=
  if c.flag (F.WDG_EVe_KIND_VALID x.block) then c.count (F.WDG_EVe_KIND_COUNT x.block)
  else
    let base := 0x7080 + 0x40 * x.block
    let c := c.wrR (R.WDG_EVe_KIND x.block) (2 ^ 31 + x.here.isNone.toNat * 2 ^ 24 + x.kind * 2 ^ 16 + x.slots)
    let c := (c.wrR (R.WDG_EVe_CODE x.block) x.code).wrR (R.WDG_EVe_TICK x.block) x.tick
    let c := c.wrR (R.WDG_EVe_VER x.block) (c.rdR R.UPD_SUPVER)
    putStamps (base + 0x20) (x.here.getD {}) (putStamps (base + 0x10) (x.last.getD {}) c)

/-- A failure is captured: in its block, and among those of the present tick (R410, R412). -/
def capture (t : Time) (block kind slots code : Nat) (last : Option Stamps) (hib : Bool) (c : Chip) : Chip :=
  let n := wdgTick t c
  let x : Caught := ⟨n, block, kind, slots, code, last, if hib then none else some t.stamps⟩
  putEvidence x (modWdg (fun w => { w with caught := w.caught.filter (fun y => y.tick == n) ++ [x] }) c)

/-- A supervisor failure: evidence, kind, give-up cause 4; a new window starts (R402, R404). -/
def supFailure (t : Time) (kind pc : Nat) (c : Chip) : Chip :=
  let c := capture t 0 kind 0 pc c.wdg.supLast false c
  let c := irq t 7 (if kind = 1 then 0 else 1) (raise t 0x13 kind 0x80 c)
  giveUp t 4 (modWdg (fun w => { w with sAt := wdgTick t c }) c)

/-- Ticks counted against the supervisor window (R402). -/
def supAge (t : Time) (c : Chip) : Nat := tickDiff (wdgTick t c) c.wdg.sAt

/-- The window closes this many ticks after its start (R402, R403). -/
def supClose (c : Chip) : Nat := if c.flag F.WDG_SSTAT_START then 65535 else c.rd F.WDG_SWIN_SCLOSE

/-- While the debug port holds the supervisor halted and the running image permits debug, no tick is counted (R403). -/
def supHalted (t : Time) (halted : Nat) (c : Chip) : Chip :=
  if c.pwr.debug then modWdg (fun w => { w with sAt := (w.sAt + min halted (supAge t c)) % 2 ^ 32 }) c else c

/-- SUPERVISOR_SERVICE with the supervisor's program counter: judged by R402 and R403; in the close tick it is late (R412). The
first service ends the start window, a late one too; the boot ROM of recovery mode serves start windows again and again
(R428). -/
def supService (t : Time) (pc : Nat) (c : Chip) : Chip :=
  let start := c.flag F.WDG_SSTAT_START
  let c' := c.wrB F.WDG_SSTAT_START (start && c.flag F.UPD_STAT_RECOV)
  if supClose c ≤ supAge t c then supFailure t 1 pc c'
  else if !start && decide (supAge t c < c.rd F.WDG_SWIN_SOPEN) then supFailure t 2 pc c
  else modWdg (fun w => { w with sAt := wdgTick t c, supLast := some t.stamps }) c'

/-- SUPERVISOR_SERVICE_LATE: no service by the close tick (R402). -/
def supLate (t : Time) (pc : Nat) (c : Chip) : Chip := if supClose c ≤ supAge t c then supFailure t 1 pc c else c

/-- A character of the UART, 8N1 (R450). -/
def uartChar (b : Byte) : BitVec 10 := 0b1#1 ++ b ++ 0b0#1

/-- The bytes of received characters whose start and stop bits stand (R450). -/
def uartBytes (l : List (BitVec 10)) : List Byte :=
  (l.filter fun x => !x.getLsbD 0 && x.getLsbD 9).map fun x => x.extractLsb' 1 8

/-- The supervisor's log lines leave on UART_TX, and input on UART_RX is taken where the running image and HIF_CTL.UARTIN let it
(R450). -/
def uartRun (log : List Byte) (rx : List (BitVec 10)) (c : Chip) : Chip :=
  let taken := if c.pwr.debug && c.flag F.HIF_CTL_UARTIN then uartBytes rx else []
  { c with uartTx := c.uartTx ++ log.map uartChar, uartRx := c.uartRx ++ taken }

/-- The start window begins (R403). -/
def supStart (t : Time) (c : Chip) : Chip := modWdg (fun w => { w with sAt := wdgTick t c }) (c.wrB F.WDG_SSTAT_START true)

/-- A host cycle starts at WDG tick `n` (R407). -/
def hostCycle (n : Nat) (c : Chip) : Chip := modWdg (fun w => { w with hAt := n % 2 ^ 32 }) (c.wr F.WDG_HSTAT_DONE 0)

/-- The slots that a check-in may come from. -/
def slotsOn (c : Chip) : Nat := c.rd F.WDG_HEN_EN

/-- A host failure: evidence, kind and interrupt (R408, R410). -/
def hostFailure (t : Time) (kind slots addr code slot bit : Nat) (c : Chip) : Chip :=
  let c := capture t 1 kind slots code (Tab.get none c.wdg.slotLast slot) false c
  irq t 7 bit (raise t 0x13 kind addr c)

/-- A check-in is judged in the present cycle (R408). -/
def judgeCheckIn (t : Time) (k site : Nat) (c : Chip) : Chip :=
  let n := wdgTick t c
  if !c.flag F.WDG_CTL_EN || !bit (slotsOn c) k then c
  else if hostAge n c < c.rd F.WDG_HWIN_HOPEN * 2 ^ c.rd F.WDG_CTL_HSCALE then
    hostFailure t 0x10 (2 ^ k) k site k 3 (c.count (F.WDG_TSk_CNT_EARLY k))
  else if bit (c.rd F.WDG_HSTAT_DONE) k then
    let c := irq t 7 4 (c.count (F.WDG_TSk_CNT_STUT k))
    if c.flag F.WDG_CTL_STRICT then
      raise t 0x13 0x08 k (capture t 1 0x08 (2 ^ k) site (Tab.get none c.wdg.slotLast k) false c)
    else c
  else
    let x : Checked := ⟨n, k, site, c.rdR (R.WDG_TSk_SITE k), c.rdR (R.WDG_TSk_LAST k), Tab.get none c.wdg.slotLast k⟩
    let c := ((c.wrR (R.WDG_TSk_SITE k) site).wrR (R.WDG_TSk_LAST k) n).wr F.WDG_HSTAT_DONE (setBit (c.rd F.WDG_HSTAT_DONE) k true)
    modWdg (fun w => { w with slotLast := Tab.set none w.slotLast k (some t.stamps)
                              checked := w.checked.filter (fun y => y.tick == n) ++ [x] }) c

/-- The length of a host cycle in ticks (R407). -/
def hostPeriod (c : Chip) : Nat := max 1 (c.rd F.WDG_HWIN_HPER * 2 ^ c.rd F.WDG_CTL_HSCALE)

/-- A host cycle closes: every enabled slot without an accepted check-in is missing; the close tick starts the next cycle (R407,
R409). Before the close tick nothing happens. In hibernation with HIBRUN the failure waits until CORE runs (R411); the answer
tells whether it wakes the chip. -/
def cycleClose (t : Time) (hib : Bool) (c : Chip) : Chip × Bool :=
  let age := hostAge (wdgTick t c) c
  if !c.flag F.WDG_CTL_EN || (hib && !c.flag F.WDG_CTL_HIBRUN) || decide (age < hostPeriod c) then (c, false)
  else
    let missing := slotsOn c &&& (65535 - c.rd F.WDG_HSTAT_DONE)
    let slots := bitsOf 16 missing
    let c := c.forAll slots fun k c => c.count (F.WDG_TSk_CNT_MISS k)
    let lowest := slots.headD 0
    let c :=
      if missing = 0 then c
      else if hib then
        modWdg (fun w => { w with hibFail := some (missing ||| w.hibFail.getD 0) })
          (capture t 1 0x04 missing (c.rdR (R.WDG_TSk_SITE lowest)) (Tab.get none c.wdg.slotLast lowest) true c)
      else hostFailure t 0x04 missing missing (c.rdR (R.WDG_TSk_SITE lowest)) lowest 2 c
    (hostCycle (c.wdg.hAt + age / hostPeriod c * hostPeriod c) c, hib && decide (missing ≠ 0))

/-- TASK_CHECK_IN: a write of WDG_TSk_SVC (R406); a close of this tick comes first (R412). -/
def checkIn (t : Time) (k site : Nat) (c : Chip) : Chip := judgeCheckIn t k site (cycleClose t false c).1

/-- Hibernate entry: a close or a window end of this tick is judged first (R412); the supervisor's program counter is then
open. -/
def wdgHibernate (t : Time) (c : Chip) : Chip :=
  let c := (cycleClose t false c).1
  let c := if supClose c ≤ supAge t c then
      supFailure t 1 (Config.unstated c.free % 2 ^ 32) { c with free := c.free + 1 } else c
  modWdg (fun w => { w with hibAt := wdgTick t c }) c

/-- A host failure captured in hibernation is raised once CORE runs (R411). -/
def hibFailure (t : Time) (c : Chip) : Chip :=
  match c.wdg.hibFail with
  | none => c
  | some m => irq t 7 2 (raise t 0x13 0x04 m (modWdg (fun w => { w with hibFail := none }) c))

/-- EVIDENCE_CLEAR: a write of WDG_EVCLR clears a block (R410); failures of the same tick come after it (R412). -/
def evidenceClear (t : Time) (v : Nat) (c : Chip) : Chip :=
  let n := wdgTick t c
  let c := c.forAll ((List.range 2).filter (bit v)) fun e c =>
    c.forAll (List.range 12) fun i c => c.wrR ⟨0x7080 + 0x40 * e + 4 * i, 0⟩ 0
  c.forAll (c.wdg.caught.filter fun x => x.tick == n && bit v x.block) putEvidence

/-- What a commit of WDG is refused for (R407). -/
def judgeWdg (c : Chip) : Option Nat :=
  if c.rd F.WDG_HWIN_HPER ≤ c.rd F.WDG_HWIN_HOPEN ∨ c.rd F.WDG_HWIN_HPER < 4 then some 0x4C else none

/-- An accepted check-in is taken back. -/
def unCheck (x : Checked) (c : Chip) : Chip :=
  modWdg (fun w => { w with slotLast := Tab.set none w.slotLast x.slot x.stamp0 })
    ((c.wrR (R.WDG_TSk_SITE x.slot) x.site0).wrR (R.WDG_TSk_LAST x.slot) x.last0)

/-- The commit comes first (R412): the check-ins accepted in its tick are judged in the new cycle. -/
def reCheck (t : Time) (c : Chip) : Chip :=
  let l := c.wdg.checked.filter fun x => x.tick == wdgTick t c
  let c := c.forAll l.reverse unCheck
  (modWdg (fun w => { w with checked := [] }) c).forAll l fun x => judgeCheckIn t x.slot x.site

/-- After a commit of WDG: a new cycle at the first tick after it where R407 names the change. -/
def wdgCommitted (t : Time) (was c : Chip) : Chip :=
  let same := was.rdR R.WDG_HWIN = c.rdR R.WDG_HWIN ∧ was.rd F.WDG_CTL_HSCALE = c.rd F.WDG_CTL_HSCALE ∧ slotsOn was = slotsOn c
  if c.flag F.WDG_CTL_EN ∧ (!was.flag F.WDG_CTL_EN ∨ ¬ same) then reCheck t (hostCycle (wdgTick t c + 1) c) else c

/-- A soft block reset of WDG leaves what AO keeps (R410, R414). -/
def wdgBlockReset (was c : Chip) : Chip :=
  let keep := fun (r : Reg) (c : Chip) => c.wrR r (was.rdR r)
  let c := c.forAll (List.range 2) fun e c => c.forAll (List.range 12) fun i => keep ⟨0x7080 + 0x40 * e + 4 * i, 0⟩
  let c := c.forAll (List.range 16) fun k c => keep (R.WDG_TSk_SITE k) (keep (R.WDG_TSk_LAST k) c)
  (keep R.WDG_SWIN c).wrB F.WDG_SSTAT_START (was.flag F.WDG_SSTAT_START)

/-! ### The supervisor's own reports (R358, R378) -/

/-- LOCKSTEP_MISMATCH: kind 0x01 and give-up cause 1. -/
def lockstep (t : Time) (c : Chip) : Chip := raise t 0x14 0x01 0 (giveUp t 1 c)

/-- UNCORRECTABLE_ERROR in CEN memory (1), context memory (2) or schedule memory (3): its kind and give-up cause 5. -/
def uncorrectable (t : Time) (mem addr : Nat) (c : Chip) : Chip :=
  raise t 0x14 (match mem with | 1 => 0x02 | 2 => 0x04 | _ => 0x08) addr (giveUp t 5 c)

/-- CORRECTABLE_ERROR_BURST: more than 16 corrected errors in 1 s in a memory: 1 CEN, 2 context, 3 schedule, 4 ring. -/
def correctables (t : Time) (mem n : Nat) (c : Chip) : Chip :=
  let f := match mem with | 1 => F.SUP_ECC_CEN | 2 => F.SUP_ECC_CTX | 3 => F.SUP_ECC_SCHED | _ => F.SUP_ECC_RING
  raise t 0x14 0x10 mem (c.count f n)

end Sys2Proof.Machine
end

