-- ==== Sys2Proof/Machine/Upd.lean ====
section
/-! DEFINITION. UPD: images in flash, the security floor, sessions, activation, confirmation, the boot ROM's choice, and the
legacy guards (R415–R434). Banks are numbered as the bits of UPD_BANK: 0 SUP A, 1 SUP B, 2 CE A, 3 CE B. -/

namespace Sys2Proof.Machine

/-- The hidden state of UPD changes by `f`. -/
def modUpd (f : Upd → Upd) (c : Chip) : Chip := { c with upd := f c.upd }

/-! ### Banks and headers (R415–R418) -/

/-- Base and size of a bank. -/
def bankBase (nv : Nv) (b : Nat) : Nat := (Tab.get (0, 0) nv.dir b).1
@[inherit_doc bankBase] def bankSize (nv : Nv) (b : Nat) : Nat := (Tab.get (0, 0) nv.dir b).2

/-- The little-endian number in `n` bytes of a bank from an offset on. -/
def imgNat (nv : Nv) (b off n : Nat) : Nat := leNat (Tab.getMany 0xFF nv.flash (bankBase nv b + off) n)

/-- The bytes of a bank from `lo` to `hi - 1`. -/
def imgBytes (nv : Nv) (b lo hi : Nat) : List Byte := Tab.getMany 0xFF nv.flash (bankBase nv b + lo) (hi - lo)

/-- The kind of a bank: 1 SUP, 2 CE. -/
def bankKind (b : Nat) : Nat := if b < 2 then 1 else 2

/-- Address of a word of the state block (R418). -/
def stateAddr (nv : Nv) (b w : Nat) : Nat := bankBase nv b + bankSize nv b - 4096 + 4 * w

/-- A word of the state block, and whether it has been written. -/
def stateWord (nv : Nv) (b w : Nat) : Nat := leNat (Tab.getMany 0xFF nv.flash (stateAddr nv b w) 4)
@[inherit_doc stateWord] def stateWritten (nv : Nv) (b w : Nat) : Bool := stateWord nv b w != 0xFFFFFFFF

/-- A word of the state block is written. -/
def writeState (b w v : Nat) (nv : Nv) : Nv := { nv with flash := Tab.setMany 0xFF nv.flash (stateAddr nv b w) (bytesLE 4 v) }

/-- VERIFIED, GEN, TRIED, CONFIRMED, REVOKED (R418). -/
def sbVERIFIED : Nat := 0
@[inherit_doc sbVERIFIED] def sbGEN : Nat := 1
@[inherit_doc sbVERIFIED] def sbTRIED : Nat := 2
@[inherit_doc sbVERIFIED] def sbCONFIRMED : Nat := 3
@[inherit_doc sbVERIFIED] def sbREVOKED : Nat := 4

/-- The security floor: the higher of the two rows (R419). -/
def secFloor (nv : Nv) : Nat := max nv.rowA nv.rowB

/-- Row A is burned up to a value, then row B (R419). -/
def raiseFloor (v : Nat) (nv : Nv) : Nv := { nv with rowA := max nv.rowA (min 63 v), rowB := max nv.rowB (min 63 v) }

/-- Header fields of a bank's image (R415). -/
def imgSecver (nv : Nv) (b : Nat) : Nat := imgNat nv b 9 1
@[inherit_doc imgSecver] def imgVersion (nv : Nv) (b : Nat) : Nat := imgNat nv b 12 4
@[inherit_doc imgSecver] def imgLen (nv : Nv) (b : Nat) : Nat := imgNat nv b 16 4
@[inherit_doc imgSecver] def imgCfg (nv : Nv) (b : Nat) : Bool := bit (imgNat nv b 21 1) 1

/-- An image accepts a value of a target when every entry of that target holds it (R416). -/
def imgAccepts (nv : Nv) (b target v : Nat) : Bool :=
  (List.range (imgNat nv b 20 1)).all fun i =>
    imgNat nv b (64 + 8 * i) 1 != target || (decide (imgNat nv b (68 + 8 * i) 2 ≤ v) && decide (v ≤ imgNat nv b (70 + 8 * i) 2))

/-- Two images, a SUP's and a CE's, are compatible: each accepts the other (R416). -/
def supAcceptsCe (nv : Nv) (s e : Nat) : Bool := imgAccepts nv s 2 (imgVersion nv e / 65536)
@[inherit_doc supAcceptsCe] def ceAcceptsSup (nv : Nv) (s e : Nat) : Bool := imgAccepts nv e 1 (imgVersion nv s / 65536)
@[inherit_doc supAcceptsCe] def compatible (nv : Nv) (s e : Nat) : Bool := supAcceptsCe nv s e && ceAcceptsSup nv s e

/-- The header's format: its constants, its reserved bytes and its compatibility entries (R415, R416). -/
def headerOk (nv : Nv) (b : Nat) : Bool :=
  let n := imgNat nv b 20 1
  imgNat nv b 0 4 == 0x474D494F && imgNat nv b 4 2 == 1 && imgNat nv b 6 2 == 256 && decide (imgSecver nv b ≤ 63)
    && decide (1 ≤ n) && decide (n ≤ 8) && decide (imgNat nv b 21 1 < 4) && imgNat nv b 22 10 == 0 && imgNat nv b 136 56 == 0
    && decide (256 ≤ imgLen nv b) && decide (imgLen nv b + 4096 ≤ bankSize nv b)
    && (imgNat nv b 8 1 == 1 || imgNat nv b 10 2 == 0)
    && (List.range n).all fun i => decide (imgNat nv b (64 + 8 * i) 1 ≤ 2) && imgNat nv b (65 + 8 * i) 3 == 0

/-- SIG, DIGEST, and the configuration section's own check (R415, R417) over the bank behind the image. -/
def sigOk (nv : Nv) (b : Nat) : Bool := Config.imageSigned (imgBytes nv b 0 256)
@[inherit_doc sigOk] def digestOk (nv : Nv) (b : Nat) : Bool :=
  sha256 (imgBytes nv b 256 (imgLen nv b)) == imgBytes nv b 32 64
@[inherit_doc sigOk] def sectionOk (nv : Nv) (b : Nat) : Bool :=
  !imgCfg nv b || Config.sectionSigned (imgBytes nv b (divUp (imgLen nv b) 4096 * 4096) (bankSize nv b - 4096))

/-! ### Results (R431) -/

/-- An operation ends with a result. -/
def updEnd (t : Time) (res : Nat) (c : Chip) : Chip :=
  irq t 6 0 ((c.wr F.UPD_RES_RES res).wrB F.UPD_RES_BUSY false)

/-- An operation is refused or fails: result, kind with address, and an interrupt bit. -/
def updRefuse (t : Time) (res kind addr irqBit : Nat) (c : Chip) : Chip :=
  updEnd t res (irq t 6 irqBit (raise t 0x15 kind addr c))

/-- The legacy guard that holds, in the order of R429. -/
def legacyGuard (c : Chip) : Option Nat :=
  if !c.flag F.UPD_CTL_LEGACY || c.flag F.UPD_STAT_RECOV then none
  else if c.flag F.UPD_STAT_MOTION then some 1
  else if c.flag F.BAT_CTL_EN && decide (c.rd F.BAT_SOC_SOC < c.rd F.UPD_GUARD_SOCMIN * 100) then some 2
  else if c.upd.lock.isSome then some 3
  else none

/-- The words of UPD_BANK and UPD_SECV that flash and fuses give (R434). -/
def updShow (nv : Nv) (c : Chip) : Chip :=
  let mask := fun w => (List.range 4).foldl (fun m b => m + (decide (bankSize nv b ≠ 0) && stateWritten nv b w).toNat * 2 ^ b) 0
  (((c.wr F.UPD_BANK_VER (mask sbVERIFIED)).wr F.UPD_BANK_CONF (mask sbCONFIRMED)).wr F.UPD_BANK_REV (mask sbREVOKED)).wr F.UPD_SECV_FLOOR (secFloor nv)

/-! ### Sessions (R421–R423) -/

/-- The idle bank of a kind; in recovery mode bank A (R418, R428). -/
def idleBank (c : Chip) (kind : Nat) : Nat :=
  let b := if kind = 1 then c.rd F.UPD_BANK_SUPB else c.rd F.UPD_BANK_CEB
  2 * (kind - 1) + (if c.flag F.UPD_STAT_RECOV then 0 else 1 - b)

/-- UPDATE_START (R421). -/
def updStart (t : Time) (nv : Nv) (tgt : Nat) (c : Chip) : Chip :=
  let kind := tgt % 4
  let len := c.rdR R.UPD_LEN
  if c.flag F.UPD_RES_OPEN || c.flag F.UPD_RES_BUSY || sealOnly c then updRefuse t 3 0x80 0x4C 3 c
  else match legacyGuard c with
    | some g => updRefuse t 9 0x10 g 4 c
    | none =>
      if kind = 0 ∨ kind = 3 then updRefuse t 4 0x80 0x4C 3 c
      else
        let b := idleBank c kind
        if len < 256 ∨ bankSize nv b < len + 4096 then updRefuse t 4 0x80 0x50 3 c
        else modUpd (fun u => { u with bank := b, len := len, op := some .erase }) ((c.wrB F.UPD_RES_OPEN true).wrB F.UPD_RES_BUSY true)

/-- BANK_ERASE_DONE, well or with an error (R421, R422). -/
def bankErased (t : Time) (ok : Bool) (nv : Nv) (c : Chip) : Nv × Chip :=
  if c.upd.op = some .erase then
    let c := modUpd (fun u => { u with op := none }) c
    if ok then
      let nv := flashErase (bankBase nv c.upd.bank) (bankBase nv c.upd.bank + bankSize nv c.upd.bank) nv
      (nv, updShow nv (updEnd t 0 (c.wrR R.UPD_NEXT 0)))
    else (nv, updRefuse t 7 0x08 0 2 (c.wrB F.UPD_RES_OPEN false))
  else (nv, c)

/-- The 4,096 staged bytes. -/
def updBytes (c : Chip) : List Byte := (Tab.getMany 0 c.upd.staged 0 1024).flatMap fun w => bytesLE 4 w.toNat

/-- A staged word is written or read at UPD_BIDX (R421). -/
def stagedWrite (v : Nat) (c : Chip) : Chip :=
  let w := c.rd F.UPD_BIDX_WORD
  let c := modUpd (fun u => { u with staged := Tab.set 0 u.staged w (BitVec.ofNat 32 v) }) c
  if c.flag F.UPD_BIDX_AUTOINC then c.wr F.UPD_BIDX_WORD (w + 1) else c
@[inherit_doc stagedWrite] def stagedRead (c : Chip) : Chip × Nat :=
  let w := c.rd F.UPD_BIDX_WORD
  (if c.flag F.UPD_BIDX_AUTOINC then c.wr F.UPD_BIDX_WORD (w + 1) else c, (Tab.get 0 c.upd.staged w).toNat)

/-- BLOCK_COMMIT, in the order of R422. -/
def blockCommit (t : Time) (c : Chip) : Chip :=
  let ofs := c.rdR R.UPD_BOFS
  let next := c.rdR R.UPD_NEXT
  if !c.flag F.UPD_RES_OPEN || c.flag F.UPD_RES_BUSY || sealOnly c then updRefuse t 3 0x80 0x64 3 c
  else match legacyGuard c with
    | some g => updRefuse t 9 0x10 g 4 c
    | none =>
      if (crc32 (updBytes c)).toNat ≠ c.rdR R.UPD_BCRC then updRefuse t 5 0x08 ofs 2 c
      else if ofs < c.upd.len ∧ (ofs = next ∨ ofs + 4096 = next) then
        modUpd (fun u => { u with op := some (.block ofs), block := updBytes c, blockAt := t.tick }) (c.wrB F.UPD_RES_BUSY true)
      else updRefuse t 6 0x08 ofs 2 c

/-- BLOCK_PROGRAMMED, well or with an error: not while a seal runs (R422, R423). -/
def blockProgrammed (t : Time) (ok : Bool) (nv : Nv) (c : Chip) : Nv × Chip :=
  match c.upd.op with
  | some (.block ofs) =>
    if c.recd.sealing.isSome then (nv, c)
    else
      let c := modUpd (fun u => { u with op := none }) c
      if ok then
        let nv := { nv with flash := Tab.setMany 0xFF nv.flash (bankBase nv c.upd.bank + ofs) c.upd.block }
        (nv, updEnd t 0 (if ofs = c.rdR R.UPD_NEXT then c.wrR R.UPD_NEXT (ofs + 4096) else c))
      else (nv, updRefuse t 7 0x08 ofs 2 (c.wrB F.UPD_RES_OPEN false))
  | _ => (nv, c)

/-- UPDATE_FINISH (R421). -/
def updFinish (t : Time) (c : Chip) : Chip :=
  if !c.flag F.UPD_RES_OPEN || c.flag F.UPD_RES_BUSY || sealOnly c then updRefuse t 3 0x80 0x4C 3 c
  else modUpd (fun u => { u with op := some .verify }) (c.wrB F.UPD_RES_BUSY true)

/-- UPDATE_ABORT (R421). -/
def updAbort (t : Time) (c : Chip) : Chip :=
  if !c.flag F.UPD_RES_OPEN || sealOnly c then updRefuse t 3 0x80 0x4C 3 c
  else updEnd t 0 (modUpd (fun u => { u with op := none }) (c.wrB F.UPD_RES_OPEN false))

/-- The running bank of the other kind, when an image of it runs. -/
def runningOther (c : Chip) (kind : Nat) : Option Nat :=
  if kind = 1 then (if c.rdR R.UPD_CEVER = 0 then none else some (2 + c.rd F.UPD_BANK_CEB))
  else if c.rdR R.UPD_SUPVER = 0 then none else some (c.rd F.UPD_BANK_SUPB)

/-- The checks of FINISH in order: none when all pass, else result, kind and address (R421, R431). -/
def verifyBank (nv : Nv) (c : Chip) : Option (Nat × Nat × Nat) :=
  let b := c.upd.bank
  let k := bankKind b
  if !headerOk nv b || imgNat nv b 8 1 != k then some (4, 0x80, 0x4C)
  else if !sigOk nv b then some (1, 0x01, k)
  else if !digestOk nv b then some (10, 0x08, 0)
  else if !sectionOk nv b then some (1, 0x01, 1)
  else if imgSecver nv b < secFloor nv then some (2, 0x02, k)
  else if !imgAccepts nv b 0 (c.rd F.UPD_STEP_STEP) then some (11, 0x80, 0x4C)
  else if (runningOther c k).any fun o => !(if k = 1 then compatible nv b o else compatible nv o b) then some (11, 0x80, 0x4C)
  else none

/-- VERIFICATION_DONE: the session ends; VERIFIED is written when every check passes (R421). -/
def verified (t : Time) (nv : Nv) (c : Chip) : Nv × Chip :=
  if c.upd.op = some .verify then
    let c := modUpd (fun u => { u with op := none }) (c.wrB F.UPD_RES_OPEN false)
    match verifyBank nv c with
    | some (res, kind, addr) => (nv, updRefuse t res kind addr 3 c)
    | none =>
      let nv := writeState c.upd.bank sbVERIFIED 0 nv
      (nv, updShow nv (irq t 6 1 (updEnd t 0 c)))
  else (nv, c)

/-! ### The choice of banks (R425, R426) -/

/-- A bank is a candidate (R425). The configuration section of a SUP image counts with it (R417). -/
def candidate (nv : Nv) (c : Chip) (b : Nat) : Bool :=
  decide (bankSize nv b ≠ 0) && stateWritten nv b sbVERIFIED && !stateWritten nv b sbREVOKED && headerOk nv b && imgNat nv b 8 1 == bankKind b
    && decide (secFloor nv ≤ imgSecver nv b) && imgAccepts nv b 0 (c.rd F.UPD_STEP_STEP) && sigOk nv b && digestOk nv b
    && sectionOk nv b

/-- A bank is in trial: activated and not confirmed. -/
def inTrial (nv : Nv) (b : Nat) : Bool := stateWritten nv b sbGEN && !stateWritten nv b sbCONFIRMED

/-- A candidate that may start: confirmed, or in trial with its one start still to come. -/
def startable (nv : Nv) (c : Chip) (b : Nat) : Bool :=
  candidate nv c b && stateWritten nv b sbGEN && (stateWritten nv b sbCONFIRMED || !stateWritten nv b sbTRIED)

/-- The preferred of two banks of a kind: the one in trial, then the highest GEN (R425). -/
def prefer (nv : Nv) (c : Chip) (a b : Nat) : Option Nat × Option Nat :=
  let gen := fun b => stateWord nv b sbGEN
  match startable nv c a, startable nv c b with
  | false, false => (none, none)
  | true, false => (some a, none)
  | false, true => (some b, none)
  | true, true =>
    let first := if inTrial nv a != inTrial nv b then inTrial nv a else decide (gen b ≤ gen a)
    if first then (some a, some b) else (some b, some a)

/-- The combinations in the order in which the ROM tries them (R426). -/
def combinations (s e : Option Nat × Option Nat) : List (Nat × Nat) :=
  [(s.1, e.1), (s.1, e.2), (s.2, e.1), (s.2, e.2)].filterMap fun x => x.1.bind fun a => x.2.map fun b => (a, b)

/-! ### Activation and confirmation (R424, R427) -/

/-- The highest GEN in either bank of a kind. -/
def topGen (nv : Nv) (kind : Nat) : Nat :=
  ([2 * (kind - 1), 2 * (kind - 1) + 1].map fun b => if decide (bankSize nv b ≠ 0) && stateWritten nv b sbGEN then stateWord nv b sbGEN else 0).foldl max 0

/-- The banks that UPD_OP.TGT names: bit 0 SUP B, 1 SUP A, 2 CE B, 3 CE A (R434). -/
def namedBanks (tgt : Nat) : List Nat :=
  (if bit tgt 1 then [0] else []) ++ (if bit tgt 0 then [1] else []) ++ (if bit tgt 3 then [2] else []) ++ (if bit tgt 2 then [3] else [])

/-- UPDATE_ACTIVATE (R424). -/
def activate (t : Time) (tgt : Nat) (nv : Nv) (c : Chip) : Nv × Chip :=
  let l := namedBanks tgt
  let refuse := fun res kind addr b => (nv, updRefuse t res kind addr b c)
  if c.flag F.UPD_RES_BUSY || sealOnly c || l.isEmpty || (l.filter (· < 2)).length == 2 || (l.filter (2 ≤ ·)).length == 2 then
    refuse 3 0x80 0x4C 3
  else match legacyGuard c with
    | some g => refuse 9 0x10 g 4
    | none =>
      if l.any fun b => decide (bankSize nv b = 0) || !stateWritten nv b sbVERIFIED || stateWritten nv b sbREVOKED then refuse 8 0x80 0x4C 3
      else
        let nv' := l.foldl (fun n b => writeState b sbGEN (topGen nv (bankKind b) + 1) n) nv
        let s := prefer nv' c 0 1
        let e := prefer nv' c 2 3
        let ok := (s.1.bind fun a => e.1.map fun b => compatible nv' a b).getD false
        let apart := c.flag F.PAR_CTL_EN && !c.flag F.UPD_STAT_RECOV && c.rd F.UPD_PP_PMAX != 0 && l.any fun b =>
          decide (b < 2) && ppApart (imgNat nv b 10 1) (imgNat nv b 11 1) (c.rd F.UPD_PP_PMIN) (c.rd F.UPD_PP_PMAX)
        if !ok || apart then refuse 8 0x80 0x4C 3 else (nv', updShow nv' (updEnd t 0 c))

/-- The running banks in trial are confirmed (R427): CONFIRMED and the fuses are written as the tick ends, since a chip reset of
the same tick comes first (R433, log 16). -/
def confirmBanks (t : Time) (c : Chip) : Chip :=
  let l := (if c.flag F.UPD_BANK_SUPTRIAL then [c.rd F.UPD_BANK_SUPB] else []) ++ (if c.flag F.UPD_BANK_CETRIAL then [2 + c.rd F.UPD_BANK_CEB] else [])
  if l.isEmpty then c
  else
    let c := modUpd (fun u => { u with confirmed := l }) c
    irq t 6 5 ((c.wrB F.UPD_BANK_SUPTRIAL false).wrB F.UPD_BANK_CETRIAL false)

/-- The tick of a confirmation ends: CONFIRMED is written to each bank, and the floor rises (R420, R427). -/
def confirmEnd (nv : Nv) (c : Chip) : Nv × Chip :=
  let nv := c.upd.confirmed.foldl (fun n b => raiseFloor (imgSecver nv b) (writeState b sbCONFIRMED 0 n)) nv
  (nv, updShow nv (modUpd (fun u => { u with confirmed := [] }) c))

/-- UPDATE_CONFIRM (R427, R428); a chip reset that waits has come first (R433). -/
def confirm (t : Time) (c : Chip) : Chip :=
  if c.pwr.rstReq.isSome then c
  else if c.flag F.UPD_STAT_RECOV || c.flag F.UPD_RES_BUSY || sealOnly c then updRefuse t 3 0x80 0x4C 3 c
  else updEnd t 0 (confirmBanks t c)

/-- AUTO_CONFIRM (R427): CONFT minutes of running have passed; a Bivouac entry in the tick in which they run out still comes
before it (R433). -/
def autoConfirm (t : Time) (c : Chip) : Chip :=
  let ran := c.rd F.SUP_STAT_PHASE == 3 && decide (c.pwr.runFrom + c.rd F.UPD_CTL_CONFT * 24000000000 < t.tick)
  if c.flag F.UPD_CTL_AUTOCONF && ran && !c.flt.biv && !c.flag F.UPD_STAT_RECOV then confirmBanks t c else c

/-! ### Boot (R419, R425, R426, R475) -/

/-- The boot ROM equalises the rows, revokes a trial bank that has had its start, chooses the banks and writes TRIED. The answer
tells the SUP bank, the CE bank, and the image that must change. -/
def bootChoose (t : Time) (nv : Nv) (c : Chip) : Nv × Chip × Option Nat × Option Nat :=
  let nv := raiseFloor (secFloor nv) nv
  let tried := fun (n : Nv) b => decide (bankSize n b ≠ 0) && inTrial n b && stateWritten n b sbTRIED && !stateWritten n b sbREVOKED
  let nv := (List.range 4).foldl (fun n b => if tried n b then writeState b sbREVOKED 0 n else n) nv
  let c := c.forAll ((List.range 4).filter fun b => !candidate nv c b) fun b => raise t 0x15 0x20 (bankKind b + (b % 2) * 256)
  let s := prefer nv c 0 1
  let e := prefer nv c 2 3
  match s.1 with
  | none => (nv, updShow nv c, none, none)
  | some sup =>
    match (combinations s e).find? fun x => compatible nv x.1 x.2 with
    | some (a, b) =>
      let chosen := [a, b]
      let nv := (List.range 4).foldl (fun n x => if startable nv c x && inTrial nv x && !chosen.contains x then writeState x sbREVOKED 0 n else n) nv
      let nv' := chosen.foldl (fun n x => if inTrial n x then writeState x sbTRIED 0 n else n) nv
      let c := c.wrB F.UPD_STAT_FALLBK (decide ((s.1, e.1) ≠ (some a, some b)))
      let c := ((c.wrB F.UPD_BANK_SUPTRIAL (inTrial nv a)).wrB F.UPD_BANK_CETRIAL (inTrial nv b))
      (nv', updShow nv' c, some a, some b)
    | none =>
      let must := match e.1 with
        | none => 2
        | some ce => if supAcceptsCe nv sup ce && !ceAcceptsSup nv sup ce then 1 else 2
      let nv' := if inTrial nv sup then writeState sup sbTRIED 0 nv else nv
      (nv', updShow nv' ((c.wr F.UPD_STAT_MUST must).wrB F.UPD_BANK_SUPTRIAL (inTrial nv sup)), some sup, none)

/-- The registers that the chosen images give (R434). -/
def showImages (nv : Nv) (sup ce : Option Nat) (c : Chip) : Chip :=
  let c := match sup with
    | some a => (((((c.wrR R.UPD_SUPVER (imgVersion nv a)).wr F.UPD_BANK_SUPB (a % 2)).wr F.UPD_SECV_SUPSEC (imgSecver nv a)).wr
        F.UPD_PP_OWNMIN (imgNat nv a 10 1)).wr F.UPD_PP_OWNMAX (imgNat nv a 11 1))
    | none => c
  match ce with
  | some b => ((c.wrR R.UPD_CEVER (imgVersion nv b)).wr F.UPD_BANK_CEB (b % 2)).wr F.UPD_SECV_CESEC (imgSecver nv b)
  | none => c

/-! ### Owner lock and MOTION (R429, R430) -/

/-- OWNER_LOCK_WRITE: the code sets the lock, and the same code clears it. -/
def ownerLock (v : Nat) (c : Chip) : Chip :=
  let lock := match c.upd.lock with
    | none => some v
    | some k => if k = v then none else some k
  modUpd (fun u => { u with lock := lock }) (c.wrR R.UPD_LOCK lock.isSome.toNat)

/-- A block committed in the tick in which MOTION becomes asserted is refused by the guard (R433). -/
def motionBlocks (t : Time) (c : Chip) : Chip :=
  match c.upd.op with
  | some (.block _) =>
    if c.upd.blockAt = t.tick ∧ legacyGuard c = some 1 then updRefuse t 9 0x10 1 4 (modUpd (fun u => { u with op := none }) c) else c
  | _ => c

/-- The filtered level of MOTION, and since when it is asserted. -/
def showMotion (t : Time) (c : Chip) : Chip :=
  let was := c.flag F.UPD_STAT_MOTION
  let now := c.upd.level || c.upd.chatter
  let c := c.wrB F.UPD_STAT_MOTION now
  if now && !was then motionBlocks t (modUpd (fun u => { u with since := t.tick }) c) else c

/-- CHATWIN in ticks (R430). -/
def chatWin (c : Chip) : Nat := c.rd F.UPD_GUARD_CHATWIN * 4000000

/-- MOTION_CHANGE: the level has changed and held for so many ms; held shorter than MOTDB it is ignored, and more than CHATCNT
changes within CHATWIN are chatter (R430). -/
def motionChange (t : Time) (level : Bool) (ms : Nat) (c : Chip) : Chip :=
  if ms < c.rd F.UPD_GUARD_MOTDB then c
  else
    let l := t.tick :: c.upd.changes.filter fun x => decide (t.tick < x + chatWin c)
    let chat := !c.upd.chatter && decide (c.rd F.UPD_GUARD_CHATCNT < l.length)
    let c := modUpd (fun u => { u with level := level, changes := l, chatter := u.chatter || chat, stuck := u.stuck && level }) c
    showMotion t (if chat then raise t 0x15 0x10 1 c else c)

/-- MOTION_STUCK: asserted without a break for 10 minutes (R430). -/
def motionStuck (t : Time) (c : Chip) : Chip :=
  if c.flag F.UPD_STAT_MOTION && !c.upd.stuck && decide (c.upd.since + 240000000000 ≤ t.tick) then
    raise t 0x15 0x10 1 (modUpd (fun u => { u with stuck := true }) c)
  else c

/-- MOTION_CHATTER_END: a whole CHATWIN has passed with no change (R430). -/
def motionQuiet (t : Time) (c : Chip) : Chip :=
  if c.upd.changes.any fun x => decide (t.tick < x + chatWin c) then c
  else showMotion t (modUpd (fun u => { u with chatter := false, changes := [] }) c)

/-- A soft block reset of UPD: the session and the staged block go; what flash, fuses, the always-on domain and the running
images give stays. -/
def updBlockReset (t : Time) (nv : Nv) (was c : Chip) : Chip :=
  let keep := fun (r : Reg) (c : Chip) => c.wrR r (was.rdR r)
  let c := modUpd (fun u => { u with staged := [], block := [], op := none }) c
  updShow nv (showMotion t (keep R.UPD_LOCK (keep R.UPD_SUPVER (keep R.UPD_CEVER (keep R.UPD_BANK (keep R.UPD_SECV (keep R.UPD_PP (keep R.UPD_STEP (keep R.UPD_STAT c)))))))))

end Sys2Proof.Machine
end

