-- ==== Sys2Proof/Machine/Hif.lean ====
section
/-! DEFINITION. The host interfaces (17): message vectors, the PCIe link, the consist-network MACs, the PTP servo, and the
frames of the SPI target as far as they need no register access. -/

namespace Sys2Proof.Machine

/-- The hidden state of HIF changes by `f`. -/
def modHif (f : Hif → Hif) (c : Chip) : Chip := { c with hif := f c.hif }

/-- What a host read returns (log 2). -/
def returns (ws : List Nat) (c : Chip) : Chip := modHif (fun h => { h with readData := ws }) c

/-! ### Message vectors (R438–R440) -/

/-- The chip may write to host memory: link up, bus mastering enabled, not in seal-only mode (R438, R469). -/
def hostReach (c : Chip) : Bool := c.flag F.HIF_STAT_LINKUP && c.flag F.HIF_STAT_BME && !sealOnly c

/-- Bytes reach host memory from an address on. -/
def toHost (addr : Nat) (l : List Byte) (c : Chip) : Chip := { c with hostMem := Tab.setMany 0 c.hostMem addr l }

/-- MSIX_MESSAGE_SEND of vector `v` (R440): it leaves once vector and function are unmasked, with MSI-X enabled. -/
def msixSend (v : Nat) (c : Chip) : Chip :=
  if bit c.msixDue v && hostReach c && c.flag F.HIF_STAT_MSIXEN && !c.flag F.HIF_STAT_FMASK && bit c.hif.msixOpen v then
    let w (i : Nat) := (Tab.get 0 c.hif.msix (4 * v + i)).toNat
    toHost (w 0 + 2 ^ 32 * w 1) (bytesLE 4 (w 2)) { c with msixDue := setBit c.msixDue v false }
  else c

/-- A source mapped to vector `v` is pending (R439). -/
def vecPending (c : Chip) (v : Nat) : Bool :=
  let takes (b : Nat) : Bool := !bit b 7 && b % 32 == v
  ((List.range 25).any fun p => takes (pageVec c p) && irqPend c p != 0)
    || (List.range 32).any fun k => takes (ringVec c k) && ringPending c k

/-- END_OF_INTERRUPT: a write of HIF_EOI clears the latch of a vector, and a message is due while a mapped source is still
pending (R440). -/
def endOfInterrupt (w : Nat) (c : Chip) : Chip :=
  let v := w % 32
  let c := c.wrR R.HIF_VPEND (setBit (c.rdR R.HIF_VPEND) v false)
  if vecPending c v then vecDue v c else c

/-- RING_INTERRUPT_TIMEOUT: an unread entry of ring `k` has become older than RTO (R439). -/
def ringTimeout (t : Time) (k : Nat) (c : Chip) : Chip :=
  if ringOn c k && ringOld t c k then
    ringNotify t k c { c with ringAged := setBit c.ringAged k true }
  else c

/-- The PBA shows the due messages of masked vectors (R440). -/
def pbaWord (c : Chip) : Nat :=
  if c.flag F.HIF_STAT_FMASK then c.msixDue else c.msixDue &&& (2 ^ 32 - 1 - c.hif.msixOpen)

/-- A word of the MSI-X table; bit 0 of a vector's fourth word is its mask (R436). -/
def msixRead (c : Chip) (i : Nat) : Nat :=
  if i % 4 = 3 then (!bit c.hif.msixOpen (i / 4)).toNat else (Tab.get 0 c.hif.msix i).toNat

/-- A word of the MSI-X table is written. -/
def msixWrite (i w : Nat) (c : Chip) : Chip :=
  modHif (fun h =>
    if i % 4 = 3 then { h with msixOpen := setBit h.msixOpen (i / 4) (!bit w 0) }
    else { h with msix := Tab.set 0 h.msix i (BitVec.ofNat 32 w) }) c

/-! ### Ethernet MACs (R444–R446) -/

/-- The FCS of a frame: the CRC-32 of its bytes, sent with its least significant byte first (R444). -/
def macFcs (frame : List Byte) : List Byte := bytesLE 4 (crc32 frame).toNat

/-- The MAC runs. -/
def macOn (c : Chip) (n : Nat) : Bool := c.blockOn (n + 1) && c.flag (F.HIF_Mn_CTL_EN n)

/-- The bytes of a frame after its addresses and VLAN tags (R444). -/
def etherBody : Nat → List Byte → List Byte
  | 0, l => l
  | n + 1, l => match l with
    | 0x81 :: 0x00 :: _ :: _ :: r => etherBody n r
    | 0x88 :: 0xA8 :: _ :: _ :: r => etherBody n r
    | _ => l

/-- The message is an event message of IEEE 1588: type 0 to 3 (log 8). -/
def ptpEvent (l : List Byte) : Bool := match l with
  | b :: _ => decide (b.toNat % 16 ≤ 3)
  | [] => false

/-- UDP to port 319 with an event message. -/
def udpEvent (l : List Byte) : Bool := match l with
  | _ :: _ :: 0x01 :: 0x3F :: _ :: _ :: _ :: _ :: r => ptpEvent r
  | _ => false

/-- PTP of a frame: an event message under EtherType 0x88F7, or over UDP to port 319 (R445). -/
def isPtp (frame : List Byte) : Bool :=
  match etherBody 4 (frame.drop 12) with
  | 0x88 :: 0xF7 :: r => ptpEvent r
  | 0x08 :: 0x00 :: r => (r.getD 9 0) == 17 && udpEvent (r.drop (4 * ((r.getD 0 0).toNat % 16)))
  | 0x86 :: 0xDD :: r => (r.getD 6 0) == 17 && udpEvent (r.drop 40)
  | _ => false

/-- A MAC takes the frame (R444): unicast to its own address, broadcast and multicast, or every frame. -/
def macAccepts (c : Chip) (n : Nat) (frame : List Byte) : Bool :=
  c.flag (F.HIF_Mn_CTL_PROMISC n) || decide ((frame.getD 0 0).toNat % 2 = 1)
    || frame.take 6 == bytesLE 6 (c.rdR (R.HIF_Mn_ADDR_LO n) + 2 ^ 32 * c.rd (F.HIF_Mn_ADDR_HI_ADDR n))

/-- Both stamps of the present tick moved to the wire by a latency in ns (R446): the angle by the ticks nearest to it. -/
def wireStamps (t : Time) (c : Chip) (lat : Int) : Nat × Stamp :=
  let ticks := divEven (2 * lat) 5
  let acc := ofInt 80 ((t.acc.toNat : Int) + ticks * effInc c)
  (ofInt 64 ((t.ns.toNat : Int) + lat), if t.running then BitVec.ofNat 48 (acc / 2 ^ 32) else 0)

/-- A descriptor is written back: LEN, FLAGS and stamps (R445). -/
def descBack (base : Nat) (len : Option Nat) (flags ns : Nat) (stamp : Stamp) (c : Chip) : Chip :=
  let c := match len with
    | some l => toHost (base + 8) (bytesLE 2 l) c
    | none => c
  toHost (base + 16) (bytesLE 8 ns ++ bytesLE 6 stamp.toNat) (toHost (base + 10) (bytesLE 2 flags) c)

/-- A received frame reaches its buffer and descriptor; HEAD moves (R445). -/
def rxBack (t : Time) (w : MacWait) (c : Chip) : Chip :=
  let n := w.mac
  let head := c.rd (F.HIF_Mn_RXP_HEAD n)
  let base := c.rdR (R.HIF_Mn_RXB_LO n) + 2 ^ 32 * c.rdR (R.HIF_Mn_RXB_HI n) + 32 * head
  let c := descBack base (some w.frame.length) (2 * w.ptp.toNat) w.ns w.stamp (toHost w.addr w.frame c)
  irq t (n + 1) 1 (c.wr (F.HIF_Mn_RXP_HEAD n) ((head + 1) % max 1 (c.rd (F.HIF_Mn_RING_RXN n))))

/-- Receive descriptors that MAC `n` owns and that no waiting frame will use (R445). -/
def rxOwned (c : Chip) (n : Nat) : Nat :=
  let size := max 1 (c.rd (F.HIF_Mn_RING_RXN n))
  (c.rd (F.HIF_Mn_RXP_TAIL n) + size - c.rd (F.HIF_Mn_RXP_HEAD n) % size) % size
    - (c.hif.macWait.filter fun w => w.mac == n).length

/-- MAC_FRAME_RECEIVE: a frame, the FCS that follows it, and the buffer address in the next descriptor (R444–R446). -/
def macReceive (t : Time) (n addr : Nat) (frame : List Byte) (fcs : Nat) (c : Chip) : Chip :=
  if !macOn c n || !c.flag (F.HIF_Mn_STAT_LINK n) || sealOnly c then c
  else if fcs ≠ (crc32 frame).toNat ∨ 1518 < frame.length then
    irq t (n + 1) 4 (raise t 0x16 0x08 n (c.count (F.HIF_Mn_CNT_RXERR n)))
  else if frame.length < 60 ∨ !macAccepts c n frame then c
  else if rxOwned c n = 0 then irq t (n + 1) 2 (c.count (F.HIF_Mn_CNT_RXDROP n))
  else
    let (ns, stamp) := wireStamps t c (-(c.rd (F.HIF_Mn_LAT_RXLAT n) : Int))
    let w : MacWait := ⟨n, addr, frame, ns, stamp, isPtp frame⟩
    if hostReach c && c.hif.macWait.isEmpty then rxBack t w c
    else modHif (fun h => { h with macWait := h.macWait ++ [w] }) c

/-- MAC_FRAME_TRANSMIT: the MAC sends the next frame it owns, whose descriptor gives a length and whose buffer holds `frame`
(R445, R446). A length outside 60–1,518 is not sent. -/
def macTransmit (t : Time) (n len : Nat) (frame : List Byte) (c : Chip) : Chip :=
  let head := c.rd (F.HIF_Mn_TXP_HEAD n)
  let size := max 1 (c.rd (F.HIF_Mn_RING_TXN n))
  if macOn c n && c.flag (F.HIF_Mn_STAT_LINK n) && hostReach c && head != c.rd (F.HIF_Mn_TXP_TAIL n) % size then
    let bad := decide (len < 60) || decide (1518 < len)
    let (ns, stamp) := wireStamps t c (c.rd (F.HIF_Mn_LAT_TXLAT n))
    let base := c.rdR (R.HIF_Mn_TXB_LO n) + 2 ^ 32 * c.rdR (R.HIF_Mn_TXB_HI n) + 32 * head
    let c := descBack base none (bad.toNat + 2 * (!bad && isPtp frame).toNat) ns stamp c
    let c := if bad then c else modHif (fun h => { h with macOut := Tab.set [] h.macOut n (frame ++ macFcs frame) }) c
    irq t (n + 1) 0 (c.wr (F.HIF_Mn_TXP_HEAD n) ((head + 1) % size))
  else c

/-- MAC_TAIL_WRITE: the host hands descriptors over (R445). -/
def macTail (n : Nat) (rx : Bool) (v : Nat) (c : Chip) : Chip :=
  if rx then c.wr (F.HIF_Mn_RXP_TAIL n) v else c.wr (F.HIF_Mn_TXP_TAIL n) v

/-- MAC_LINK_CHANGE: the line is in synchrony or not, and auto-negotiation has ended or not (R444). With ANEN the link is up
once both hold; 1000BASE-X runs at 1,000 Mbit/s. -/
def macLink (t : Time) (n : Nat) (x : LinkSeen) (speed : Nat) (c : Chip) : Chip :=
  if macOn c n then
    let up := x.sync && (x.negotiated || !c.flag (F.HIF_Mn_CTL_ANEN n))
    let was := c.flag (F.HIF_Mn_STAT_LINK n)
    let c := c.wrB (F.HIF_Mn_STAT_LINK n) up
    let c := if up then c.wr (F.HIF_Mn_STAT_SPEED n) (if c.flag (F.HIF_Mn_CTL_MODE n) then 2 else speed) else c
    if was == up then c else irq t (n + 1) 3 c
  else c

/-! ### The PCIe link (R438) -/

/-- Waiting write-backs leave in order (R438). -/
def flushMac (t : Time) (c : Chip) : Chip :=
  if hostReach c then Chip.forAll c.hif.macWait (rxBack t) (modHif (fun h => { h with macWait := [] }) c) else c

/-- PCIE_RESET (R438): only the PCIe part of HIF; `err`: a link error brought it. Due messages wait in their latches
(R462). -/
def pcieReset (t : Time) (err : Bool) (c : Chip) : Chip :=
  let was := c.flag F.HIF_STAT_LINKUP
  let c := c.wrR R.HIF_STAT (c.rd F.HIF_STAT_RECOV * 2 ^ 10)
  let c := modHif (fun h => { h with msix := [], msixOpen := 0 }) c
  let c := c.forAll (List.range 25) fun p c => c.wrB (F.PGSTAT_UNLKP p) false
  let c := if err then irq t 0 2 (raise t 0x16 0x04 0 c) else c
  if was then irq t 0 5 c else c

/-- PCIE_LINK_UP (R438): the link is in L0, with what the configuration space then holds. -/
def pcieUp (t : Time) (speed width : Nat) (bme msixEn fmask : Bool) (c : Chip) : Chip :=
  let was := c.flag F.HIF_STAT_LINKUP
  let c := ((c.wr F.HIF_STAT_SPEED speed).wr F.HIF_STAT_WIDTH width).wrB F.HIF_STAT_LINKUP true
  let c := ((c.wrB F.HIF_STAT_BME bme).wrB F.HIF_STAT_MSIXEN msixEn).wrB F.HIF_STAT_FMASK fmask
  flushMac t (if was then c else irq t 0 5 c)

/-! ### The PTP servo (R447) -/

/-- t1 to t4 of the mailbox. -/
def ptpTime (c : Chip) (i : Nat) : Int :=
  (Tab.get 0 c.regs (0x98 + 8 * i)).toNat + 2 ^ 32 * (Tab.get 0 c.regs (0x9C + 8 * i)).toNat

/-- The servo takes an exchange with its offset: above 1 ms it steps the time, else it adjusts the rate by an amount that the
manual leaves open. -/
def ptpServo (t : Time) (ofs : Int) (c : Chip) : Chip :=
  let c := c.wrI F.HIF_PTPST_OFS (clampI (-(2 ^ 23)) (2 ^ 23 - 1) ofs)
  let c :=
    if 1000000 < ofs ∨ ofs < -1000000 then
      let d := ofInt 64 (-ofs)
      (nsStep (d / 2 ^ 32) (c.wrR R.ANG_NSSTEP_LO (d % 2 ^ 32))).wr F.HIF_PTPST_STATE 1
    else ((nsRate (Config.unstated c.free % 2 ^ 32) c).wr F.HIF_PTPST_STATE 2) |> tickFree
  irq t 0 4 c

/-- PTP_SYNC_ONLY: judged with the last path delay. -/
def ptpSync (t : Time) (c : Chip) : Chip := ptpServo t (ptpTime c 1 - ptpTime c 0 - c.hif.delay) c

/-- PTP_FULL_EXCHANGE. -/
def ptpFull (t : Time) (c : Chip) : Chip :=
  let a := ptpTime c 1 - ptpTime c 0
  let b := ptpTime c 3 - ptpTime c 2
  ptpServo t (Int.tdiv (a - b) 2) (modHif (fun h => { h with delay := Int.tdiv (a + b) 2 }) c)

/-- A write of HIF_PTPOP by its KIND. -/
def ptpOp (t : Time) (kind : Nat) (c : Chip) : Chip :=
  if kind % 4 = 1 then ptpSync t c else if kind % 4 = 2 then ptpFull t c else c

/-! ### SPI frames (R449) -/

/-- Address and words of a well-formed write frame. -/
def spiWriteParse (l : List Byte) : Option (Nat × List Nat) :=
  match l with
  | 0x02 :: a2 :: a1 :: a0 :: cnt :: rest =>
    let addr := a2.toNat * 65536 + a1.toNat * 256 + a0.toNat
    let n := cnt.toNat
    if addr % 4 = 0 ∧ 1 ≤ n ∧ n ≤ 64 ∧ rest.length = 4 * n + 1 ∧ crc8 (l.take (l.length - 1)) = rest.getD (4 * n) 0 then
      some (addr, (List.range n).map fun i => leNat ((rest.drop (4 * i)).take 4))
    else none
  | _ => none

/-- A write frame is discarded as a whole. -/
def spiDiscard (t : Time) (c : Chip) : Chip :=
  let c := modHif (fun h => { h with spiDone := false, spiBad := true }) (c.count F.HIF_SPICNT_BAD)
  irq t 0 3 (raise t 0x16 0x10 0 c)

/-- The bytes of a read's answer: the words, and the CRC over the whole frame. -/
def spiAnswer (addr n : Nat) (ws : List Nat) : List Nat :=
  let head : List Byte := [0x0B, BitVec.ofNat 8 (addr / 65536), BitVec.ofNat 8 (addr / 256), BitVec.ofNat 8 addr,
    BitVec.ofNat 8 n, 0]
  let data := ws.flatMap (bytesLE 4)
  (data ++ [crc8 (head ++ data)]).map BitVec.toNat

/-- SPI_STATUS_READ. -/
def spiStatus (c : Chip) : Chip :=
  returns [c.hif.spiDone.toNat + 2 * c.hif.spiBad.toNat + 4 * c.rd F.HIF_STAT_RECOV + 8 * c.rd F.FLT_STAT_ERR] c

/-! ### Commit and block reset -/

/-- What a commit of HIF or a MAC is refused for (R443, R459, R460). -/
def judgeHif (c : Chip) : Option Nat :=
  if c.rdR R.HIF_WB_LO % 128 ≠ 0 then some 0x8C
  else if c.flag F.HIF_EVCFG_EN && !(ringCons c (c.rd F.HIF_EVCFG_RING) == 1 || ringCons c (c.rd F.HIF_EVCFG_RING) == 3)
    then some 0x94
  else none

@[inherit_doc judgeHif] def judgeMac (n : Nat) (c : Chip) : Option Nat :=
  if c.rdR (R.HIF_Mn_TXB_LO n) % 64 ≠ 0 then some 0x50
  else if c.rdR (R.HIF_Mn_RXB_LO n) % 64 ≠ 0 then some 0x58
  else none

/-- A commit of HIF: with a longer RTO, or none, an entry that was too old is judged anew (R439). -/
def hifCommitted (t : Time) (c : Chip) : Chip := c.forAll (bitsOf 32 c.ringAged) (ringAges t)

/-- A soft block reset of HIF: the link state is the PCIe part's own (R438). -/
def hifBlockReset (was c : Chip) : Chip :=
  modHif (fun h => { h with spiDone := false, spiBad := false, delay := 0 })
    { c.wrR R.HIF_STAT (was.rdR R.HIF_STAT) with msixDue := 0, ringAged := 0 }

/-- A soft block reset of a MAC: the link stays as it is, waiting frames go. -/
def macBlockReset (n : Nat) (was c : Chip) : Chip :=
  modHif (fun h => { h with macWait := h.macWait.filter fun w => w.mac != n })
    (c.wrR (R.HIF_Mn_STAT n) (was.rdR (R.HIF_Mn_STAT n)))

end Sys2Proof.Machine
end

