-- ==== Sys2Proof/Machine/Pwr.lean ====
section
/-! DEFINITION. PWR and AO: rails, temperature, the early warning, resets, start-up and hibernate (R36, R464–R485). -/

namespace Sys2Proof.Machine

/-- The hidden state of PWR changes by `f`. -/
def modPwr (f : Pwr → Pwr) (c : Chip) : Chip := { c with pwr := f c.pwr }

/-- The chip is out of reset with CORE powered (R470, R478). -/
def awake (c : Chip) : Bool := c.pwr.por.isNone && c.pwr.held.isNone && !c.pwr.psenLow && c.pwr.waking.isNone

/-- The logic of page `p` has a clock: with the reference clock lost, only AO and SAFE go on (R36, R395). -/
def pageAlive (c : Chip) (p : Nat) : Bool :=
  awake c && c.blockOn p && (!c.pwr.noClock || p == 4 || p == 5 || p == 7 || p == 8 || p == 0x11)

/-! ### Rails and temperature (R464–R467) -/

/-- A VDDIO bank by its supply code is of class 3.3 V (R464). -/
def bank33 (c : Chip) (code : Nat) : Bool := bit (c.rd F.PWR_MON_CLASS) (code - 8)

/-- The monitor window of a supply code in mV, both ends included (R464). -/
def railWindow (c : Chip) (code : Nat) : Nat × Nat :=
  match code with
  | 1 => (740, 860)
  | 2 => (1660, 1940)
  | 3 => (1040, 1170)
  | 4 => (570, 650)
  | _ => if bank33 c code then (2970, 3630) else (1620, 1980)

/-- The reset level of a supply code in mV (R464); 0: none. -/
def railReset (c : Chip) (code : Nat) : Nat :=
  match code with
  | 1 => 700
  | 2 => 1550
  | 8 => if bank33 c code then 2800 else 1500
  | _ => 0

/-- PWR_MON and SUPOK follow the rails that are outside their windows. -/
def railShow (c : Chip) : Chip :=
  let ok := fun n => !c.pwr.out.contains n
  let c := ((c.wrB F.PWR_MON_COREOK (ok 1)).wrB F.PWR_MON_AOK (ok 2)).wrB F.PWR_MON_D2XOK (ok 3)
  let c := c.wrB F.PWR_MON_QXOK (ok 4)
  let c := c.wr F.PWR_MON_BANKOK ((List.range 8).foldl (fun v b => setBit v b (ok (8 + b))) 0)
  c.wrB F.PWR_STAT_SUPOK c.pwr.out.isEmpty

/-- LPDDR4X is lost (R466): spill stops, the history and the registry are gone. -/
def ddrLost (t : Time) (c : Chip) : Chip :=
  if c.pwr.ddrBad then c
  else
    let c := historyLost { modPwr (fun w => { w with ddrBad := true }) c with ddr := [] }
    match (List.range 32).find? fun k => ringOn c k && ringCons c k == 2 with
    | some k => irq t 0x18 4 (raise t 0x11 0x08 k c)
    | none => c

/-- RAIL_OUT_OF_WINDOW of a supply code of R464 at a level; `gone`: the rail is lost. Once per episode, and not once hibernate
entry has stopped the monitors (R477). -/
def railOut (t : Time) (code mv : Nat) (gone : Bool) (c : Chip) : Chip :=
  let w := railWindow c code
  if c.hibHold || (decide (w.1 ≤ mv) && decide (mv ≤ w.2)) then c
  else
    let lost := fun (c : Chip) =>
      let c := if gone then modPwr (fun w => { w with lost := code :: w.lost.filter (· != code) }) c else c
      if gone && (code == 3 || code == 4) then ddrLost t c else c
    if c.pwr.out.contains code then lost c
    else
      let c := railShow (modPwr (fun w => { w with out := code :: w.out, outAt := Tab.set 0 w.outAt code t.tick }) c)
      giveUp t 3 (lost (irq t 4 0 (raise t 0x17 0x01 code c)))

/-- RAIL_EPISODE_END, 1 ms back in the window at least after the episode began (R464). -/
def railBack (t : Time) (code : Nat) (c : Chip) : Chip :=
  if t.tick < Tab.get 0 c.pwr.outAt code + 400000 then c else
  railShow (modPwr (fun w => { w with out := w.out.filter (· != code), lost := w.lost.filter (· != code) }) c)

/-- The highest of four readings with the lowest sensor that shows it. -/
def hottest (l : List Int) : Int × Nat :=
  (l.zipIdx).foldl (fun b x => if b.1 < x.1 then x else b) (l.headD 0, 0)

/-- TEMPERATURE_SAMPLE: the readings of CEN, SUP, ANA and the IO ring in 0.5 °C; `steady`: since the sample before, no reading has
come within 5 °C of TLIM. An episode ends after the highest has stayed 5 °C below TLIM for 1 s (R467). -/
def temperature (t : Time) (rs : List Int) (steady : Bool) (c : Chip) : Chip :=
  if !periodOver t 400000 c.pwr.tempAt then c else
  let c := modPwr (fun w => { w with tempAt := some t.tick }) c
  let (hi, sensor) := hottest rs
  let deg := hi / 2
  let peak := if c.pwr.peakRead then deg else max deg (c.rdI F.PWR_TEMP_PEAK)
  let c := ((c.wrI F.PWR_TEMP_TJ hi).wr F.PWR_TEMP_SENS sensor).wrI F.PWR_TEMP_PEAK peak
  let hot := decide ((2 * c.rd F.PWR_CTL_TLIM : Nat) < hi)
  let from_ := if (2 * c.rd F.PWR_CTL_TLIM : Int) - 10 < hi then none
    else some (if steady then c.pwr.coolFrom.getD t.tick else t.tick)
  let ep := c.pwr.tempEp && !(from_.any fun x => decide (x + 400000000 ≤ t.tick))
  let fresh := hot && !ep && !c.hibHold
  let c := modPwr (fun w => { w with peakRead := false, tempEp := ep || fresh, coolFrom := from_ }) (c.wrB F.PWR_STAT_TEMP hot)
  if fresh then irq t 4 2 (raise t 0x17 0x04 sensor c) else c

/-! ### Early warning (R468, R469) -/

/-- Seal-only mode begins: legs off, and each block holds what it may not start (R469). A hibernate key of the same tick is
judged after it: refused (R476, R482). -/
def enterSealOnly (t : Time) (c : Chip) : Chip :=
  let c := irq t 4 3 (legStatus (c.wrB F.PWR_STAT_SEALONLY true))
  if c.pwr.entering && c.pwr.hibAt == t.tick then
    irq t 4 4 (modPwr (fun w => { w with entering := false }) (c.wr F.PWR_STAT_HIBREF 5))
  else c

/-- EARLY_WARNING: once per episode; with LGEN the last gasp starts (R344, R468). -/
def earlyWarning (t : Time) (c : Chip) : Chip :=
  if !c.flag F.PWR_CTL_EWEN || c.pwr.ewEp then c
  else
    let c := modPwr (fun w => { w with ewEp := true }) (c.wrB F.PWR_STAT_EW true)
    let c := irq t 4 1 (raise t 0x17 0x02 0 c)
    if recOn c && c.flag F.REC_CTL_LGEN then lastGasp t (enterSealOnly t c) else c

/-- EARLY_WARNING_RECOVERED (R469): the episode ends; in seal-only mode EWCLR is set. -/
def warningOver (c : Chip) : Chip :=
  let c := modPwr (fun w => { w with ewEp := false }) (c.wrB F.PWR_STAT_EW false)
  if sealOnly c then c.wrB F.PWR_STAT_EWCLR true else c

/-! ### Clocks (R36, R358, R378) -/

/-- REFCLK_LOST (R29, R36, R393): the report and give-up cause 2; SAFE enters the Bivouac on its own with cause 3, whatever the
collector and the other chip of a pair do, so that the entry that the report asks for is already made; no system clock runs. -/
def refclkLost (t : Time) (c : Chip) : Chip :=
  let was := c.due
  let c := raise t 0x19 0x01 0 (giveUp t 2 c)
  let made := fun (d : Due) => match d with | .bivouac _ 0x19 k => !bit k 0 | _ => true
  let c := { c with due := was ++ (c.due.drop was.length).filter made }
  let c := if c.flt.biv then c.count F.FLT_BIVST_COUNT else bivNow t 3 0x19 0x01 c
  (modPwr (fun w => { w with noClock := true }) c).askTime .stop

/-- REFCLK_OUT_OF_RANGE. -/
def refclkRange (t : Time) (c : Chip) : Chip := raise t 0x19 0x02 0 (giveUp t 2 c)

/-- SAFETY_OSCILLATOR_FAULT. -/
def safetyOsc (t : Time) (c : Chip) : Chip := raise t 0x19 0x04 0 c

/-! ### Resets (R470–R473, R478) -/

/-- Registers that the always-on domain keeps (R478): the AO page but for its lock and unlock state, what is known of the
Bivouac and of the last CRST, the safety set of a sticky copy, the configuration and evidence of WDG, the owner lock, the
reset cause and the battery items. -/
def aoKeeps (sticky : Bool) (off : Nat) : Bool :=
  (off / 0x1000 == 5 && off != 0x5008 && off != 0x500C)
    || off == 0x806C || off == 0x8074 || (sticky && off == 0x8050)
    || off == 0x7040 || off == 0x704C || off == 0x7050 || off == 0x705C
    || (decide (0x7080 ≤ off) && decide (off < 0x7100))
    || (off / 0x100 == 0x71 && (off % 16 == 4 || off % 16 == 8))
    || off == 0x6048 || off == 0x4058 || off == 0x12094 || off == 0x12098

/-- The chip with every domain but AO cleared (R470). The model's own fields stay: what reached host memory, and the count of
free values. The outcome of the last commit of the AO page stands, its unlock and lock do not. -/
def cleared (c : Chip) : Chip :=
  let sticky := c.flt.sticky
  let kept : Chip :=
    { regs := c.regs.filter fun e => aoKeeps sticky e.1
      shadow := c.shadow.filter fun e => aoKeeps sticky e.1
      free := c.free
      hostMem := c.hostMem
      uartTx := c.uartTx
      flt := { sticky := sticky }
      efu := { copy := if sticky then c.efu.copy else [] }
      bat := { savedAt := c.bat.savedAt }
      wdg := { c.wdg with sAt := 0 }
      upd := { lock := c.upd.lock }
      pwr := { out := c.pwr.out, lost := c.pwr.lost, psenLow := c.pwr.psenLow, psenDone := c.pwr.psenDone, waking := c.pwr.waking,
               psenAt := c.pwr.psenAt, wakeAt := c.pwr.wakeAt, aoTell := c.pwr.aoTell, aoAt := c.pwr.aoAt, slAt := c.pwr.slAt } }
  kept.wrR (R.PGSTAT 5) (c.rdR (R.PGSTAT 5) &&& 0xFFFF0060)

/-- PWR_RSTCAUSE of a chip or power-on reset (R472). -/
def rstCause (cause domain : Nat) (c : Chip) : Chip :=
  ((c.wr F.PWR_RSTCAUSE_CAUSE cause).wr F.PWR_RSTCAUSE_DOMAIN domain).count F.PWR_RSTCAUSE_COUNT

/-- A chip reset takes hold (R470): CORE, SAFE and ANA are held in reset; hibernate entry is abandoned (R482). -/
def applyReset (t : Time) (cause : Nat) (c : Chip) : Chip :=
  let c' := (cleared c).wr F.PWR_MON_CLASS (c.rd F.PWR_MON_CLASS)
  (modPwr (fun w => { w with held := some cause, heldAt := t.tick }) (railShow (rstCause cause 0 c'))).askTime .stop

/-- The cause that PWR records of two, in the order of R472: RST_N, CRST reaction, host key. -/
def causeFirst (a b : Nat) : Nat := if a = 3 ∨ b = 3 then 3 else max a b

/-- A chip reset is requested (R470, R473): in a pair it is give-up cause 7, and PWR applies it 2 µs later. -/
def resetRequest (t : Time) (cause : Nat) (c : Chip) : Chip :=
  if !awake c then c
  else
    let c := modUpd (fun u => { u with confirmed := [] }) c
    if prState c = prSOLO then applyReset t cause c
    else modPwr (fun w => { w with rstReq := some ((w.rstReq.map (causeFirst cause)).getD cause)
                                   rstAt := if w.rstReq.isSome then w.rstAt else t.tick }) (giveUp t 7 c)

/-- CHIP_RESET_APPLY: 2 µs after the request (R473). -/
def resetApply (t : Time) (c : Chip) : Chip :=
  match c.pwr.rstReq with
  | some cause => if c.pwr.rstAt + 800 ≤ t.tick then applyReset t cause c else c
  | none => c

/-- A CRST reaction (R380): source and kinds go to FLT_RSTINC before the reset. -/
def crst (t : Time) (source kinds : Nat) (c : Chip) : Chip :=
  if c.flt.biv then c
  else
    let c := ((c.wrB F.FLT_RSTINC_VALID true).wr F.FLT_RSTINC_SOURCE source).wr F.FLT_RSTINC_KINDS kinds
    resetRequest t 5 c

/-- A supervisor reset (R470): the cores are loaded anew, and the start window applies; every block keeps its state. -/
def supReset (t : Time) (c : Chip) : Chip :=
  let c := modFlt (fun x => { x with lanes := (x.lanes.map fun e => (e.1, { e.2 with trap := false })).filter fun e => e.2 != {} }) c
  supStart t (((c.wrB F.SUP_STAT_TRAP false).wr F.PWR_RSTCAUSE_CAUSE 7).wr F.PWR_RSTCAUSE_DOMAIN 0)

/-- A write of PWR_RSTCMD (R470); other values are ignored. -/
def rstCmd (t : Time) (v : Nat) (c : Chip) : Chip :=
  if v = 0xC5E70001 then resetRequest t 4 c
  else if v = 0xC5E70002 ∧ c.pwr.rstReq.isNone then supReset t c else c

/-! ### Start-up (R474, R475) -/

/-- The start hold of a retained sticky copy: SAFE runs the safety set from it (R396, R475). -/
def startHold (t : Time) (c : Chip) : Chip :=
  efToSafe t (legStatus (errUpdate t (modFlt (fun x => { x with held := true }) (c.wrB F.FLT_STAT_HELD true))))

/-- CORE runs again (R470, R474): phase 0, ANG from 1∠0x0000 (R37), and what WDG kept for this moment (R411). -/
def startUp (t : Time) (c : Chip) : Chip :=
  let c := (c.wr F.SUP_STAT_PHASE 0).askTime .restart
  let c := if c.flt.sticky then startHold t c else c
  let c := if bits (c.rd F.AO_WAKESRC_SRC) 4 3 ≠ 0 ∧ c.pwr.woken then irq t 7 5 c else c
  let c := if c.pwr.woken && !c.flag F.WDG_CTL_HIBRUN then hostCycle (wdgTick t c + 1) c else c
  hibFailure t c

/-- POWER_ON_RESET: VDD_CORE, VDDA or VDDIO0 has fallen below its reset level, by supply code; 0 for a first power-on (R464,
R470, R472). In hibernate the rails are off anyway. -/
def powerOnReset (code mv : Nat) (c : Chip) : Chip :=
  if c.pwr.psenLow || c.pwr.por.isSome || (code != 0 && decide (railReset c code ≤ mv)) then c
  else
    let cause := if code = 0 then 1 else 2
    let c := rstCause cause code (cleared (modPwr (fun w => { w with waking := none }) c))
    (modPwr (fun w => { w with por := some cause }) c).askTime .stop

/-- POWER_ON_RESET_RELEASE: the rails have stood in their windows for tPOR; `class`: the VDDIO banks of class 3.3 V (R464,
R466). After a wake it is the start of R480. -/
def powerOnRelease (t : Time) (class_ : Nat) (c : Chip) : Chip :=
  let go := fun (woken : Bool) (c : Chip) =>
    let up := fun (w : Pwr) => { w with
      por := none, waking := none, woken := woken, out := w.out.filter fun n => n != 1 && n != 2 && n != 8
      lost := w.lost.filter fun n => n != 1 && n != 2 && n != 8 }
    startUp t (railShow (modPwr up (c.wr F.PWR_MON_CLASS class_)))
  match c.pwr.por, c.pwr.waking with
  | some _, _ => go false c
  | none, some cause => if c.pwr.psenLow then c else go true (rstCause cause 0 c)
  | none, none => c

/-- CHIP_RESET_END: 10 µs after the reset, or once RST_N rises (R470, R472). -/
def resetEnd (t : Time) (c : Chip) : Chip :=
  if c.pwr.held.isSome && decide (c.pwr.heldAt + 4000 ≤ t.tick) then startUp t (modPwr (fun w => { w with held := none }) c) else c

/-- Recovery mode (R428): SAFE holds the pins, the host reaches HIF and UPD. -/
def recovery (t : Time) (c : Chip) : Chip :=
  let c := ((c.wr F.SUP_STAT_PHASE 4).wrB F.HIF_STAT_RECOV true).wrB F.UPD_STAT_RECOV true
  startHold t (supStart t c)

/-- BOOT_ROM_COMPLETE (R474, R475): the straps RECOV and PPOS, the banks, and the outcome of phase 0. -/
def bootDone (t : Time) (recov : Bool) (pos : Nat) (nv : Nv) (c : Chip) : Nv × Chip :=
  if !awake c || c.rd F.SUP_STAT_PHASE != 0 then (nv, c)
  else
    let c := c.wr F.PAR_STAT_POS pos
    if recov then (nv, recovery t c)
    else
      let (nv, c, sup, ce) := bootChoose t nv c
      if sup.isNone then (nv, recovery t c)
      else
        let c := modPwr (fun w => { w with sup := sup, ce := ce }) (c.wr F.SUP_STAT_PHASE 1)
        (nv, if ce.isNone then raise t 0x15 0x04 (c.rd F.UPD_STAT_MUST) c else c)

/-- IMAGE_CHECKS_COMPLETE (R474): the supervisor window of the SUP image (R402), and the default coefficient words of the CE
image by key of CEN memory; the SUP cores run. -/
def imagesDone (t : Time) (sopen sclose : Nat) (coefs : List (Nat × Nat)) (nv : Nv) (c : Chip) : Chip :=
  if !awake c || c.rd F.SUP_STAT_PHASE != 1 then c
  else
    let c := showImages nv c.pwr.sup c.pwr.ce c
    let c := modPwr (fun w => { w with debug := c.pwr.sup.any fun b => bit (imgNat nv b 21 1) 0 }) c
    let c := (c.wr F.WDG_SWIN_SOPEN sopen).wr F.WDG_SWIN_SCLOSE sclose
    let c := if c.pwr.ce.isSome then
        { c with cenMem := coefs.foldl (fun m x => Tab.set 0 m x.1 (coefStore (x.1 % 1024) x.2)) c.cenMem }
      else c
    supStart t (c.wr F.SUP_STAT_PHASE 2)

/-- Phase 3 begins: what waited for it is told (R472, R478, R480), and the pair starts (R357). -/
def phase3 (t : Time) (c : Chip) : Chip :=
  let c := modPwr (fun w => { w with runFrom := t.tick }) (parStart t (c.wr F.SUP_STAT_PHASE 3))
  let c := if c.rd F.PWR_RSTCAUSE_CAUSE = 3 then raise t 0x17 0x08 0 c else c
  let c := if c.pwr.aoTell then raise t 0x18 0x04 0 (modPwr (fun w => { w with aoTell := false }) c) else c
  if c.pwr.woken then irq t 5 3 (modPwr (fun w => { w with woken := false }) c) else c

/-! ### The always-on domain (R470, R478, R485) -/

/-- AO_RESET: VAO has fallen below 1.80 V; every always-on item is lost (R218, R478). -/
def aoReset (t : Time) (c : Chip) : Chip :=
  let gone := fun off => aoKeeps true off && off != 0x8050
  let c := { c with regs := c.regs.filter (fun e => !gone e.1), shadow := c.shadow.filter (fun e => !gone e.1) }
  let c := { c with bat := { c.bat with savedAt := none }, upd := { c.upd with lock := none }
                    wdg := { baseAt := t.tick, sAt := 0 }, flt := { c.flt with sticky := false } }
  let c := if c.pwr.psenLow || c.pwr.waking.isSome then rstCause 1 0 c else c
  let c := modPwr (fun w => { w with aoTell := true, aoAt := some t.tick, psenLow := false, psenDone := false, waking := none
                                     por := if w.psenLow || w.waking.isSome then some 1 else w.por }) c
  if awake c && c.rd F.SUP_STAT_PHASE == 3 then raise t 0x18 0x04 0 (modPwr (fun w => { w with aoTell := false }) c) else c

/-- VAO against LEVEL: below it kind 0x01, once until it is back (R485). -/
def vaoJudge (t : Time) (c : Chip) : Chip :=
  let low := decide (c.rd F.AO_VAO_VAO < c.rd F.AO_VAO_LEVEL)
  let was := c.flag F.AO_STAT_VAOOK
  let c := c.wrB F.AO_STAT_VAOOK (!low)
  if low && was then irq t 5 0 (raise t 0x18 0x01 0 c) else c

/-- VAO_LOW: VAO as measured, in 10 mV: judged by LEVEL (R485); below 1.80 V the AO reset comes first (R470). -/
def vaoLow (t : Time) (vao : Nat) (c : Chip) : Chip :=
  vaoJudge t ((if vao < 180 then aoReset t c else c).wr F.AO_VAO_VAO vao)

/-! ### Hibernate (R476–R480) -/

/-- The judgement of a hibernate request, in the order of R476; 0: accepted. -/
def hibJudge (c : Chip) : Nat :=
  if c.flag F.PAR_CTL_EN && c.flag F.PAR_STAT_ACT && c.flag F.PAR_PEER_VALID then 1
  else if c.flt.biv || c.flt.held then 2
  else if c.rd F.REC_SEALST_STATE ≠ 1 ∨ ¬ c.recd.windows.isEmpty then 3
  else if c.flag F.UPD_RES_OPEN then 4
  else if sealOnly c then 5
  else if c.rd F.AO_WAKEEN_EN = 0 then 6
  else if (List.range 4).any fun p => inForce c p || pst c p == pSRCTRANS || pst c p == pSNKTRANS || pst c p == pSWAPWAIT
    || pst c p == pSWAPOFF || pst c p == pSWAPON then 7
  else 0

/-- HIBERNATE_REQUEST: a write of PWR_HIB (R476): accepted, the entry runs; refused, only HIBREF tells. -/
def hibRequest (t : Time) (v : Nat) (c : Chip) : Chip :=
  if v ≠ 0xC5E70048 ∨ c.pwr.entering then c
  else
    let j := hibJudge c
    let c := c.wr F.PWR_STAT_HIBREF j
    if j ≠ 0 then irq t 4 4 c
    else
      modPwr (fun w => { w with entering := true, hibAt := t.tick, hibRow := 1 }) c

/-- Row 2 of R477, 1 µs after the key: the legs and channels go off, PG falls, the monitors stop. -/
def hibOff (t : Time) (c : Chip) : Chip :=
  let c := (modPwr (fun w => { w with hibRow := 2 }) { c with hibHold := true }).forAll (List.range 16) (efCommand t)
  efPins (legStatus c)

/-- Row 3, 2 µs after the key: WDG takes to its hibernation behaviour, and AO_WAKESRC clears. -/
def hibQuiet (t : Time) (c : Chip) : Chip := modPwr (fun w => { w with hibRow := 3 }) (wdgHibernate t (c.wrR R.AO_WAKESRC 0))

/-- The rows of R477 that are due; a chip reset that waits has abandoned the entry (R482). -/
def hibRows (t : Time) (c : Chip) : Chip :=
  if !c.pwr.entering || c.pwr.rstReq.isSome then c
  else
    let c := if c.pwr.hibRow = 1 ∧ c.pwr.hibAt + 400 ≤ t.tick then hibOff t c else c
    if c.pwr.hibRow = 2 ∧ c.pwr.hibAt + 800 ≤ t.tick then hibQuiet t c else c

/-- PSEN rises once its 2.0 ms have passed and a wake waits (R477, R480). -/
def psenRise (c : Chip) : Chip :=
  if c.pwr.psenLow && c.pwr.psenDone && c.pwr.waking.isSome then modPwr (fun w => { w with psenLow := false }) c else c

/-- PSEN_HOLD_END: PSEN has been low for 2.0 ms (R477). -/
def psenHoldEnd (t : Time) (c : Chip) : Chip :=
  if c.pwr.psenLow && decide (c.pwr.psenAt + 800000 ≤ t.tick) then psenRise (modPwr (fun w => { w with psenDone := true }) c) else c

/-- CURSEEN is set (R218, R479). -/
def curSeen (c : Chip) : Chip := c.wrB F.BAT_AORET_CURSEEN true

/-- The sources that AO can see: the comparators that are on, the timer and the cycles that run (R479, R485, R411). -/
def wakeSeen (t : Time) (src : Nat) (c : Chip) : Nat :=
  let off := fun (b : Nat) (on : Bool) (v : Nat) => if on then v else setBit v b false
  let due := c.rdR R.WDG_WAKE != 0 && decide (c.rdR R.WDG_WAKE ≤ tickDiff (wdgTick t c) c.wdg.hibAt)
  off 0 (c.flag F.AO_CTL_IEN) (off 1 (c.flag F.AO_CTL_SLACT) (off 2 (c.flag F.AO_CTL_SLACT)
    (off 3 due (off 4 (c.flag F.WDG_CTL_HIBRUN) src))))

/-- A shelf-link segment is active (R485). -/
def slActive (t : Time) (n : Nat) (c : Chip) : Chip :=
  if c.flag F.AO_CTL_SLACT then modPwr (fun w => { w with slAt := Tab.set none w.slAt n (some t.tick) }) c else c

/-- AO_STAT.SLACT0 and SLACT1 tell of activity within the last 20 µs (R479, R485). -/
def slShow (t : Time) (c : Chip) : Chip :=
  let now := fun (n : Nat) => c.flag F.AO_CTL_SLACT && (Tab.get none c.pwr.slAt n).any fun x => decide (t.tick < x + 8000)
  (c.wrB F.AO_STAT_SLACT0 (now 0)).wrB F.AO_STAT_SLACT1 (now 1)

/-- The chip is in hibernate; the tick of a wake still counts (R480, R482). -/
def hibernates (t : Time) (c : Chip) : Bool := c.pwr.psenLow || (c.pwr.waking.isSome && c.pwr.wakeAt == t.tick)

/-- WAKE_EVENT: the sources of R479 seen in this tick, by bit. Any enabled one, or RST_N, wakes the chip; AO latches every one
seen (R480, R482). Outside hibernate they are kept for the tick: PSEN may fall in it. -/
def wakeEvent (t : Time) (sources : Nat) (c : Chip) : Chip :=
  let src := wakeSeen t sources c
  let c := if bit src 1 then slActive t 0 c else c
  let c := if bit src 2 then slActive t 1 c else c
  let c := if hibernates t c then c
    else modPwr (fun w => { w with seen := (t.tick, src ||| (if w.seen.1 = t.tick then w.seen.2 else 0)) }) c
  let c := if c.pwr.psenLow && bit src 0 then curSeen c else c
  if hibernates t c && ((src &&& (c.rd F.AO_WAKEEN_EN + 64)) != 0 || (src != 0 && c.pwr.waking.isSome && c.pwr.wakeAt == t.tick)) then
    let cause := if bit src 6 then 3 else c.pwr.waking.getD 6
    let c := c.wr F.AO_WAKESRC_SRC (c.rd F.AO_WAKESRC_SRC ||| src)
    psenRise (modPwr (fun w => { w with waking := some cause, wakeAt := t.tick }) c)
  else c

/-- HIBERNATE_ENTRY, 200 µs after the key: PSEN falls; CORE, SAFE and ANA lose their supply (R477, R478). A chip reset that waits
has abandoned the entry; a wake event of the tick comes after it (R482). -/
def hibEntry (t : Time) (c : Chip) : Chip :=
  let c := hibRows t c
  if c.pwr.entering && c.pwr.rstReq.isNone && decide (c.pwr.hibAt + 80000 ≤ t.tick) then
    let seen := if c.pwr.seen.1 = t.tick then c.pwr.seen.2 else 0
    let low := fun (w : Pwr) => { w with psenLow := true, psenDone := false, psenAt := t.tick, waking := none, out := [], lost := [] }
    let c := (cleared (modPwr low c)).askTime .stop
    if seen = 0 then c else wakeEvent t seen c
  else c

/-- RST_N_ASSERT (R472): a chip reset; in hibernate a wake (R479). In a reset that already holds, it is the cause recorded. -/
def rstN (t : Time) (c : Chip) : Chip :=
  if hibernates t c then wakeEvent t 64 c
  else if c.pwr.waking.isSome then modPwr (fun w => { w with waking := some 3 }) c
  else if c.pwr.held.isSome then modPwr (fun w => { w with held := some 3 }) (c.wr F.PWR_RSTCAUSE_CAUSE 3)
  else resetRequest t 3 c

/-- IBAT_COMPARATOR_ASSERT: the battery-current comparator asserts once its input has been at ITH or above for IDB, and releases
below ITH (R218, R479). -/
def ibat (t : Time) (mv ms : Nat) (c : Chip) : Chip :=
  if !c.flag F.AO_CTL_IEN then c
  else
    let above := decide (c.rd F.AO_CTL_ITH ≤ mv)
    let on := above && (decide (c.rd F.AO_CTL_IDB ≤ ms) || c.flag F.AO_STAT_IBAT)
    let c := c.wrB F.AO_STAT_IBAT on
    if on then wakeEvent t 1 (curSeen c) else c

/-- WDG_WAKE_TIMER: T ticks have passed since hibernate entry (R411). -/
def wakeTimer (t : Time) (c : Chip) : Chip :=
  if c.rdR R.WDG_WAKE ≤ tickDiff (wdgTick t c) c.wdg.hibAt then wakeEvent t 8 c else c

/-- HOST_CYCLE_CLOSE: in hibernate a close with missing slots may wake the chip (R411). -/
def hostCycleClose (t : Time) (c : Chip) : Chip :=
  let (c, wakes) := cycleClose t c.pwr.psenLow c
  if wakes then wakeEvent t 16 c else c

/-- AO_OSCILLATOR_STOP (R401). -/
def crystalStop (t : Time) (c : Chip) : Chip :=
  if c.flag F.AO_STAT_OSC then
    let c := wdgOscillator t true (irq t 5 1 (raise t 0x18 0x02 0 (c.wrB F.AO_STAT_OSC false)))
    irq t 7 6 c
  else c

/-- CRYSTAL_RETURN (R401). -/
def crystalBack (t : Time) (c : Chip) : Chip :=
  if c.flag F.AO_STAT_OSC then c else wdgOscillator t false (c.wrB F.AO_STAT_OSC true)

/-! ### Commit and block reset -/

/-- A commit of AO: a comparator that is off asserts nothing (R479), and VAO is judged by the new LEVEL (R485). -/
def aoCommitted (t : Time) (was c : Chip) : Chip :=
  let c := if c.flag F.AO_CTL_IEN then c else c.wrB F.AO_STAT_IBAT false
  if was.rd F.AO_VAO_LEVEL = c.rd F.AO_VAO_LEVEL ∨ c.rd F.AO_VAO_VAO = 0 then c else vaoJudge t c

/-- A soft block reset of PWR: what reports the supplies, the reset cause and seal-only mode stays. -/
def pwrBlockReset (was c : Chip) : Chip :=
  let keep := fun (r : Reg) (c : Chip) => c.wrR r (was.rdR r)
  keep R.PWR_STAT (keep R.PWR_MON (keep R.PWR_RSTCAUSE (keep R.PWR_TEMP c)))

/-- A soft block reset of AO: what reports the domain stays. -/
def aoBlockReset (was c : Chip) : Chip :=
  (c.wrR R.AO_STAT (was.rdR R.AO_STAT)).wrR R.AO_WAKESRC (was.rdR R.AO_WAKESRC) |>.wr F.AO_VAO_VAO (was.rd F.AO_VAO_VAO)

end Sys2Proof.Machine
end

