-- ==== Sys2Proof/Machine/RegMap.lean ====
section
/-! DEFINITION. How a host access meets each register (R4–R7, R458): the bits of every access code, and the ranges of R510.
Written from the register tables of the chapters. -/

namespace Sys2Proof.Machine

/-- A register, or a repeated one, of a page: its BAR0 offset, stride and number, and the bits of each access code (R6). -/
structure MapRow where
  base   : Nat
  stride : Nat
  count  : Nat
  rw     : Nat
  rws    : Nat
  w1c    : Nat
  wo     : Nat
  rc     : Nat
  ro     : Nat
  reset  : Nat

/-- A range of a field (R510): its register, bits `hi` to `lo`, the least and greatest value; for a unit with its own enable
bit, the register, stride, bit and step of that bit. `commit`: an RWS field, judged at a commit; else judged at the write. -/
structure RangeRow where
  base   : Nat
  stride : Nat
  count  : Nat
  hi     : Nat
  lo     : Nat
  least  : Nat
  most   : Nat
  commit : Bool
  unit   : Option (Nat × Nat × Nat × Nat) := none

/-- The IRQRAW bits of a page (R451). -/
def irqBits (p : Nat) : Nat :=
  match p with
  | 0x0 => 0x3F
  | 0x1 => 0x1F
  | 0x2 => 0x1F
  | 0x4 => 0x1F
  | 0x5 => 0xF
  | 0x6 => 0x3F
  | 0x7 => 0xFF
  | 0x8 => 0xF
  | 0x9 => 0x3F
  | 0xA => 0x7F
  | 0xB => 0x3F
  | 0xC => 0x7
  | 0xD => 0xF
  | 0xE => 0xFF
  | 0xF => 0xFF
  | 0x10 => 0x7F
  | 0x11 => 0xFF
  | 0x12 => 0xFF
  | 0x13 => 0xFFFF00FF
  | 0x14 => 0xFF
  | 0x15 => 0x3F
  | 0x16 => 0x1F
  | 0x17 => 0x3F
  | 0x18 => 0x1F
  | _ => 0

/-- Registers of page 0x00. -/
def mapRows00 : List MapRow := [
  ⟨0x40, 0, 1, 0, 0xff07, 0, 0, 0, 0, 0xa03⟩,
  ⟨0x44, 0, 1, 0, 0, 0, 0, 0, 0x7f7, 0⟩,
  ⟨0x48, 0, 1, 0, 0xffffffff, 0, 0, 0, 0, 0xffffffff⟩,
  ⟨0x4C, 0, 1, 0, 0xffffffff, 0, 0, 0, 0, 0xffffffff⟩,
  ⟨0x50, 0, 1, 0, 0xffffffff, 0, 0, 0, 0, 0xffffffff⟩,
  ⟨0x54, 0, 1, 0, 0xffffffff, 0, 0, 0, 0, 0xffffffff⟩,
  ⟨0x58, 0, 1, 0, 0xffffffff, 0, 0, 0, 0, 0xffffffff⟩,
  ⟨0x5C, 0, 1, 0, 0xffffffff, 0, 0, 0, 0, 0xffffffff⟩,
  ⟨0x60, 0, 1, 0, 0xffffffff, 0, 0, 0, 0, 0xffffffff⟩,
  ⟨0x64, 0, 1, 0, 0xffffffff, 0, 0, 0, 0, 0xffffffff⟩,
  ⟨0x68, 0, 1, 0, 0xffffffff, 0, 0, 0, 0, 0xffffffff⟩,
  ⟨0x6C, 0, 1, 0, 0xffffffff, 0, 0, 0, 0, 0xffffffff⟩,
  ⟨0x70, 0, 1, 0, 0xffffffff, 0, 0, 0, 0, 0xffffffff⟩,
  ⟨0x74, 0, 1, 0, 0xffffffff, 0, 0, 0, 0, 0xffffffff⟩,
  ⟨0x78, 0, 1, 0, 0xffffffff, 0, 0, 0, 0, 0xffffffff⟩,
  ⟨0x7C, 0, 1, 0, 0xffffffff, 0, 0, 0, 0, 0xffffffff⟩,
  ⟨0x80, 0, 1, 0, 0xffffffff, 0, 0, 0, 0, 0xffffffff⟩,
  ⟨0x84, 0, 1, 0, 0, 0, 0x1f, 0, 0, 0⟩,
  ⟨0x88, 0, 1, 0, 0, 0, 0, 0, 0xffffffff, 0⟩,
  ⟨0x8C, 0, 1, 0, 0xffffffff, 0, 0, 0, 0, 0⟩,
  ⟨0x90, 0, 1, 0, 0xffffffff, 0, 0, 0, 0, 0⟩,
  ⟨0x94, 0, 1, 0, 0x11f, 0, 0, 0, 0, 0⟩,
  ⟨0x98, 0, 1, 0xffffffff, 0, 0, 0, 0, 0, 0⟩,
  ⟨0x9C, 0, 1, 0xffffffff, 0, 0, 0, 0, 0, 0⟩,
  ⟨0xA0, 0, 1, 0xffffffff, 0, 0, 0, 0, 0, 0⟩,
  ⟨0xA4, 0, 1, 0xffffffff, 0, 0, 0, 0, 0, 0⟩,
  ⟨0xA8, 0, 1, 0xffffffff, 0, 0, 0, 0, 0, 0⟩,
  ⟨0xAC, 0, 1, 0xffffffff, 0, 0, 0, 0, 0, 0⟩,
  ⟨0xB0, 0, 1, 0xffffffff, 0, 0, 0, 0, 0, 0⟩,
  ⟨0xB4, 0, 1, 0xffffffff, 0, 0, 0, 0, 0, 0⟩,
  ⟨0xB8, 0, 1, 0, 0, 0, 3, 0, 0, 0⟩,
  ⟨0xBC, 0, 1, 0, 0, 0, 0, 0, 0xffffff03, 0⟩,
  ⟨0xC0, 0, 1, 0, 0, 0, 0, 0xffffff, 0, 0⟩]

/-- Registers of a MAC page. -/
def mapRows01 (b : Nat) : List MapRow := [
  ⟨b + 0x40, 0, 1, 0, 15, 0, 0, 0, 0, 4⟩,
  ⟨b + 0x44, 0, 1, 0, 0, 0, 0, 0, 7, 0⟩,
  ⟨b + 0x48, 0, 1, 0, 0xffffffff, 0, 0, 0, 0, 0⟩,
  ⟨b + 0x4C, 0, 1, 0, 0xffff, 0, 0, 0, 0, 0⟩,
  ⟨b + 0x50, 0, 1, 0, 0xffffffff, 0, 0, 0, 0, 0⟩,
  ⟨b + 0x54, 0, 1, 0, 0xffffffff, 0, 0, 0, 0, 0⟩,
  ⟨b + 0x58, 0, 1, 0, 0xffffffff, 0, 0, 0, 0, 0⟩,
  ⟨b + 0x5C, 0, 1, 0, 0xffffffff, 0, 0, 0, 0, 0⟩,
  ⟨b + 0x60, 0, 1, 0, 0xffffffff, 0, 0, 0, 0, 0x400040⟩,
  ⟨b + 0x64, 0, 1, 0xffff, 0, 0, 0, 0, 0xffff0000, 0⟩,
  ⟨b + 0x68, 0, 1, 0xffff, 0, 0, 0, 0, 0xffff0000, 0⟩,
  ⟨b + 0x6C, 0, 1, 0, 0xffffffff, 0, 0, 0, 0, 0⟩,
  ⟨b + 0x70, 0, 1, 0, 0, 0, 0, 0xffffffff, 0, 0⟩]

/-- Registers of page 0x03. -/
def mapRows03 : List MapRow := [
  ⟨0x3040, 0, 1, 0, 0, 0, 0, 0, 0x1f, 0⟩,
  ⟨0x3044, 0, 1, 0, 0, 0, 0, 0xffffffff, 0, 0⟩]

/-- Registers of page 0x04. -/
def mapRows04 : List MapRow := [
  ⟨0x4040, 0, 1, 0, 0xff01, 0, 0, 0, 0, 0x7d01⟩,
  ⟨0x4044, 0, 1, 0, 0, 0, 0, 0, 0xf1f, 0⟩,
  ⟨0x4048, 0, 1, 0, 0, 0, 0, 0, 0xffff0f, 0xff000f⟩,
  ⟨0x404C, 0, 1, 0, 0xffffffff, 0, 0, 0, 0, 0xa0534b0⟩,
  ⟨0x4050, 0, 1, 0, 0, 0, 0, 0xff0000, 0x300ffff, 0⟩,
  ⟨0x4054, 0, 1, 0, 0, 0, 0xffffffff, 0, 0, 0⟩,
  ⟨0x4058, 0, 1, 0, 0, 0, 0, 0, 0xffffff0f, 0⟩,
  ⟨0x405C, 0, 1, 0, 0, 0, 0xffffffff, 0, 0, 0⟩]

/-- Registers of page 0x05. -/
def mapRows05 : List MapRow := [
  ⟨0x5040, 0, 1, 0, 0xffff03, 0, 0, 0, 0, 0xa0503⟩,
  ⟨0x5044, 0, 1, 0, 0, 4, 0, 0, 0x3b, 7⟩,
  ⟨0x5048, 0, 1, 0, 0x3f, 0, 0, 0, 0, 0⟩,
  ⟨0x504C, 0, 1, 0, 0, 0, 0, 0, 0x7f, 0⟩,
  ⟨0x5050, 0, 1, 0, 0xffff0000, 0, 0, 0, 0xffff, 0xc80000⟩]

/-- Registers of page 0x06. -/
def mapRows06 : List MapRow := [
  ⟨0x6040, 0, 1, 0, 0xff03, 0, 0, 0, 0, 0x1e00⟩,
  ⟨0x6044, 0, 1, 0, 0xffffffff, 0, 0, 0, 0, 0x1e086414⟩,
  ⟨0x6048, 0, 1, 0xffffffff, 0, 0, 0, 0, 0, 0⟩,
  ⟨0x604C, 0, 1, 0, 0, 0, 0xf07, 0, 0, 0⟩,
  ⟨0x6050, 0, 1, 0xffffffff, 0, 0, 0, 0, 0, 0⟩,
  ⟨0x6054, 0, 1, 0xffffffff, 0, 0, 0, 0, 0, 0⟩,
  ⟨0x6058, 0, 1, 0xffffffff, 0, 0, 0, 0, 0, 0⟩,
  ⟨0x605C, 0, 1, 0x103ff, 0, 0, 0, 0, 0, 0⟩,
  ⟨0x6060, 0, 1, 0xffffffff, 0, 0, 0, 0, 0, 0⟩,
  ⟨0x6064, 0, 1, 0, 0, 0, 1, 0, 0, 0⟩,
  ⟨0x6068, 0, 1, 0, 0, 0, 0, 0, 0x11f, 0⟩,
  ⟨0x606C, 0, 1, 0, 0, 0, 0, 0, 0xffffffff, 0⟩,
  ⟨0x6070, 0, 1, 0, 0, 0, 0, 0, 0xffffffff, 0⟩,
  ⟨0x6074, 0, 1, 0, 0, 0, 0, 0, 0xffffffff, 0⟩,
  ⟨0x6078, 0, 1, 0, 0, 0, 0, 0, 0xfff0f, 0⟩,
  ⟨0x607C, 0, 1, 0, 0, 0, 0, 0, 0x3f3f3f, 0⟩,
  ⟨0x6080, 0, 1, 0, 0, 0, 0, 0, 0xffffffff, 0⟩,
  ⟨0x6084, 0, 1, 0, 0, 0, 0, 0, 0xff, 0⟩,
  ⟨0x6088, 0, 1, 0, 0, 0, 0, 0, 0xff0f, 0⟩]

/-- Registers of page 0x07. -/
def mapRows07 : List MapRow := [
  ⟨0x7040, 0, 1, 0, 0x70d, 0, 0, 0, 0, 0⟩,
  ⟨0x7044, 0, 1, 0, 0, 0, 0, 0, 0xffffffff, 0⟩,
  ⟨0x7048, 0, 1, 0, 0, 0, 0, 0, 0x1ffff, 0x10000⟩,
  ⟨0x704C, 0, 1, 0, 0xffffffff, 0, 0, 0, 0, 0x8000⟩,
  ⟨0x7050, 0, 1, 0, 0xffff, 0, 0, 0, 0, 0⟩,
  ⟨0x7054, 0, 1, 0, 0, 0, 0, 0, 0x1ffff, 0⟩,
  ⟨0x7058, 0, 1, 0, 0, 0, 0, 0, 0xffffffff, 0⟩,
  ⟨0x705C, 0, 1, 0, 0xffffffff, 0, 0, 0, 0, 0⟩,
  ⟨0x7060, 0, 1, 0, 0, 0, 3, 0, 0, 0⟩,
  ⟨0x7080, 0x40, 2, 0, 0, 0, 0, 0, 0xffffffff, 0⟩,
  ⟨0x7084, 0x40, 2, 0, 0, 0, 0, 0, 0xffffffff, 0⟩,
  ⟨0x7088, 0x40, 2, 0, 0, 0, 0, 0, 0xffffffff, 0⟩,
  ⟨0x708C, 0x40, 2, 0, 0, 0, 0, 0, 0xffffffff, 0⟩,
  ⟨0x7090, 0x40, 2, 0, 0, 0, 0, 0, 0xffffffff, 0⟩,
  ⟨0x7094, 0x40, 2, 0, 0, 0, 0, 0, 0xffffffff, 0⟩,
  ⟨0x7098, 0x40, 2, 0, 0, 0, 0, 0, 0xffffffff, 0⟩,
  ⟨0x709C, 0x40, 2, 0, 0, 0, 0, 0, 0xffffffff, 0⟩,
  ⟨0x70A0, 0x40, 2, 0, 0, 0, 0, 0, 0xffffffff, 0⟩,
  ⟨0x70A4, 0x40, 2, 0, 0, 0, 0, 0, 0xffffffff, 0⟩,
  ⟨0x70A8, 0x40, 2, 0, 0, 0, 0, 0, 0xffffffff, 0⟩,
  ⟨0x70AC, 0x40, 2, 0, 0, 0, 0, 0, 0xffffffff, 0⟩,
  ⟨0x7100, 0x10, 16, 0, 0, 0, 0xffffffff, 0, 0, 0⟩,
  ⟨0x7104, 0x10, 16, 0, 0, 0, 0, 0, 0xffffffff, 0⟩,
  ⟨0x7108, 0x10, 16, 0, 0, 0, 0, 0, 0xffffffff, 0⟩,
  ⟨0x710C, 0x10, 16, 0, 0, 0, 0, 0xffffff, 0, 0⟩]

/-- Registers of page 0x08. -/
def mapRows08 : List MapRow := [
  ⟨0x8040, 0, 1, 0, 0xff07, 0, 0, 0, 0, 0x6400⟩,
  ⟨0x8044, 0, 1, 0, 0x1ff, 0, 0, 0, 0, 10⟩,
  ⟨0x8048, 0, 1, 0, 0xff, 0, 0, 0, 0, 10⟩,
  ⟨0x804C, 0, 1, 0, 0, 0, 0, 0, 0xffff071f, 0x100⟩,
  ⟨0x8050, 0, 1, 0, 0xffff, 0, 0, 0, 0, 0⟩,
  ⟨0x8054, 0, 1, 0x11f0f, 0, 0, 0, 0, 0, 0⟩,
  ⟨0x8058, 0, 1, 0, 0, 0, 0, 0, 0xffffffff, 0⟩,
  ⟨0x805C, 0, 1, 0, 0, 0, 0x3fffffe, 0, 0, 0⟩,
  ⟨0x8060, 0, 1, 0, 0, 0, 0, 0, 0x3fffffe, 0⟩,
  ⟨0x8064, 0, 1, 0, 0, 0, 0, 0, 0xffffffff, 1⟩,
  ⟨0x8068, 0, 1, 0, 0, 0, 0xffffffff, 0, 0, 0⟩,
  ⟨0x806C, 0, 1, 0, 0, 0, 0, 0, 0x8fffffff, 0⟩,
  ⟨0x8070, 0, 1, 0, 0, 0, 1, 0, 0, 0⟩,
  ⟨0x8074, 0, 1, 0, 0, 0, 0, 0, 0x80ffff00, 0⟩,
  ⟨0x8078, 0, 1, 0, 0, 0, 0x8000ffff, 0, 0, 0⟩]

/-- Registers of page 0x09. -/
def mapRows09 : List MapRow := [
  ⟨0x9040, 0, 1, 0, 0xffff0077, 0, 0, 0, 0, 0x640004⟩,
  ⟨0x9044, 0, 1, 0, 0xffff0fff, 0, 0, 0, 0, 0xa140214⟩,
  ⟨0x9048, 0, 1, 0, 0xffff00ff, 0, 0, 0, 0, 0x320005⟩,
  ⟨0x904C, 0, 1, 0, 0, 0, 0, 0, 0xff9f, 0⟩,
  ⟨0x9050, 0, 1, 0, 0, 0, 0, 0, 0xffffff, 0⟩,
  ⟨0x9054, 0, 1, 0, 0, 0, 0, 0, 0xff, 0⟩,
  ⟨0x9058, 0, 1, 0, 0, 0, 3, 0, 0, 0⟩,
  ⟨0x905C, 0, 1, 0, 0, 0, 0, 0, 0xff00ff, 0⟩,
  ⟨0x9060, 0, 1, 0, 0, 0, 0, 0, 0xffffffff, 0⟩,
  ⟨0x9064, 0, 1, 0, 0, 0, 0, 0, 0xf0f, 0⟩,
  ⟨0x9068, 0, 1, 0, 0, 0, 0, 0xffffffff, 0, 0⟩]

/-- Registers of page 0x0A. -/
def mapRows0A : List MapRow := [
  ⟨0xA040, 0, 1, 0, 0x1f3f, 0, 0, 0, 0, 0⟩,
  ⟨0xA044, 0, 1, 0, 0xffffff, 0, 0, 0, 0, 0xc350⟩,
  ⟨0xA048, 0, 1, 0, 0xffffff, 0, 0, 0, 0, 0xc350⟩,
  ⟨0xA04C, 0, 1, 0, 0xffff, 0, 0, 0, 0, 0x4000⟩,
  ⟨0xA050, 0, 1, 0, 0xffffffff, 0, 0, 0, 0, 0x25641414⟩,
  ⟨0xA054, 0, 1, 0, 0xffffff, 0, 0, 0, 0, 0x203228⟩,
  ⟨0xA058, 0, 1, 0, 0xffffff7f, 0, 0, 0, 0, 0x3253c864⟩,
  ⟨0xA05C, 0, 1, 0, 0, 0, 0, 0, 0x1ff, 1⟩,
  ⟨0xA060, 0, 1, 0, 0, 0, 0, 0, 0xffffff, 0xc350⟩,
  ⟨0xA064, 0, 1, 0, 0, 0, 0, 0, 0xffffffff, 0⟩,
  ⟨0xA068, 0, 1, 0, 0, 0, 0, 0, 0xffffffff, 0⟩,
  ⟨0xA06C, 0, 1, 0, 0, 0, 0, 0, 0xffff, 0⟩,
  ⟨0xA070, 0, 1, 0, 0, 0, 0, 0, 0xffffffff, 1⟩,
  ⟨0xA074, 0, 1, 0, 0, 0, 0, 0, 0xffffffff, 0⟩,
  ⟨0xA078, 0, 1, 0, 0, 0, 0, 0, 0xffffffff, 0⟩,
  ⟨0xA07C, 0, 1, 0, 0, 0, 0, 0, 0xffff, 0x7a1⟩,
  ⟨0xA080, 0, 1, 0, 0, 0, 0, 0, 0xffffffff, 0⟩,
  ⟨0xA084, 0, 1, 0, 0, 0, 0, 0, 0xffffffff, 0⟩,
  ⟨0xA088, 0, 1, 0x103ff, 0, 0, 0, 0, 0, 0⟩,
  ⟨0xA08C, 0, 1, 0xffffffff, 0, 0, 0, 0, 0, 0⟩,
  ⟨0xA090, 0, 1, 0xffffffff, 0, 0, 0, 0, 0, 0⟩,
  ⟨0xA094, 0, 1, 0xffffffff, 0, 0, 0, 0, 0, 0⟩,
  ⟨0xA098, 0, 1, 0xffffffff, 0, 0, 0, 0, 0, 0⟩,
  ⟨0xA09C, 0, 1, 0, 0, 0, 0x13, 0, 0, 0⟩,
  ⟨0xA0A0, 0, 1, 0, 0, 0, 0, 0x3ffffff, 0, 0⟩,
  ⟨0xA0A4, 0, 1, 0xffffffff, 0, 0, 0, 0, 0, 0⟩,
  ⟨0xA0A8, 0, 1, 0, 0, 0, 0xffffffff, 0, 0, 0⟩,
  ⟨0xA0AC, 0, 1, 0, 0, 0, 0xffffffff, 0, 0, 0⟩]

/-- Registers of page 0x0B. -/
def mapRows0B : List MapRow := [
  ⟨0xB040, 0x40, 6, 0, 0xff3f, 0, 0, 0, 0, 0⟩,
  ⟨0xB044, 0x40, 6, 0, 0xffffff, 0, 0, 0, 0, 0x7d00⟩,
  ⟨0xB048, 0x40, 6, 0, 0xffffff, 0, 0, 0, 0, 0x8e666⟩,
  ⟨0xB04C, 0x40, 6, 0, 0xffffff1f, 0, 0, 0, 0, 0⟩,
  ⟨0xB050, 0x40, 6, 0, 0xffff033f, 0, 0, 0, 0, 0xa640204⟩,
  ⟨0xB054, 0x40, 6, 0, 0x3fff3fff, 0, 0, 0, 0, 0⟩,
  ⟨0xB058, 0x40, 6, 0, 0xff97ff, 0, 0, 0, 0, 0x3200c8⟩,
  ⟨0xB05C, 0x40, 6, 0, 0xffff, 0, 0, 0, 0, 0x4000⟩,
  ⟨0xB060, 0x40, 6, 0, 0x11fffff, 0, 0, 0, 0, 0x4000⟩,
  ⟨0xB064, 0x40, 6, 0, 0, 0, 0, 0, 0xffffffff, 0⟩,
  ⟨0xB200, 0x10, 12, 0, 0xfff0fff, 0, 0, 0, 0, 0xc000c0⟩,
  ⟨0xB204, 0x10, 12, 0, 0xffff, 0, 0, 0, 0, 0⟩,
  ⟨0xB208, 0x10, 12, 0, 0, 0, 0, 0, 0xff, 7⟩,
  ⟨0xB300, 0, 1, 0xfff, 0, 0, 0, 0, 0, 0⟩]

/-- Registers of page 0x0C. -/
def mapRows0C : List MapRow := [
  ⟨0xC040, 0, 1, 0, 0xffff, 0, 0, 0, 0, 0x1000⟩,
  ⟨0xC044, 0, 1, 0, 0xffff3fff, 0, 0, 0, 0, 0x8000200⟩,
  ⟨0xC048, 0, 1, 0, 0, 0, 0, 0, 0xffff, 0⟩,
  ⟨0xC04C, 0, 1, 0, 0, 0, 0, 0, 0xffffffff, 0⟩,
  ⟨0xC100, 0x10, 16, 0, 0x3ff077f, 0, 0, 0, 0, 0⟩,
  ⟨0xC104, 0x10, 16, 0, 0xffff3fff, 0, 0, 0, 0, 0x40000000⟩,
  ⟨0xC108, 0x10, 16, 0, 0, 0, 0, 0, 0xff03ffff, 0⟩,
  ⟨0xC200, 8, 32, 0, 15, 0, 0, 0, 0, 0⟩,
  ⟨0xC204, 8, 32, 0, 0, 0, 0, 0, 0xff03ffff, 0⟩]

/-- Registers of page 0x0D. -/
def mapRows0D : List MapRow := [
  ⟨0xD040, 8, 6, 0, 0xffff1f1, 0, 0, 0, 0, 0x6450000⟩,
  ⟨0xD044, 8, 6, 0, 0x3fff, 0, 0, 0, 0, 0x40⟩,
  ⟨0xD070, 0, 1, 0, 0, 0, 0, 0, 0xffffff, 0⟩,
  ⟨0xD074, 0, 1, 0, 0, 0, 0xffffff, 0, 0, 0⟩,
  ⟨0xD078, 0, 1, 0, 0xffffffff, 0, 0, 0, 0, 0x641003e8⟩,
  ⟨0xD100, 0x10, 24, 0, 0x80ffffff, 0, 0, 0, 0, 0⟩,
  ⟨0xD104, 0x10, 24, 0, 0x3ff, 0, 0, 0, 0, 0x3ff⟩,
  ⟨0xD108, 0x10, 24, 0, 0x7fff, 0, 0, 0, 0, 0⟩,
  ⟨0xD10C, 0x10, 24, 0, 0, 0, 0, 0, 0xffffff0f, 0⟩]

/-- Registers of page 0x0E. -/
def mapRows0E : List MapRow := [
  ⟨0xE040, 0, 1, 0, 3, 0, 0, 0, 0, 3⟩,
  ⟨0xE044, 0, 1, 0, 0, 0, 0, 0, 0xff01ffff, 0⟩,
  ⟨0xE048, 0, 1, 0, 0, 0, 0, 0x1fffff, 0, 0⟩,
  ⟨0xE04C, 0, 1, 0, 0, 0, 0xffffffff, 0, 0, 0⟩,
  ⟨0xE050, 0, 1, 0, 0, 0, 0xffffffff, 0, 0, 0⟩,
  ⟨0xE054, 0, 1, 0x3ffff, 0, 0, 0, 0, 0, 0⟩,
  ⟨0xE058, 0, 1, 0xffffffff, 0, 0, 0, 0, 0, 0⟩,
  ⟨0xE05C, 0, 1, 0, 0, 0, 0, 0, 0x3f, 0⟩,
  ⟨0xE100, 0x20, 32, 0, 0x77f7f7f, 0, 0, 0, 0, 0x11100⟩,
  ⟨0xE104, 0x20, 32, 0, 0xffff01ff, 0, 0, 0, 0, 0⟩,
  ⟨0xE108, 0x20, 32, 0, 0xffffffff, 0, 0, 0, 0, 0xffffffff⟩,
  ⟨0xE10C, 0x20, 32, 0, 0xffffffff, 0, 0, 0, 0, 0xffffffff⟩,
  ⟨0xE110, 0x20, 32, 0, 0xffffffff, 0, 0, 0, 0, 0⟩,
  ⟨0xE114, 0x20, 32, 0, 0xffffffff, 0, 0, 0, 0, 0⟩,
  ⟨0xE118, 0x20, 32, 0, 0xff07ffff, 0, 0, 0, 0, 0xff000000⟩,
  ⟨0xE11C, 0x20, 32, 0, 0xfff, 0, 0, 0, 0, 0⟩,
  ⟨0xE500, 0x10, 32, 0, 0, 0x780000, 0, 0, 0x80787f, 0⟩,
  ⟨0xE504, 0x10, 32, 0, 0, 0, 0, 0, 0xffffffff, 0⟩,
  ⟨0xE508, 0x10, 32, 0, 0, 0, 0, 0xffffffff, 0, 0⟩,
  ⟨0xE50C, 0x10, 32, 0, 0, 0, 0, 0, 0xffffffff, 0⟩]

/-- Registers of page 0x0F. -/
def mapRows0F : List MapRow := [
  ⟨0xF040, 0, 1, 0, 0x1f, 0, 0, 0, 0, 0⟩,
  ⟨0xF044, 0, 1, 0, 0xffffffff, 0, 0, 0, 0, 0x7d02af8⟩,
  ⟨0xF048, 0, 1, 0, 0xffffff, 0, 0, 0, 0, 0xa2af8⟩,
  ⟨0xF04C, 0, 1, 0, 0xffffffff, 0, 0, 0, 0, 0xff⟩,
  ⟨0xF050, 0, 1, 0, 0xffffffff, 0, 0, 0, 0, 0x35b61e14⟩,
  ⟨0xF054, 0, 1, 0, 0xffffffff, 0, 0, 0, 0, 0xa0a640a⟩,
  ⟨0xF058, 0, 1, 0, 0xff, 0, 0, 0, 0, 0xff⟩,
  ⟨0xF05C, 0, 1, 0, 0xfffffff, 0, 0, 0, 0, 0x12c2b5c⟩,
  ⟨0xF060, 0, 1, 0, 0xffff, 0, 0, 0, 0, 0x464⟩,
  ⟨0xF064, 0, 1, 0, 0xffffffff, 0, 0, 0, 0, 0x32142904⟩,
  ⟨0xF068, 0, 1, 0, 0xffffffff, 0, 0, 0, 0, 0x320a140a⟩,
  ⟨0xF06C, 0, 1, 0, 0xffff, 0, 0, 0, 0, 0x50a⟩,
  ⟨0xF070, 0, 1, 0, 0xffffffff, 0, 0, 0, 0, 0⟩,
  ⟨0xF074, 0, 1, 0, 0xffffffff, 0, 0, 0, 0, 0⟩,
  ⟨0xF078, 0, 1, 0, 0, 0, 0, 0, 0xff0fff, 0⟩,
  ⟨0xF07C, 0, 1, 0, 0, 0, 0, 0, 0xffffffff, 0⟩,
  ⟨0xF080, 0, 1, 0, 0, 0, 0, 0, 0xffffffff, 0⟩,
  ⟨0xF084, 0, 1, 0, 0, 0, 0, 0, 0x3ffff, 0⟩,
  ⟨0xF090, 0, 1, 0xffffffff, 0, 0, 0, 0, 0, 0⟩,
  ⟨0xF094, 0, 1, 0xffffffff, 0, 0, 0, 0, 0, 0⟩,
  ⟨0xF098, 0, 1, 0, 0, 0, 0x7fffffff, 0, 0, 0⟩,
  ⟨0xF09C, 0, 1, 0, 0, 0, 0, 0, 0xff, 0⟩,
  ⟨0xF0A0, 0x10, 4, 0, 0, 0, 0, 0, 0xffffffff, 0⟩,
  ⟨0xF0A4, 0x10, 4, 0, 0, 0, 0, 0, 0x1ffffff, 0⟩,
  ⟨0xF0A8, 0x10, 4, 0, 0, 0, 0, 0, 0xffffff, 0⟩,
  ⟨0xF100, 0x10, 8, 0, 0xffff03ff, 0, 0, 0, 0, 0xff000000⟩,
  ⟨0xF104, 0x10, 8, 0, 0xffffffff, 0, 0, 0, 0, 0⟩,
  ⟨0xF108, 0x10, 8, 0, 0, 0, 0, 0, 0x7ffff, 0⟩,
  ⟨0xF10C, 0x10, 8, 0, 0, 0, 0, 0, 0xffffffff, 0⟩,
  ⟨0xF200, 8, 8, 0, 0x7fff, 0, 0, 0, 0, 0⟩,
  ⟨0xF204, 8, 8, 0, 0xfffffff, 0, 0, 0, 0, 0x12c2b5c⟩]

/-- Registers of page 0x10. -/
def mapRows10 : List MapRow := [
  ⟨0x10040, 0, 1, 0, 0xffd, 0, 0, 0, 0, 0⟩,
  ⟨0x10044, 0, 1, 0, 0, 0, 0, 0, 0xffffffff, 0⟩,
  ⟨0x10048, 0, 1, 0, 0, 0, 0, 0, 0xffffffff, 0⟩,
  ⟨0x1004C, 0, 1, 0, 0, 0, 0, 0, 0x7f0, 0⟩,
  ⟨0x10050, 0, 1, 0, 0, 0, 0, 0, 0x1f, 0⟩,
  ⟨0x10054, 0, 1, 0, 0xffffffff, 0, 0, 0, 0, 0xa0a780a⟩,
  ⟨0x10058, 0, 1, 0, 0xffffff, 0, 0, 0, 0, 0x53232⟩,
  ⟨0x1005C, 0, 1, 0, 0xffffff, 0, 0, 0, 0, 0⟩,
  ⟨0x10060, 0, 1, 0, 0xffffff, 0, 0, 0, 0, 0⟩,
  ⟨0x10064, 0, 1, 0, 0, 0, 0, 0, 0x3ffffff, 0⟩,
  ⟨0x10068, 0, 1, 0, 0, 0, 0, 0, 0x1ffffff, 0⟩,
  ⟨0x1006C, 0, 1, 0, 0, 0, 0, 0, 0xffffff, 0⟩,
  ⟨0x10070, 0, 1, 0, 0, 0, 0, 0, 0xffffff, 0⟩,
  ⟨0x10074, 0, 1, 0, 0, 0, 0, 0, 0xffffff, 0⟩,
  ⟨0x10078, 0, 1, 0, 0xffffffff, 0, 0, 0, 0, 0⟩,
  ⟨0x1007C, 0, 1, 0, 0xffffffff, 0, 0, 0, 0, 0⟩,
  ⟨0x10080, 0, 1, 0x1ff, 0, 0, 0, 0, 0, 0⟩,
  ⟨0x10084, 0, 1, 0, 0x80000fff, 0, 0, 0, 0, 0⟩,
  ⟨0x10088, 0, 1, 0, 0, 0, 0, 0, 0x3ff, 0⟩,
  ⟨0x1008C, 0, 1, 0, 0, 0, 0, 0xffffffff, 0, 0⟩,
  ⟨0x10090, 0, 1, 0xffffffff, 0, 0, 0, 0, 0, 0⟩,
  ⟨0x10094, 0, 1, 0, 0, 0, 0, 0, 0xffffffff, 0⟩,
  ⟨0x10098, 0, 1, 0, 0, 0, 0, 0, 0xffffffff, 0⟩,
  ⟨0x1009C, 0, 1, 0, 0, 0, 0, 0, 0xffffffff, 0⟩,
  ⟨0x100A0, 0, 1, 0, 0, 0, 0, 0, 0xffffffff, 0⟩,
  ⟨0x100A4, 0, 1, 0, 0, 0, 0, 0, 7, 0⟩,
  ⟨0x100A8, 0, 1, 0xffffffff, 0, 0, 0, 0, 0, 0⟩,
  ⟨0x100AC, 0, 1, 0xffffffff, 0, 0, 0, 0, 0, 0⟩,
  ⟨0x100B0, 0, 1, 0xffffffff, 0, 0, 0, 0, 0, 0⟩,
  ⟨0x100B4, 0, 1, 0xffffffff, 0, 0, 0, 0, 0, 0⟩,
  ⟨0x100B8, 0, 1, 0, 0, 0, 3, 0, 0, 0⟩,
  ⟨0x100BC, 0, 1, 0, 0, 0, 0, 0, 0xffffff, 0⟩,
  ⟨0x100C0, 0, 1, 0, 0, 0, 0, 0, 0xfff, 0⟩,
  ⟨0x100C4, 0, 1, 0, 0x1f, 0, 0, 0, 0, 0⟩,
  ⟨0x100C8, 0, 1, 0xffffffff, 0, 0, 0, 0, 0, 0⟩,
  ⟨0x100CC, 0, 1, 0xffffffff, 0, 0, 0, 0, 0, 0⟩,
  ⟨0x100D0, 0, 1, 0xffffffff, 0, 0, 0, 0, 0, 0⟩,
  ⟨0x100D4, 0, 1, 0xffffffff, 0, 0, 0, 0, 0, 0⟩,
  ⟨0x100D8, 0, 1, 0xffffffff, 0, 0, 0, 0, 0, 0⟩,
  ⟨0x100DC, 0, 1, 0xffffffff, 0, 0, 0, 0, 0, 0⟩,
  ⟨0x100E0, 0, 1, 0, 0, 0, 3, 0, 0, 0⟩,
  ⟨0x100E4, 0, 1, 0, 0xffffffff, 0, 0, 0, 0, 0⟩,
  ⟨0x100E8, 0, 1, 0, 0xffffffff, 0, 0, 0, 0, 0⟩,
  ⟨0x100EC, 0, 1, 0, 0x1f, 0, 0, 0, 0x1f00, 0⟩,
  ⟨0x100F0, 0, 1, 0, 0xffffffff, 0, 0, 0, 0, 0xffffffff⟩,
  ⟨0x100F4, 0, 1, 0, 0xffffffff, 0, 0, 0, 0, 0xffffffff⟩,
  ⟨0x10100, 8, 8, 0, 0x9f03ffff, 0, 0, 0, 0, 0⟩,
  ⟨0x10104, 8, 8, 0, 0xffff, 0, 0, 0, 0, 0⟩,
  ⟨0x10200, 0x10, 32, 0, 0xffffffff, 0, 0, 0, 0, 0⟩,
  ⟨0x10204, 0x10, 32, 0, 0xffffff3f, 0, 0, 0, 0, 0⟩,
  ⟨0x10208, 0x10, 32, 0, 0xffffffff, 0, 0, 0, 0, 0⟩,
  ⟨0x1020C, 0x10, 32, 0, 0, 0, 0, 0, 0xffffffff, 0⟩,
  ⟨0x10400, 0x10, 32, 0, 0, 0, 0, 0, 0xffffffff, 0⟩,
  ⟨0x10404, 0x10, 32, 0, 0x3ff, 0, 0, 0, 0, 1⟩,
  ⟨0x10408, 0x10, 32, 0, 0, 0, 0, 0, 0x1ffffff, 0⟩,
  ⟨0x1040C, 0x10, 32, 0, 0, 0, 0, 0, 0xffffff, 0⟩]

/-- Registers of page 0x11. -/
def mapRows11 : List MapRow := [
  ⟨0x11040, 0, 1, 0, 0xff01, 0, 0, 0, 0, 0x2800⟩,
  ⟨0x11044, 0, 1, 0xffff, 0, 0, 0, 0, 0, 0⟩,
  ⟨0x11048, 0, 1, 0, 0, 0, 0, 0, 0xffffffff, 0⟩,
  ⟨0x1104C, 0, 1, 0, 0, 0, 0, 0, 0xffffffff, 0⟩,
  ⟨0x11050, 0, 1, 0, 0, 0, 0, 0, 0xffffff, 0⟩,
  ⟨0x11054, 0, 1, 0, 0, 0, 0xffff, 0, 0, 0⟩,
  ⟨0x11060, 4, 8, 0, 0xfffff, 0, 0, 0, 0, 0⟩,
  ⟨0x11100, 0x40, 16, 0, 0xffffff1f, 0, 0, 0, 0, 0x2214640c⟩,
  ⟨0x11104, 0x40, 16, 0, 0xff0fff, 0, 0, 0, 0, 0x5a0000⟩,
  ⟨0x11108, 0x40, 16, 0, 0xffffffff, 0, 0, 0, 0, 0x3e800000⟩,
  ⟨0x1110C, 0x40, 16, 0, 0x3fffffff, 0, 0, 0, 0, 0x32003e8⟩,
  ⟨0x11110, 0x40, 16, 0, 0x3fff03ff, 0, 0, 0, 0, 0x20020064⟩,
  ⟨0x11114, 0x40, 16, 0, 0xffffffff, 0, 0, 0, 0, 0x19641c20⟩,
  ⟨0x11118, 0x40, 16, 0, 0xffffffff, 0, 0, 0, 0, 0xa320000⟩,
  ⟨0x1111C, 0x40, 16, 0, 0xffffffff, 0, 0, 0, 0, 0xff⟩,
  ⟨0x11120, 0x40, 16, 0, 0, 0, 0, 0, 0xff07ff, 0⟩,
  ⟨0x11124, 0x40, 16, 0, 0, 0, 0, 0, 0xffffffff, 0⟩,
  ⟨0x11128, 0x40, 16, 0, 0, 0, 0, 0, 0xffffffff, 0xffff⟩,
  ⟨0x1112C, 0x40, 16, 0, 0, 0, 0, 0xffff, 0, 0⟩]

/-- Registers of page 0x12. -/
def mapRows12 : List MapRow := [
  ⟨0x12040, 0, 1, 0, 0x3f, 0, 0, 0, 0, 12⟩,
  ⟨0x12044, 0, 1, 0, 0xffffffff, 0, 0, 0, 0, 0x7d02af8⟩,
  ⟨0x12048, 0, 1, 0, 0xffffffff, 0, 0, 0, 0, 0⟩,
  ⟨0x1204C, 0, 1, 0, 0xffffffff, 0, 0, 0, 0, 0x57805aa⟩,
  ⟨0x12050, 0, 1, 0, 0xffffffff, 0, 0, 0, 0, 0x6400384⟩,
  ⟨0x12054, 0, 1, 0, 0xffffffff, 0, 0, 0, 0, 0x303c5f50⟩,
  ⟨0x12058, 0, 1, 0, 0xffffffff, 0, 0, 0, 0, 0x3e8⟩,
  ⟨0x1205C, 0, 1, 0, 0xffffffff, 0, 0, 0, 0, 0x2dec37d8⟩,
  ⟨0x12060, 0, 1, 0, 0xffffffff, 0, 0, 0, 0, 0x23ec3245⟩,
  ⟨0x12064, 0, 1, 0, 0xffffffff, 0, 0, 0, 0, 0x14140a1e⟩,
  ⟨0x12068, 0, 1, 0, 0xfff0ffff, 0, 0, 0, 0, 0x962000c8⟩,
  ⟨0x1206C, 0, 1, 0, 0xffffffff, 0, 0, 0, 0, 0x12c000a⟩,
  ⟨0x12070, 0, 1, 0, 0, 0, 0, 0, 0x1fff, 0⟩,
  ⟨0x12074, 0, 1, 0, 0, 0, 0, 0, 0xffffff, 0x320000⟩,
  ⟨0x12078, 0, 1, 0, 0, 0, 0, 0, 0xffffffff, 0⟩,
  ⟨0x1207C, 0, 1, 0, 0, 0, 0, 0, 0xffffffff, 0⟩,
  ⟨0x12080, 0, 1, 0x300ff, 0, 0, 0, 0, 0, 0⟩,
  ⟨0x12084, 0, 1, 0xffffffff, 0, 0, 0, 0, 0, 0⟩,
  ⟨0x12088, 0, 1, 0, 0, 0, 3, 0, 0, 0⟩,
  ⟨0x1208C, 0, 1, 0, 0, 0, 0xffffffff, 0, 0, 0⟩,
  ⟨0x12090, 0, 1, 0, 0, 0, 0, 0, 0xffff1f0f, 0⟩,
  ⟨0x12094, 0, 1, 0, 0, 0, 0, 0, 0xc000ffff, 0⟩,
  ⟨0x12098, 0, 1, 0, 0, 0, 0, 0, 0xffffffff, 0⟩,
  ⟨0x120A0, 0x10, 4, 0, 0x8000ffff, 0, 0, 0, 0, 0xffff⟩,
  ⟨0x120A4, 0x10, 4, 0, 0xffffff, 0, 0, 0, 0, 0⟩,
  ⟨0x120A8, 0x10, 4, 0, 0xffffff, 0, 0, 0, 0, 0⟩,
  ⟨0x120AC, 0x10, 4, 0, 0, 0, 0, 0, 0xffffffff, 0⟩,
  ⟨0x12100, 0x20, 16, 0, 0xffffffff, 0, 0, 0, 0, 0⟩,
  ⟨0x12104, 0x20, 16, 0, 0, 0, 0, 0, 0xffffffff, 0x32000000⟩,
  ⟨0x12108, 0x20, 16, 0, 0, 0, 0, 0, 0xffffffff, 0⟩,
  ⟨0x1210C, 0x20, 16, 0, 0, 0, 0, 0, 0xffffffff, 0⟩,
  ⟨0x12110, 0x20, 16, 0, 0, 0, 0, 0, 0xffffffff, 0⟩,
  ⟨0x12114, 0x20, 16, 0, 0, 0, 0, 0, 0x3ff, 0⟩,
  ⟨0x12118, 0x20, 16, 0, 0, 0, 0, 0, 0xffffffff, 0⟩]

/-- Registers of page 0x13. -/
def mapRows13 : List MapRow := [
  ⟨0x13040, 0, 1, 0, 0xff01, 0, 0, 0, 0, 0xa00⟩,
  ⟨0x13044, 0, 1, 0, 0xffffffff, 0, 0, 0, 0, 0x8640a32⟩,
  ⟨0x13048, 0, 1, 0, 0xffffffff, 0, 0, 0, 0, 0xad844414⟩,
  ⟨0x1304C, 0, 1, 0, 0xf3ffff, 0, 0, 0, 0, 0x826419⟩,
  ⟨0x13100, 0x40, 4, 0, 0xff1f, 0, 0, 0, 0, 0x3200⟩,
  ⟨0x13104, 0x40, 4, 0, 0, 0, 0, 0, 0xff3777ff, 0⟩,
  ⟨0x13108, 0x40, 4, 0, 0, 0, 0, 0, 0x77ffffff, 0⟩,
  ⟨0x1310C, 0x40, 4, 0, 0, 0, 1, 0, 0, 0⟩,
  ⟨0x13110, 0x40, 4, 0, 0, 0, 0, 0, 0xffff, 0⟩,
  ⟨0x13114, 0x40, 4, 0, 0, 0, 0, 0, 0xffffffff, 0⟩,
  ⟨0x13118, 0x40, 4, 0, 0, 0, 0, 0, 0xffffffff, 0⟩,
  ⟨0x1311C, 0x40, 4, 0, 0, 0, 0, 0, 0xffffffff, 0⟩,
  ⟨0x13120, 0x40, 4, 0, 0, 0, 0, 0, 0xffffffff, 0⟩,
  ⟨0x13124, 0x40, 4, 0, 0, 0, 0, 0, 0xffffffff, 0⟩,
  ⟨0x13128, 0x40, 4, 0, 0, 0, 0, 0, 0xffffffff, 0⟩,
  ⟨0x1312C, 0x40, 4, 0, 0, 0, 0, 0, 0xffffffff, 0⟩,
  ⟨0x13130, 0x40, 4, 0, 0, 0, 0, 0xffffffff, 0, 0⟩,
  ⟨0x13134, 0x40, 4, 0, 0, 0, 0, 0xffffffff, 0, 0⟩,
  ⟨0x13050, 0, 1, 0, 0xffffffff, 0, 0, 0, 0, 0xa1e1e32⟩,
  ⟨0x13054, 0, 1, 0, 0xf0ffffff, 0, 0, 0, 0, 0x300a0a14⟩,
  ⟨0x13058, 0, 1, 0, 3, 0, 0, 0, 0, 0⟩,
  ⟨0x13060, 0, 1, 0xffffffff, 0, 0, 0, 0, 0, 0⟩,
  ⟨0x13064, 0, 1, 0xffffffff, 0, 0, 0, 0, 0, 0⟩,
  ⟨0x13068, 0, 1, 0xffffffff, 0, 0, 0, 0, 0, 0⟩,
  ⟨0x1306C, 0, 1, 0xffffffff, 0, 0, 0, 0, 0, 0⟩,
  ⟨0x13070, 0, 1, 0, 0, 0, 0xf3, 0, 0, 0⟩,
  ⟨0x13074, 0, 1, 0, 0, 0, 0, 0, 0x1ff, 0⟩,
  ⟨0x13200, 0x40, 4, 0, 0xffff0771, 0, 0, 0, 0, 0x10⟩,
  ⟨0x13204, 0x40, 4, 0, 0x71f071f, 0, 0, 0, 0, 0⟩,
  ⟨0x13208, 0x40, 4, 0, 0xffffffff, 0, 0, 0, 0, 0x7d02ee0⟩,
  ⟨0x1320C, 0x40, 4, 0, 0xffffffff, 0, 0, 0, 0, 0xff⟩,
  ⟨0x13210, 0x40, 4, 0, 0xffffffff, 0, 0, 0, 0, 0x30146414⟩,
  ⟨0x13214, 0x40, 4, 0, 0xffffffff, 0, 0, 0, 0, 0⟩,
  ⟨0x13218, 0x40, 4, 0, 0xffffffff, 0, 0, 0, 0, 0⟩,
  ⟨0x1321C, 0x40, 4, 0, 0xffffffff, 0, 0, 0, 0, 0⟩,
  ⟨0x13220, 0x40, 4, 0, 0xffffffff, 0, 0, 0, 0, 0⟩,
  ⟨0x13224, 0x40, 4, 0, 0xfffffff8, 0, 0, 0, 0, 0⟩,
  ⟨0x13228, 0x40, 4, 0, 0, 0, 0, 0, 0xfeffff0f, 0xff0000⟩,
  ⟨0x1322C, 0x40, 4, 0, 0, 0, 0, 0, 0x3ffffff, 0⟩,
  ⟨0x13230, 0x40, 4, 0, 0, 0, 0, 0, 0xffffffff, 0⟩,
  ⟨0x13234, 0x40, 4, 0, 0, 0, 0, 0, 0xffffffff, 0⟩,
  ⟨0x13238, 0x40, 4, 0, 0, 0, 0, 0, 0xffffffff, 0⟩,
  ⟨0x1323C, 0x40, 4, 0, 0, 0, 0x1f, 0, 0, 0⟩]

/-- Registers of page 0x14. -/
def mapRows14 : List MapRow := [
  ⟨0x14040, 0, 1, 0, 0xff07, 0, 0, 0, 0, 0xa06⟩,
  ⟨0x14044, 0, 1, 0, 0xff0fffff, 0, 0, 0, 0, 0x503000a⟩,
  ⟨0x14048, 0, 1, 0, 0xffffffff, 0, 0, 0, 0, 0x200a2810⟩,
  ⟨0x14100, 0x20, 2, 0, 7, 0, 0, 0, 0, 0⟩,
  ⟨0x14104, 0x20, 2, 0, 0x1f1f1f1f, 0, 0, 0, 0, 0⟩,
  ⟨0x14108, 0x20, 2, 0, 0, 0, 0, 0, 0xff3f3ff3, 0⟩,
  ⟨0x1410C, 0x20, 2, 0, 0, 0, 0, 0xffffffff, 0, 0⟩,
  ⟨0x14110, 0x20, 2, 0, 0, 0, 0, 0xffffffff, 0, 0⟩]

/-- Registers of page 0x15. -/
def mapRows15 : List MapRow := [
  ⟨0x15040, 0, 1, 0, 0xfff07, 0, 0, 0, 0, 0x30a02⟩,
  ⟨0x15044, 0, 1, 0xfff7f, 0, 0, 0x80000000, 0, 0, 0x80000⟩,
  ⟨0x15048, 0, 1, 0xffff, 0, 0, 0, 0, 0, 0⟩,
  ⟨0x1504C, 0, 1, 0, 0, 0, 0, 0, 15, 0⟩,
  ⟨0x15100, 0x10, 8, 0, 0x7f1f07, 0, 0, 0, 0, 2⟩,
  ⟨0x15104, 0x10, 8, 0, 0, 0, 0, 0, 0x7ffffff, 0xff0000⟩,
  ⟨0x15108, 0x10, 8, 0, 0, 0, 0, 0, 0xffffffff, 0⟩,
  ⟨0x1510C, 0x10, 8, 0, 0, 0, 0, 0, 0xffffffff, 0xffff0000⟩]

/-- Registers of page 0x16. -/
def mapRows16 : List MapRow := [
  ⟨0x16040, 0, 1, 0, 0xffff, 0, 0, 0, 0, 0x1432⟩,
  ⟨0x16044, 0, 1, 0, 0, 0, 0, 0, 0x1ff01ff, 0⟩,
  ⟨0x16048, 0, 1, 0, 0, 0, 0, 0, 0x800037ff, 0⟩,
  ⟨0x1604C, 0, 1, 0, 0, 0, 0, 0, 0xffffffff, 0⟩,
  ⟨0x16050, 0, 1, 0, 0, 0, 0, 0, 0xffffffff, 0⟩,
  ⟨0x16054, 0, 1, 0x1ff3f, 0, 0, 0, 0, 0, 0⟩,
  ⟨0x16058, 0, 1, 0, 0, 0, 0, 0, 0xffffffff, 0⟩,
  ⟨0x1605C, 0, 1, 0x1033f, 0, 0, 0, 0, 0, 0⟩,
  ⟨0x16060, 0, 1, 0, 0, 0, 0, 0, 0xffffffff, 0⟩,
  ⟨0x16064, 0, 1, 0, 0, 0, 0x800000ff, 0, 0, 0⟩]

/-- Registers of page 0x17. -/
def mapRows17 : List MapRow := [
  ⟨0x17040, 0, 1, 0, 0x1f1f1f, 0, 0, 0, 0, 0x14⟩,
  ⟨0x17044, 0, 1, 0, 0, 0, 0, 0, 0x1ffff, 5⟩,
  ⟨0x17048, 0, 1, 0, 0xff, 0, 0, 0, 0, 0x14⟩,
  ⟨0x1704C, 0, 1, 0, 0xffffffff, 0, 0, 0, 0, 0⟩,
  ⟨0x17050, 0, 1, 0, 0xffffffff, 0, 0, 0, 0, 0⟩,
  ⟨0x17054, 0, 1, 0, 0xffffffff, 0, 0, 0, 0, 0⟩,
  ⟨0x17058, 0, 1, 0, 0xffffffff, 0, 0, 0, 0, 0⟩,
  ⟨0x1705C, 0, 1, 0, 0xffffffff, 0, 0, 0, 0, 0⟩,
  ⟨0x17060, 0, 1, 0, 0xffffffff, 0, 0, 0, 0, 0⟩,
  ⟨0x17064, 0, 1, 0, 0xffffffff, 0, 0, 0, 0, 0⟩,
  ⟨0x17068, 0, 1, 0, 0xffffffff, 0, 0, 0, 0, 0⟩,
  ⟨0x1706C, 0, 1, 0, 0xffffffff, 0, 0, 0, 0, 0⟩,
  ⟨0x17070, 0, 1, 0, 0xffffffff, 0, 0, 0, 0, 0⟩,
  ⟨0x17074, 0, 1, 0, 0xffff0133, 0, 0, 0, 0, 0xa0000⟩,
  ⟨0x17078, 0, 1, 0, 0xffffffff, 0, 0, 0, 0, 0x10104040⟩,
  ⟨0x1707C, 0, 1, 0, 0, 0, 0, 0, 0xf07, 0⟩,
  ⟨0x17080, 0, 1, 0, 0, 0, 0, 0, 0xffffffff, 0⟩,
  ⟨0x17084, 0, 1, 0, 0, 0, 0, 0, 0xffffffff, 0⟩,
  ⟨0x17088, 0, 1, 0, 0, 0, 0, 0, 0xffffffff, 0⟩,
  ⟨0x1708C, 0, 1, 0, 0, 0, 0, 0, 0xffffffff, 0⟩,
  ⟨0x17090, 0, 1, 0, 0, 0, 0, 0, 0xffffffff, 0⟩,
  ⟨0x17094, 0, 1, 0, 0, 0, 0, 0, 0xffffffff, 0⟩,
  ⟨0x17098, 0, 1, 0, 0, 0, 0, 0, 0xffffffff, 0⟩,
  ⟨0x1709C, 0, 1, 0, 0, 0, 0, 0, 0xffffffff, 0⟩,
  ⟨0x170A0, 0, 1, 0, 0, 0, 0, 0, 0xffffffff, 0⟩,
  ⟨0x170A4, 0, 1, 0, 0, 0, 1, 0, 0, 0⟩,
  ⟨0x170A8, 0, 1, 0, 0, 0, 0xff, 0, 0, 0⟩,
  ⟨0x170AC, 0, 1, 0xffffffff, 0, 0, 0, 0, 0, 0⟩,
  ⟨0x170B0, 0, 1, 0, 0, 0, 0, 0, 0xffffffff, 0⟩,
  ⟨0x170B4, 0, 1, 0xffffffff, 0, 0, 0, 0, 0, 0⟩,
  ⟨0x170B8, 0, 1, 0xffffffff, 0, 0, 0, 0, 0, 0⟩,
  ⟨0x170BC, 0, 1, 0xffffffff, 0, 0, 0, 0, 0, 0⟩,
  ⟨0x170C0, 0, 1, 0xffffffff, 0, 0, 0, 0, 0, 0⟩,
  ⟨0x170C8, 0, 1, 0xffffffff, 0, 0, 0, 0, 0, 0⟩,
  ⟨0x170CC, 0, 1, 0xffffffff, 0, 0, 0, 0, 0, 0⟩,
  ⟨0x170D0, 0, 1, 0xffffffff, 0, 0, 0, 0, 0, 0⟩,
  ⟨0x170D4, 0, 1, 0xffffffff, 0, 0, 0, 0, 0, 0⟩,
  ⟨0x170C4, 0, 1, 0, 0, 0, 7, 0, 0, 0⟩,
  ⟨0x17100, 0x10, 16, 0, 0xffff1f73, 0, 0, 0, 0, 0x10000⟩,
  ⟨0x17104, 0x10, 16, 0, 0xffffffff, 0, 0, 0, 0, 0xffffffff⟩,
  ⟨0x17108, 0x10, 16, 0, 0xffffffff, 0, 0, 0, 0, 0xffffffff⟩,
  ⟨0x1710C, 0x10, 16, 0, 0, 0, 0, 0, 0xffff, 0⟩,
  ⟨0x17200, 0x10, 8, 0, 15, 0, 0, 0, 0, 6⟩,
  ⟨0x17204, 0x10, 8, 0, 0xffffffff, 0, 0, 0, 0, 0xff⟩,
  ⟨0x17208, 0x10, 8, 0, 0xffffffff, 0, 0, 0, 0, 0⟩,
  ⟨0x1720C, 0x10, 8, 0, 0xffffffff, 0, 0, 0, 0, 0⟩]

/-- Registers of page 0x18. -/
def mapRows18 : List MapRow := [
  ⟨0x18040, 0, 1, 0, 1, 0, 0, 0, 0, 0⟩,
  ⟨0x18044, 0, 1, 0, 0, 0, 0, 0, 0x7ff, 0x400⟩,
  ⟨0x18048, 0, 1, 0x1f, 0, 0, 0, 0, 0, 0⟩,
  ⟨0x1804C, 0, 1, 0, 0, 0, 0, 0, 0xffffffff, 0⟩,
  ⟨0x18100, 0x20, 32, 0, 0xf07, 0, 0, 0, 0xf0000, 0x800⟩,
  ⟨0x18104, 0x20, 32, 0, 0x7ff03ff, 0, 0, 0, 0, 0⟩,
  ⟨0x18108, 0x20, 32, 0, 0xffffffff, 0, 0, 0, 0, 0⟩,
  ⟨0x1810C, 0x20, 32, 0, 0xffffffff, 0, 0, 0, 0, 0⟩,
  ⟨0x18110, 0x20, 32, 0, 0x7ffff, 0, 0, 0, 0, 0⟩,
  ⟨0x18114, 0x20, 32, 0, 0, 0, 0, 0, 0xffffffff, 0⟩,
  ⟨0x18118, 0x20, 32, 0xffffffff, 0, 0, 0, 0, 0, 0⟩,
  ⟨0x1811C, 0x20, 32, 0, 0, 0, 0, 0xffff0000, 0x1ff, 0⟩]

/-- Registers of a page. -/
def mapRows (p : Nat) : List MapRow :=
  match p with
  | 0x0 => mapRows00
  | 1 => mapRows01 0x1000
  | 2 => mapRows01 0x2000
  | 0x3 => mapRows03
  | 0x4 => mapRows04
  | 0x5 => mapRows05
  | 0x6 => mapRows06
  | 0x7 => mapRows07
  | 0x8 => mapRows08
  | 0x9 => mapRows09
  | 0xA => mapRows0A
  | 0xB => mapRows0B
  | 0xC => mapRows0C
  | 0xD => mapRows0D
  | 0xE => mapRows0E
  | 0xF => mapRows0F
  | 0x10 => mapRows10
  | 0x11 => mapRows11
  | 0x12 => mapRows12
  | 0x13 => mapRows13
  | 0x14 => mapRows14
  | 0x15 => mapRows15
  | 0x16 => mapRows16
  | 0x17 => mapRows17
  | 0x18 => mapRows18
  | _ => []

/-- Ranges of a MAC page. -/
def ranges01 (b : Nat) : List RangeRow := [
  ⟨b + 0x60, 0, 1, 31, 16, 2, 65535, true, none⟩,
  ⟨b + 0x60, 0, 1, 15, 0, 2, 65535, true, none⟩]

/-- Ranges of page 0x04. -/
def ranges04 : List RangeRow := [
  ⟨0x4040, 0, 1, 15, 8, 85, 140, true, none⟩,
  ⟨0x404C, 0, 1, 31, 24, 1, 255, true, none⟩,
  ⟨0x404C, 0, 1, 23, 16, 1, 255, true, none⟩,
  ⟨0x404C, 0, 1, 11, 0, 600, 1500, true, none⟩]

/-- Ranges of page 0x05. -/
def ranges05 : List RangeRow := [
  ⟨0x5040, 0, 1, 23, 16, 2, 255, true, none⟩,
  ⟨0x5040, 0, 1, 15, 8, 1, 255, true, none⟩,
  ⟨0x5050, 0, 1, 31, 16, 190, 550, true, none⟩]

/-- Ranges of page 0x06. -/
def ranges06 : List RangeRow := [
  ⟨0x6040, 0, 1, 15, 8, 1, 255, true, none⟩,
  ⟨0x6044, 0, 1, 23, 16, 1, 255, true, none⟩,
  ⟨0x6044, 0, 1, 15, 8, 1, 255, true, none⟩,
  ⟨0x6044, 0, 1, 7, 0, 2, 255, true, none⟩]

/-- Ranges of page 0x07. -/
def ranges07 : List RangeRow := [
  ⟨0x704C, 0, 1, 15, 0, 4, 65535, true, none⟩]

/-- Ranges of page 0x08. -/
def ranges08 : List RangeRow := [
  ⟨0x8044, 0, 1, 7, 0, 1, 255, true, none⟩,
  ⟨0x8048, 0, 1, 7, 0, 1, 255, true, none⟩,
  ⟨0x8078, 0, 1, 7, 0, 1, 25, false, none⟩]

/-- Ranges of page 0x09. -/
def ranges09 : List RangeRow := [
  ⟨0x9040, 0, 1, 6, 4, 0, 5, true, none⟩,
  ⟨0x9044, 0, 1, 31, 24, 5, 255, true, none⟩,
  ⟨0x9044, 0, 1, 23, 16, 10, 255, true, none⟩,
  ⟨0x9044, 0, 1, 11, 8, 2, 15, true, none⟩,
  ⟨0x9044, 0, 1, 7, 0, 8, 255, true, none⟩,
  ⟨0x9048, 0, 1, 31, 16, 1, 65535, true, none⟩,
  ⟨0x9048, 0, 1, 7, 0, 2, 255, true, none⟩]

/-- Ranges of page 0x0A. -/
def ranges0A : List RangeRow := [
  ⟨0xA040, 0, 1, 12, 8, 0, 29, true, none⟩,
  ⟨0xA048, 0, 1, 23, 0, 10000, 10000000, true, none⟩,
  ⟨0xA050, 0, 1, 31, 28, 1, 15, true, none⟩,
  ⟨0xA050, 0, 1, 27, 24, 1, 15, true, none⟩,
  ⟨0xA050, 0, 1, 5, 0, 1, 60, true, none⟩,
  ⟨0xA054, 0, 1, 23, 20, 1, 15, true, none⟩,
  ⟨0xA054, 0, 1, 19, 8, 2, 500, true, none⟩,
  ⟨0xA054, 0, 1, 7, 0, 10, 90, true, none⟩,
  ⟨0xA058, 0, 1, 23, 20, 1, 15, true, none⟩,
  ⟨0xA058, 0, 1, 11, 8, 1, 15, true, none⟩,
  ⟨0xA058, 0, 1, 6, 0, 1, 100, true, none⟩]

/-- Ranges of page 0x0B. -/
def ranges0B : List RangeRow := [
  ⟨0xB040, 0x40, 6, 5, 4, 0, 2, true, some (0xB040, 0x40, 0, 0)⟩,
  ⟨0xB044, 0x40, 6, 23, 0, 640, 16777215, true, some (0xB040, 0x40, 0, 0)⟩,
  ⟨0xB048, 0x40, 6, 23, 16, 2, 255, true, some (0xB040, 0x40, 0, 0)⟩,
  ⟨0xB050, 0x40, 6, 31, 24, 1, 255, true, some (0xB040, 0x40, 0, 0)⟩,
  ⟨0xB050, 0x40, 6, 23, 16, 1, 255, true, some (0xB040, 0x40, 0, 0)⟩,
  ⟨0xB050, 0x40, 6, 5, 2, 1, 7, true, some (0xB040, 0x40, 0, 0)⟩,
  ⟨0xB058, 0x40, 6, 23, 16, 1, 255, true, some (0xB040, 0x40, 0, 0)⟩,
  ⟨0xB058, 0x40, 6, 10, 0, 50, 2000, true, some (0xB040, 0x40, 0, 0)⟩]

/-- Ranges of page 0x0C. -/
def ranges0C : List RangeRow := [
  ⟨0xC040, 0, 1, 15, 8, 1, 255, true, none⟩,
  ⟨0xC100, 0x10, 16, 10, 8, 0, 5, true, some (0xC100, 0x10, 0, 0)⟩]

/-- Ranges of page 0x0D. -/
def ranges0D : List RangeRow := [
  ⟨0xD040, 8, 6, 27, 20, 1, 255, true, some (0xD040, 8, 0, 0)⟩,
  ⟨0xD040, 8, 6, 19, 16, 1, 15, true, some (0xD040, 8, 0, 0)⟩,
  ⟨0xD040, 8, 6, 8, 4, 0, 23, true, some (0xD040, 8, 0, 0)⟩,
  ⟨0xD078, 0, 1, 31, 24, 1, 255, true, none⟩,
  ⟨0xD078, 0, 1, 23, 16, 1, 255, true, none⟩,
  ⟨0xD078, 0, 1, 15, 0, 1, 65535, true, none⟩]

/-- Ranges of page 0x0F. -/
def ranges0F : List RangeRow := [
  ⟨0xF048, 0, 1, 23, 16, 1, 255, true, none⟩,
  ⟨0xF048, 0, 1, 15, 0, 7700, 13750, true, none⟩,
  ⟨0xF054, 0, 1, 23, 16, 1, 255, true, none⟩,
  ⟨0xF060, 0, 1, 15, 8, 2, 255, true, none⟩,
  ⟨0xF060, 0, 1, 7, 0, 10, 255, true, none⟩,
  ⟨0xF064, 0, 1, 23, 16, 1, 255, true, none⟩,
  ⟨0xF068, 0, 1, 7, 0, 1, 255, true, none⟩,
  ⟨0xF06C, 0, 1, 15, 8, 1, 255, true, none⟩]

/-- Ranges of page 0x10. -/
def ranges10 : List RangeRow := [
  ⟨0x10054, 0, 1, 31, 24, 1, 255, true, none⟩,
  ⟨0x10054, 0, 1, 15, 8, 1, 255, true, none⟩,
  ⟨0x10054, 0, 1, 7, 0, 1, 255, true, none⟩,
  ⟨0x10058, 0, 1, 15, 8, 1, 255, true, none⟩,
  ⟨0x10058, 0, 1, 7, 0, 1, 255, true, none⟩,
  ⟨0x100EC, 0, 1, 4, 0, 0, 16, true, none⟩]

/-- Ranges of page 0x11. -/
def ranges11 : List RangeRow := [
  ⟨0x11100, 0x40, 16, 15, 8, 1, 255, true, some (0x11044, 0, 0, 1)⟩,
  ⟨0x11104, 0x40, 16, 23, 16, 50, 100, true, some (0x11044, 0, 0, 1)⟩,
  ⟨0x1110C, 0x40, 16, 29, 20, 5, 1000, true, some (0x11044, 0, 0, 1)⟩,
  ⟨0x1110C, 0x40, 16, 19, 0, 1, 1000000, true, some (0x11044, 0, 0, 1)⟩,
  ⟨0x11110, 0x40, 16, 29, 26, 1, 15, true, some (0x11044, 0, 0, 1)⟩,
  ⟨0x11110, 0x40, 16, 9, 0, 1, 1000, true, some (0x11044, 0, 0, 1)⟩]

/-- Ranges of page 0x12. -/
def ranges12 : List RangeRow := [
  ⟨0x12064, 0, 1, 23, 16, 1, 255, true, none⟩,
  ⟨0x12068, 0, 1, 23, 20, 0, 7, true, none⟩,
  ⟨0x12080, 0, 1, 7, 0, 0, 200, false, none⟩,
  ⟨0x12100, 0x20, 16, 22, 16, 1, 127, true, some (0x12100, 0x20, 31, 0)⟩]

/-- Ranges of page 0x13. -/
def ranges13 : List RangeRow := [
  ⟨0x13044, 0, 1, 31, 24, 1, 255, true, none⟩,
  ⟨0x13044, 0, 1, 23, 16, 1, 255, true, none⟩,
  ⟨0x13044, 0, 1, 15, 8, 2, 255, true, none⟩,
  ⟨0x13044, 0, 1, 7, 0, 2, 255, true, none⟩,
  ⟨0x1304C, 0, 1, 23, 20, 1, 15, true, none⟩,
  ⟨0x1304C, 0, 1, 7, 0, 20, 255, true, none⟩,
  ⟨0x13100, 0x40, 4, 15, 8, 30, 70, true, some (0x13100, 0x40, 0, 0)⟩,
  ⟨0x13050, 0, 1, 31, 24, 1, 255, true, none⟩,
  ⟨0x13050, 0, 1, 23, 16, 2, 255, true, none⟩,
  ⟨0x13050, 0, 1, 15, 8, 10, 255, true, none⟩,
  ⟨0x13050, 0, 1, 7, 0, 5, 255, true, none⟩,
  ⟨0x13054, 0, 1, 31, 28, 1, 15, true, none⟩,
  ⟨0x13054, 0, 1, 23, 16, 1, 255, true, none⟩,
  ⟨0x13054, 0, 1, 15, 8, 1, 255, true, none⟩,
  ⟨0x13054, 0, 1, 7, 0, 1, 255, true, none⟩,
  ⟨0x13200, 0x40, 4, 23, 16, 0, 100, true, some (0x13100, 0x40, 0, 0)⟩,
  ⟨0x13200, 0x40, 4, 6, 4, 1, 4, true, some (0x13100, 0x40, 0, 0)⟩,
  ⟨0x13210, 0x40, 4, 15, 8, 1, 255, true, some (0x13100, 0x40, 0, 0)⟩,
  ⟨0x13210, 0x40, 4, 7, 0, 1, 255, true, some (0x13100, 0x40, 0, 0)⟩]

/-- Ranges of page 0x14. -/
def ranges14 : List RangeRow := [
  ⟨0x14040, 0, 1, 15, 8, 1, 255, true, none⟩,
  ⟨0x14044, 0, 1, 31, 24, 1, 255, true, none⟩,
  ⟨0x14044, 0, 1, 19, 16, 1, 15, true, none⟩,
  ⟨0x14044, 0, 1, 15, 0, 1, 65535, true, none⟩,
  ⟨0x14048, 0, 1, 31, 24, 4, 255, true, none⟩,
  ⟨0x14048, 0, 1, 23, 16, 1, 255, true, none⟩,
  ⟨0x14048, 0, 1, 15, 8, 30, 255, true, none⟩,
  ⟨0x14048, 0, 1, 7, 0, 1, 64, true, none⟩]

/-- Ranges of page 0x15. -/
def ranges15 : List RangeRow := [
  ⟨0x15040, 0, 1, 19, 16, 1, 15, true, none⟩,
  ⟨0x15040, 0, 1, 15, 8, 1, 255, true, none⟩]

/-- Ranges of page 0x16. -/
def ranges16 : List RangeRow := [
  ⟨0x16040, 0, 1, 15, 8, 1, 255, true, none⟩,
  ⟨0x16040, 0, 1, 7, 0, 1, 255, true, none⟩,
  ⟨0x1605C, 0, 1, 5, 0, 0, 39, false, none⟩]

/-- Ranges of page 0x17. -/
def ranges17 : List RangeRow := [
  ⟨0x17048, 0, 1, 7, 0, 1, 255, true, none⟩,
  ⟨0x17074, 0, 1, 1, 0, 0, 2, true, none⟩,
  ⟨0x17078, 0, 1, 31, 28, 1, 8, true, none⟩,
  ⟨0x170C4, 0, 1, 2, 0, 0, 3, false, none⟩,
  ⟨0x17100, 0x10, 16, 31, 16, 1, 65535, true, some (0x17100, 0x10, 0, 0)⟩]

/-- Ranges of page 0x18. -/
def ranges18 : List RangeRow := [
  ⟨0x18104, 0x20, 32, 26, 16, 1, 1024, true, some (0x18100, 0x20, 0, 0)⟩,
  ⟨0x18110, 0x20, 32, 18, 0, 1, 262144, true, some (0x18100, 0x20, 0, 0)⟩]

/-- Ranges of a page. -/
def ranges (p : Nat) : List RangeRow :=
  match p with
  | 1 => ranges01 0x1000
  | 2 => ranges01 0x2000
  | 0x4 => ranges04
  | 0x5 => ranges05
  | 0x6 => ranges06
  | 0x7 => ranges07
  | 0x8 => ranges08
  | 0x9 => ranges09
  | 0xA => ranges0A
  | 0xB => ranges0B
  | 0xC => ranges0C
  | 0xD => ranges0D
  | 0xF => ranges0F
  | 0x10 => ranges10
  | 0x11 => ranges11
  | 0x12 => ranges12
  | 0x13 => ranges13
  | 0x14 => ranges14
  | 0x15 => ranges15
  | 0x16 => ranges16
  | 0x17 => ranges17
  | 0x18 => ranges18
  | _ => []

end Sys2Proof.Machine
end

