-- ==== Sys2Proof/Machine/Sched.lean ====
section
/-! DEFINITION. The angle schedule at work (02): what an entry does when it falls due, and what becomes of the entries that
a forward jump or a bank swap has passed (R50, R51, R443). -/

namespace Sys2Proof.Machine

/-- The stamp of a tick after `bins` bins of a jump. -/
def stampPlus (s : Stamp) (bins : Nat) : Stamp := s + BitVec.ofNat 48 bins

/-- The latest stamp at or before `now` with angle `a` (R51). -/
def lastAtAngle (now : Stamp) (a : Nat) : Stamp :=
  let back := (now.angle + 65536 - a % 65536) % 65536
  now - BitVec.ofNat 48 back

/-- The due stamp of entry `e` at or before `now`: of a ONCE entry its own, of a periodic entry the latest occurrence of its
angle (R50, R51). -/
def SchedEntry.dueStamp (e : SchedEntry) (now : Stamp) : Stamp :=
  if e.once then BitVec.ofNat 48 (e.w1 % 2 ^ 32 * 65536 + e.angle) else lastAtAngle now e.angle

/-- The entry is due at `now`, whose latest occurrence counts (R50, R51). -/
def SchedEntry.isDue (e : SchedEntry) (now : Stamp) : Bool :=
  e.en && (if e.once then Stamp.reached now (e.dueStamp now) else e.inCycle (e.dueStamp now).cycle)

/-- Schedule action 0x07 (R51): the context of the addressed module, looked up as it fires; none that has the element addressed
(1023: the module as a whole, R23): kind 0x40 (R33). -/
def schedRelease (t : Time) (i : Nat) (e : SchedEntry) (c : Chip) : Chip :=
  let has := fun (x : Ctx) => x.base / 1024 == e.w2 / 1024 && (e.w2 % 1024 == 0 || e.w2 % 1024 == 1023 || decide (e.w2 % 1024 < x.nelem))
  match ctxFind c fun _ x => x.state != ctxFREE && has x with
  | some _ => releaseFrames t (bits e.w3 4 0) (bits e.w3 15 8) c
  | none => raise t 0x02 0x40 i c

/-- Schedule action 0x09 (R442, R443): a host event entry in the event ring. -/
def schedHostEvent (t : Time) (i : Nat) (e : SchedEntry) (due : Stamp) (c : Chip) : Chip :=
  if c.flag F.HIF_EVCFG_EN then
    ringWrite t (c.rd F.HIF_EVCFG_RING) ([0x80, 3] ++ bytesLE 2 i ++ bytesLE 4 e.w3 ++ bytesLE 6 due.toNat ++ [0, 0]
      ++ bytesLE 8 t.ns.toNat) c
  else c

/-- A loop triggered by angle waits for the engine. -/
def angleLoopWaits (c : Chip) : Bool :=
  (List.range 32).any fun s => slotOn c s && c.rd (F.CEN_LPs_CFG_TRIG s) == 2 && (slot c s).waiting.isSome

/-- The markers that have waited for the loop iterations of their bin are written, in ascending entry index (R32, step 4). -/
def flushMarkers (t : Time) (c : Chip) : Chip :=
  (modAng (fun a => { a with markers := [] }) c).forAll c.ang.markers fun m => recMarker t m.1 m.2.1 m.2.2.1 m.2.2.2

/-- A marker of a schedule entry: at once, or behind the loops that its bin has triggered (R32, steps 3 and 4). -/
def schedMarker (t : Time) (i action arg : Nat) (due : Stamp) (c : Chip) : Chip :=
  let c := if c.ang.markers.any fun m => m.2.2.2 != due then flushMarkers t c else c
  if angleLoopWaits c then modAng (fun a => { a with markers := a.markers ++ [(i, action, arg, due)] }) c
  else recMarker t i action arg due c

/-- The action of entry `i` with its due stamp (R51). -/
def schedAct (t : Time) (i : Nat) (e : SchedEntry) (due : Stamp) (c : Chip) : Chip :=
  match e.action with
  | 0x01 => if slotOn c e.w2 && c.rd (F.CEN_LPs_CFG_TRIG e.w2) == 2 then slotTrigger t e.w2 c else c
  | 0x02 => c.forAll (bitsOf 16 e.w2) fun n c => if c.rd (F.AFE_FINn_CFG_TRIG n) = 2 then finBurst t n t.tick c else c
  | 0x03 => schedDrop e.w2 c
  | 0x04 => schedAdd e.w2 e.w3 c
  | 0x05 => efSwitch t (2 ^ e.w2) true c
  | 0x06 => efSwitch t (2 ^ e.w2) false c
  | 0x07 => schedRelease t i e c
  | 0x08 => schedMarker t i 0x08 e.w3 due c
  | 0x09 => schedHostEvent t i e due c
  | _ => c

/-- Entry `i` has fired or been passed over with a due stamp; a firing is marked late or not. The manual names no place where
"flagged late" shows: `Ang.late` holds it (R51, log 27). -/
def schedNote (i : Nat) (due : Stamp) (late : Bool) (c : Chip) : Chip :=
  modAng (fun a => { a with
    fired := Tab.set none a.fired i (some due)
    late := (a.late.filter (· != i)) ++ (if late then [i] else []) }) c

/-- Entry `i` fires (R51): its action, the marker that MARK asks for, and a ONCE entry is spent. -/
def schedFire (t : Time) (i : Nat) (due : Stamp) (late : Bool) (c : Chip) : Chip :=
  let e := schedEntry c.ang.active i
  let c := schedAct t i e due (schedNote i due late c)
  let c := if e.mark && e.action != 0x08 then schedMarker t i e.action 0 due c else c
  clearOnce i c

/-- Entry `i` is due at `now` and has not fired with that due stamp yet. -/
def schedReady (now : Stamp) (c : Chip) (i : Nat) : Bool :=
  let e := schedEntry c.ang.active i
  e.isDue now && Tab.get none c.ang.fired i != some (e.dueStamp now)

/-- A schedule entry falls due in this tick with an action code (R51); entries due in the same bin with a lower index fire
before it (R32). -/
def schedDue (t : Time) (action i : Nat) (c : Chip) : Chip :=
  let e := schedEntry c.ang.active i
  let due := e.dueStamp t.stamp
  if t.running && !c.ang.paused && e.action == action && schedReady t.stamp c i then
    let before := (c.ang.active.map Prod.fst).filter fun j =>
      decide (j < i) && schedReady t.stamp c j && (schedEntry c.ang.active j).dueStamp t.stamp == due
    c.forAll (before ++ [i]) fun j => schedFire t j due false
  else c

/-- Entry `i` has been missed (R51): with MISS it fires late, else it is skipped; it is counted and reported. -/
def schedLate (t : Time) (i : Nat) (due : Stamp) (c : Chip) : Chip :=
  let c := schedMissed t i c
  if (schedEntry c.ang.active i).fireLate then schedFire t i due true c else clearOnce i (schedNote i due false c)

/-- The due stamp of an entry within a jump from `a` to `b`: the one that lies after `a` and before `b` (R51). -/
def SchedEntry.jumped (e : SchedEntry) (a b : Stamp) : Option Stamp :=
  let due := e.dueStamp (b - 1)
  if e.en && Stamp.later due a && Stamp.later b due && (e.once || e.inCycle due.cycle) then some due else none

/-- The entries that a forward jump from stamp `a` to stamp `b` has passed are missed, in ascending index (R51). -/
def schedJump (t : Time) (a b : Stamp) (c : Chip) : Chip :=
  c.forAll (c.ang.active.map Prod.fst) fun i c =>
    match (schedEntry c.ang.active i).jumped a b with
    | some due => schedLate t i due c
    | none => c

/-- A bank has become active: a ONCE entry whose due stamp is already past, also one that lies exactly 2^47 away (R10), is
missed (R51); a periodic entry begins with its next occurrence. -/
def schedPast (t : Time) (c : Chip) : Chip :=
  c.forAll (c.ang.active.map Prod.fst) fun i c =>
    let e := schedEntry c.ang.active i
    let due := e.dueStamp t.stamp
    if !e.en || due == t.stamp then c
    else if !e.once then schedNote i due false c
    else if !Stamp.later due t.stamp then schedLate t i due c else c

end Sys2Proof.Machine
end

