-- ==== Sys2Proof/Machine/Blocks.lean ====
section
/-! DEFINITION. The pages as one sees them from outside their blocks: what every block judges at a commit (R324, R454, R510),
what an applied commit does, and the soft block reset (R455). -/

namespace Sys2Proof.Machine

/-! ### The register map -/

/-- The row of the register map that an offset falls into. -/
def mapRowAt (off : Nat) : Option MapRow :=
  (mapRows (off / 4096)).find? fun r =>
    if r.stride = 0 then off == r.base
    else decide (r.base ≤ off) && (off - r.base) % r.stride == 0 && decide ((off - r.base) / r.stride < r.count)

/-- A page carries two fault sources (R457). -/
def twoSources (p : Nat) : Bool := p == 8 || p == 0x13

/-- The RWS bits of a word (R6). -/
def rwsMask (off : Nat) : Nat :=
  if off % 4096 = 0x1C then (if twoSources (off / 4096) then 0xFFFFFFFF else 0xFFFF)
  else ((mapRowAt off).map (·.rws)).getD 0

/-- The value of a word after chip reset. -/
def resetWord (off : Nat) : Word :=
  if off % 4096 = 0x1C then (R.FLTMAP (off / 4096)).reset
  else if off % 4096 = 0x08 then 1
  else BitVec.ofNat 32 (((mapRowAt off).map (·.reset)).getD 0)

/-- The listed offsets of a page, of the active and the shadow words, rising and without repeats. -/
def pageKeys (p : Nat) (c : Chip) : List Nat :=
  let own := fun (l : Tab Word) => (l.filter fun e => e.1 / 4096 == p).map Prod.fst
  let a := own c.regs
  a ++ (own c.shadow).filter fun k => !a.contains k

/-- One word takes its shadow bits (R454). -/
def takeShadow (off : Nat) (c : Chip) : Chip :=
  let r : Reg := ⟨off, resetWord off⟩
  let m := rwsMask off
  c.wrR r ((c.rdR r &&& (0xFFFFFFFF ^^^ m)) ||| (c.shR r &&& m))

/-- Every RWS register of page `p` takes its shadow value (R454); a slot that a run holds on stays enabled (R263). -/
def mergeShadow (p : Nat) (c : Chip) : Chip :=
  let c' := c.forAll (pageKeys p c) takeShadow
  if p = 0x0E then c'.forAll (runningSlots c) fun s c => c.wrB (F.CEN_LPs_CFG_EN s) true else c'

/-! ### Ring names (R324) -/

/-- The rings that block `b` names, with the offset that names each and the consumers its use allows: 1 REC, 2 and 3 the
segments, 4 BUS, 5 CAP, 6 host events. -/
def ringNames (c : Chip) (b : Nat) : List (Nat × Nat × List Nat) :=
  let host := [1, 3]
  match b with
  | 1 =>
    (if c.flag F.REC_CTL_EN then [(c.rd F.REC_CTL_EVRING, 0x40, [2])] else [])
    ++ (if c.flag F.REC_CTL_EN ∧ (List.range 8).any (fun i => c.rdR ⟨0x1704C + 4 * i, 0⟩ != 0) then
          [(c.rd F.REC_CTL_CTXRING, 0x40, [2])] else [])
    ++ ((List.range 16).filter fun m => c.flag (F.REC_STm_CFG_EN m)).map fun m => (c.rd (F.REC_STm_CFG_RING m), 0x100 + 16 * m, [2])
  | 2 | 3 =>
    let n := b - 2
    if c.flag (F.SLK_SEGn_CFG_EN n) then
      [(c.rd (F.SLK_SEGn_RING_C1 n), 0x104 + 32 * n, [0]), (c.rd (F.SLK_SEGn_RING_C2 n), 0x104 + 32 * n, [0]),
       (c.rd (F.SLK_SEGn_RING_C3 n), 0x104 + 32 * n, [0]), (c.rd (F.SLK_SEGn_RING_HRX n), 0x104 + 32 * n, host)]
    else []
  | 4 => ((List.range 8).filter fun n => c.flag (F.BUS_SPn_CFG_EN n) && c.flag (F.BUS_SPn_CFG_STAGE n)).map fun n =>
      (c.rd (F.BUS_SPn_CFG_RING n), 0x200 + 8 * n, [0])
  | 5 => if c.flag F.CAP_CTL_XPATH then [(c.rd F.CAP_XCFG_XRING, 0xC4, host)] else []
  | 6 => if c.flag F.HIF_EVCFG_EN then [(c.rd F.HIF_EVCFG_RING, 0x94, host)] else []
  | _ => []

/-- The blocks of a page that name rings. -/
def namersOf (p : Nat) : List Nat :=
  match p with
  | 0x17 => [1] | 0x14 => [2, 3] | 0x0F => [4] | 0x10 => [5] | 0 => [6] | _ => []

/-- A name of the page that R324 refuses: the ring is named by another block too, or its CONS is not for that block. -/
def judgeNames (p : Nat) (c : Chip) : Option Nat :=
  (namersOf p).findSome? fun b => (ringNames c b).findSome? fun x =>
    if !x.2.2.contains (ringCons c x.1) then some x.2.1
    else if [1, 2, 3, 4, 5, 6].any (fun b' => b' != b && (ringNames c b').any fun y => y.1 == x.1) then some x.2.1
    else none

/-- RNG_RGk_CFG.PROD of every ring follows the names (R324). -/
def showProducers (c : Chip) : Chip :=
  c.forAll (List.range 32) fun k c =>
    c.wr (F.RNG_RGk_CFG_PROD k) (([1, 2, 3, 4, 5, 6].find? fun b => (ringNames c b).any fun y => y.1 == k).getD 0)

/-! ### Refusals -/

/-- A range that field row `r` breaks: the page offset of the register (R510). -/
def judgeRange (p : Nat) (c : Chip) (r : RangeRow) : Option Nat :=
  if !r.commit then none
  else (List.range r.count).findSome? fun i =>
    let on := match r.unit with
      | none => true
      | some (base, stride, b, step) => bit (c.rdR ⟨base + stride * i, resetWord (base + stride * i)⟩) (b + step * i)
    let off := r.base + r.stride * i
    let v := bits (c.rdR ⟨off, resetWord off⟩) r.hi r.lo
    if on && (decide (v < r.least) || decide (r.most < v)) then some (off - 4096 * p) else none

/-- The refusals of a REC commit from `was` to `c` (R335, R336, R340): offset of the register. -/
def judgeRec (nv : Nv) (was c : Chip) : Option Nat :=
  let base := c.rd F.REC_FBASE_VALUE
  let size := c.rd F.REC_FSIZE_VALUE
  let kind := fun j => if c.flag (F.REC_TGj_CFG_EN j) then c.rd (F.REC_TGj_CFG_KIND j) else 3
  if c.flag F.REC_CTL_LOADCHK ∧ 320 < recLoad c ∧ recLoad was < recLoad c then some 0x44
  else if base % flashBlock c ≠ 0 ∨
      nv.dir.any (fun b => decide (base < b.2.1 + b.2.2) && decide (b.2.1 < base + size)) then some 0x6C
  else if size % flashBlock c ≠ 0 then some 0x70
  else (List.range 8).findSome? fun j =>
    if kind j = 7 ∨ (kind j = 6 ∧ (List.range j).any fun i => kind i == 6) then some (0x200 + 16 * j)
    else if c.flag (F.REC_TGj_CFG_EN j) && (bitsOf 32 (c.rd (F.REC_TGj_RINGS_RINGS j))).any fun k => ringCons c k != 2 then
      some (0x208 + 16 * j)
    else none

/-- The page's own refusals of a commit from `was` to `c`, beside ranges and ring names. -/
def judgeBlock (nv : Nv) (p : Nat) (was c : Chip) : List (Option Nat) :=
  match p with
  | 0x00 => [judgeHif c]
  | 0x01 => [judgeMac 0 c]
  | 0x02 => [judgeMac 1 c]
  | 0x07 => [judgeWdg c]
  | 0x09 => [judgePar c]
  | 0x0A => [judgeAng c]
  | 0x0B => [judgeLeg was c]
  | 0x0C => [judgeAfe c]
  | 0x0D => [judgeCmp c]
  | 0x0E => [judgeCen was c]
  | 0x0F => [judgeBus c]
  | 0x10 => [judgeCap c]
  | 0x11 => [judgeEfu c]
  | 0x12 => [judgeBat c, judgeBatCodes c]
  | 0x13 => [judgeWires c, judgePolicy c]
  | 0x14 => [judgeSlk c]
  | 0x15 => [judgePmb c]
  | 0x17 => [judgeRec nv was c]
  | 0x18 => [judgeRng was c]
  | _ => []

/-- The judgement of a commit of page `p` from `was` to `c`: the lowest offset of the conditions broken, none when it applies
(R454, R510). -/
def judgePage (nv : Nv) (p : Nat) (was c : Chip) : Option Nat :=
  let l := (judgeFltmap c p :: judgeNames p c :: judgeBlock nv p was c ++ (ranges p).map (judgeRange p c)).filterMap id
  l.foldl (fun a x => some (match a with | none => x | some y => min x y)) none

/-- The source of a refusal of page `p` at an offset: the policy's registers of CPT have their own (R259, R291). -/
def refuseSource (p off : Nat) : Nat :=
  if p = 0x13 ∧ (0x200 ≤ off ∨ (0x50 ≤ off ∧ off < 0x100)) then 0x0C else srcOfPage p

/-- The IRQRAW bit that tells of a refused commit, on the pages that have one. -/
def refuseIrq (p : Nat) : Option Nat :=
  match p with
  | 0x07 => some 7 | 0x08 => some 3 | 0x0E => some 7 | 0x10 => some 6 | 0x12 => some 7 | _ => none

/-! ### What an applied commit does -/

/-- A ring switched off drops its entries (R323); a new WMARK may be reached already (R439). -/
def rngCommitted (t : Time) (was c : Chip) : Chip :=
  let c := c.forAll (List.range 32) fun k c =>
    if was.flag (F.RNG_RGk_CFG_EN k) && !c.flag (F.RNG_RGk_CFG_EN k) then
      setRing k {} { c with ringAged := setBit c.ringAged k false }
    else ringNotify t k was c
  ringFree c

/-- ANG has changed its state under `was`: BUS follows (R128, R135). -/
def angToBus (t : Time) (was c : Chip) : Chip :=
  if angState was = angState c then c
  else if angState was = angLOCK && angState c == angHOLD then busUnlock t c
  else if busOn c then busChanged t c else c

/-- Groups have been enabled or disabled: the availability of local sources follows (R126, R128). -/
def legToBus (t : Time) (c : Chip) : Chip := if busOn c then busChanged t c else c

/-- The first period of a group begins with its enabling: its boundary triggers slots (R66, R96). -/
def firstPeriods (t : Time) (was c : Chip) : Chip :=
  c.forAll ((List.range 6).filter fun k => c.flag (F.LEG_Gk_CFG_EN k) && !was.flag (F.LEG_Gk_CFG_EN k)) fun k c =>
    if groupOn c k then pwmTriggers t k false c else c

/-- What an applied commit of page `p` does beside its registers, from `was`, in a block whose logic runs. -/
def committed (t : Time) (p : Nat) (was c : Chip) : Chip :=
  match p with
  | 0x00 => hifCommitted t c
  | 0x05 => aoCommitted t was c
  | 0x07 => wdgCommitted t was c
  | 0x08 => fltCommitted t c
  | 0x09 => parCommitted c
  | 0x0A => loadRecompute t false (angToBus t was (angCommitted t was c))
  | 0x0B => parCommitted (loadRecompute t false (legToBus t (firstPeriods t was (legCommitted t was c))))
  | 0x0C => afeCommitted was c
  | 0x0D => cmpCommitted t was c
  | 0x0E => loadRecompute t true (cenCommitted t was c)
  | 0x0F => busCommitted t was c
  | 0x10 => capCommitted t c
  | 0x11 => efCommitted t c
  | 0x12 => batCommitted t was c
  | 0x13 => cptCommitted t was c
  | 0x14 => slkCommitted was c
  | 0x15 =>
    let c := pmbCommitted t was c
    c.forAll ((List.range 256).filter fun i => (ctx was i).state == ctxACTIVE && (ctx c i).state == ctxLINGER) fun i c =>
      capDetached t i (batDetach (ctxModule (ctx c i)) (ctxToBus t i false c))
  | 0x17 => recCommitted t was c
  | 0x18 => rngCommitted t was c
  | _ => c

/-! ### Soft block reset (R5, R455) -/

/-- The block registers of page `p` are back at their reset values, active and shadow; a pending commit is discarded. -/
def restorePage (p : Nat) (c : Chip) : Chip :=
  let lo := p * 4096 + 0x40
  let hi := (p + 1) * 4096
  let c := { c with regs := Tab.eraseRange c.regs lo hi, shadow := Tab.eraseRange c.shadow lo hi
                    commits := Tab.set none c.commits p none }
  c.wrB (F.PGSTAT_PEND p) false

/-- Every context goes: what BUS, BAT, CAP and the registry hold of its module ends with it (R314), and the ports show no
partner's identity (R28). -/
def ctxBlockReset (t : Time) (was c : Chip) : Chip :=
  let c := c.forAll ((List.range 256).filter fun i => (ctx was i).state != ctxFREE) fun i c =>
    entryClear (ctxModule (ctx was i)) (capReclaimed i (capDetached t i (batDetach (ctxModule (ctx was i)) (ctxToBus t i false c))))
  let c := c.forAll (List.range 4) fun p c => showPid p 0 (c.wr (F.CPp_PST_CTX p) 0xFF)
  let c := c.forAll ([0, 1].filter fun n => (seg c n).ctl.isSome) unassign
  ctxStat { c with ctxs := [], ctxLatch := [] }

/-- The registers whose reset value is the image's keep what the image gave: the car identity and the shelf number (R5, R175). -/
def keepImage (was c : Chip) : Chip :=
  ((c.wrR R.CAP_ID_LO (was.rdR R.CAP_ID_LO)).wrR R.CAP_ID_HI (was.rdR R.CAP_ID_HI)).wr F.CAP_NUM_SHELF (was.rd F.CAP_NUM_SHELF)

/-- A commit whose point falls into the tick of the block reset is discarded: PGSTAT tells nothing of it (R462). -/
def uncommit (t : Time) (p : Nat) (c : Chip) : Chip :=
  let x := Tab.get (0, 0) c.commitAt p
  if x.2 ≠ 0 ∧ x.1 = t.tick then c.wrR (R.PGSTAT p) ((c.rdR (R.PGSTAT p) &&& 0xFFFF) % 32 + (x.2 - 1) / 32 * 32) else c

/-- The block reset of page `p` from the chip `was`: its registers, then its internal state (R455). The supervisor's own
state goes on under page 0x03. -/
def pageReset (t : Time) (nv : Nv) (p : Nat) (was : Chip) : Chip :=
  let c := uncommit t p (restorePage p (if p = 0x13 then cptDrop t was else was))
  match p with
  | 0x00 => hifBlockReset was c
  | 0x01 => macBlockReset 0 was c
  | 0x02 => macBlockReset 1 was c
  | 0x03 => c.wrR R.SUP_STAT (was.rdR R.SUP_STAT)
  | 0x04 => pwrBlockReset was c
  | 0x05 => aoBlockReset was c
  | 0x06 => updBlockReset t nv was c
  | 0x07 => wdgBlockReset was c
  | 0x08 => fltBlockReset t was c
  | 0x09 => parStart t (({ c with par := {} } : Chip).wr F.PAR_STAT_POS (was.rd F.PAR_STAT_POS))
  | 0x0A => angToBus t was (angBlockReset was c)
  | 0x0B =>
    let low := fun (s : LegSt) => { ({} : LegSt) with heldBy := s.heldBy, gh := s.gh, gl := s.gl, ghOff := s.ghOff, glOff := s.glOff, ranTo := s.ranTo }
    legToBus t (legStatus { c with groups := [], legs := (c.legs.map fun e => (e.1, low e.2)).filter fun e => e.2 != {} })
  | 0x0C => { c with fins := [], sins := [], convs := [] }
  | 0x0D => legStatus { c with cmps := [], limRuns := [] }
  | 0x0E => cenBlockReset c
  | 0x0F => busBlockReset t was c
  | 0x10 => keepImage was { c with cap := {}, refs := c.refs.filter (fun e => decide (e.1 < 0x40) || decide (0x5F < e.1)) }
  | 0x11 => efBlockReset t was c
  | 0x12 => batBlockReset was c
  | 0x14 => slkBlockReset c
  | 0x15 => pmbBlockReset c
  | 0x16 => ctxBlockReset t was c
  | 0x17 => { c with recd := {} }
  | 0x18 => showProducers { c with rings := [], ringAged := 0, ringMem := [] }
  | _ => c

/-- PGCTL.EN becomes 0: the restore once, then the logic is held; or 1: the block starts from its reset state with its
registers as they stand (R455). -/
def pageEnable (t : Time) (nv : Nv) (p : Nat) (on : Bool) (c : Chip) : Chip :=
  if c.blockOn p = on then c
  else if on then
    let c := c.wrB (F.PGCTL_EN p) true
    committed t p (restorePage p c) c
  else (pageReset t nv p c).wrB (F.PGCTL_EN p) false

/-! ### Applying a commit (R454) -/

/-- The outcome of a commit stands in PGSTAT: DONE or REFUSED, TAG, and no commit is pending. -/
def commitShow (p tag : Nat) (done : Bool) (c : Chip) : Chip :=
  let c := { c with commits := Tab.set none c.commits p none }
  (((c.wrB (F.PGSTAT_PEND p) false).wrB (F.PGSTAT_DONE p) done).wrB (F.PGSTAT_REFUSED p) (!done)).wr (F.PGSTAT_TAG p) tag

/-- The sources of page `p` that have set a message in this tick: a FLTMAP commit of the tick goes before it (R397). -/
def sourcesNow (t : Time) (p : Nat) (c : Chip) : List Nat :=
  (((c.flt.queue.filter fun m => m.tick == t.tick && pageOfSrc m.source == p).map Msg.source)).eraseDups

/-- The tick of a commit and PGSTAT before it are kept (R462). -/
def commitMark (t : Time) (p : Nat) (c : Chip) : Chip :=
  { c with commitAt := Tab.set (0, 0) c.commitAt p (t.tick, c.rdR (R.PGSTAT p) + 1) }

/-- The commit of page `p` reaches its point: the shadow values as they stand are judged, and applied or refused (R454). -/
def applyCommit (t : Time) (nv : Nv) (p tag : Nat) (c : Chip) : Chip :=
  let c := commitMark t p c
  let cand := mergeShadow p c
  match judgePage nv p c cand with
  | some off =>
    let c := raise t (refuseSource p off) 0x80 off (commitShow p tag false c)
    match refuseIrq p with
    | some b => irq t p b c
    | none => c
  | none =>
    let c' := commitShow p tag true cand
    let c' := if c'.blockOn p then committed t p c c'
      else if p = 0x11 then efRetain c'
      else if p = 0x0A ∨ p = 0x0B ∨ p = 0x0E then loadRecompute t (p == 0x0E) c' else c'
    let c' := if c'.rdR (R.FLTMAP p) = c.rdR (R.FLTMAP p) then c' else c'.forAll (sourcesNow t p c') fun s => redecide t s false
    showProducers c'

/-- A pending commit of page `p` and the conditions of its point: the stamp of MODE 0b11 has been reached; at a boundary of
MODE 0b10 (R454). -/
def pendingOf (c : Chip) (p : Nat) : Option Commit := Tab.get none c.commits p

/-- The pages with a pending commit that a test accepts, in ascending page number, then ascending tag (R32). -/
def pendingPages (c : Chip) (ok : Commit → Bool) : List (Nat × Commit) :=
  c.commits.filterMap fun e => match e.2 with | some m => if ok m then some (e.1, m) else none | none => none

/-- The commits at angle whose point is reached apply, in ascending page number up to page `top`, and after those of CAP the
grants whose point is reached (R32, step 1; R172, R454). -/
def dueCommits (t : Time) (nv : Nv) (top : Nat) (c : Chip) : Chip :=
  let due := pendingPages c fun m => m.mode == 3 && Stamp.reached t.stamp m.point
  let upTo := fun (lo hi : Nat) (c : Chip) =>
    c.forAll due fun x c => if lo ≤ x.1 ∧ x.1 ≤ min hi top then applyCommit t nv x.1 x.2.tag c else c
  let c := upTo 0 0x10 c
  upTo 0x11 top (if 0x10 ≤ top then dueGrants t c else c)

/-- PENDING_COMMIT_APPLY of page `p`; commits at angle that are due on lower pages go first (R32). -/
def pendingApply (t : Time) (nv : Nv) (p : Nat) (c : Chip) : Chip :=
  match pendingOf c p with
  | some m => if m.mode = 3 then (if Stamp.reached t.stamp m.point then dueCommits t nv p c else c) else applyCommit t nv p m.tag c
  | none => c

/-- A commit waits for its point. -/
def pend (p : Nat) (m : Commit) (c : Chip) : Chip :=
  ({ c with commits := Tab.set none c.commits p (some m) } : Chip).wrB (F.PGSTAT_PEND p) true

/-- A commit that has waited for a boundary of group `k` applies. Of a COMMIT write in the tick of the boundary the one that it
has replaced applies, and the new one is pending (R462). -/
def boundaryCommit (t : Time) (nv : Nv) (k p : Nat) (m : Commit) (c : Chip) : Chip :=
  if m.since ≠ t.tick then (if m.mode = 2 ∧ m.group = k then applyCommit t nv p m.tag c else c)
  else match m.prev with
    | some (g, tag) => if g = k then pend p { m with prev := none } (applyCommit t nv p tag c) else c
    | none => c

/-- The commits that wait for a boundary of group `k` apply; the period that starts there already runs with them (R454). -/
def boundaryCommits (t : Time) (nv : Nv) (k : Nat) (c : Chip) : Chip :=
  c.forAll (pendingPages c fun _ => true) fun x => boundaryCommit t nv k x.1 x.2

/-- The commits at angle whose point lies after stamp `a` up to stamp `b` apply, as a jump passes them (R454). -/
def jumpCommits (t : Time) (nv : Nv) (a b : Stamp) (c : Chip) : Chip :=
  c.forAll (pendingPages c fun m => m.mode == 3 && Stamp.later m.point a && Stamp.reached b m.point) fun x c =>
    applyCommit t nv x.1 x.2.tag c

/-- The commit at a boundary that a COMMIT write replaces, by group and tag: of a write of the same tick, what it had replaced. -/
def replaced (t : Time) (m : Commit) : Option (Nat × Nat) :=
  if m.since = t.tick then m.prev else if m.mode = 2 then some (m.group, m.tag) else none

/-- A commit that is pending at angle on a page applies ahead of a new one where its stamp has been reached (R462). -/
def pendingFirst (t : Time) (nv : Nv) (p : Nat) (c : Chip) : Chip :=
  match pendingOf c p with
  | some m => if m.mode = 3 then pendingApply t nv p c else c
  | none => c

/-- A COMMIT write (R454): the point that MODE selects; MODE 0b00 is ignored, and 0b10 is immediate without its group. A pending
commit whose point is reached in the same clock applies first (R462). -/
def commitWrite (t : Time) (nv : Nv) (p v : Nat) (c : Chip) : Chip :=
  let c := pendingFirst t nv p c
  let tag := c.rd (F.SEQ_TAG p)
  let prev := (pendingOf c p).bind (replaced t)
  match bits v 1 0 with
  | 1 => applyCommit t nv p tag c
  | 2 =>
    let k := bits v 6 4
    if k < 6 ∧ groupOn c k then pend p { mode := 2, group := k, tag := tag, since := t.tick, prev := prev } c else applyCommit t nv p tag c
  | 3 =>
    let a := bits v 31 16
    let next := lastAtAngle t.stamp a + BitVec.ofNat 48 65536 + BitVec.ofNat 48 (bits v 15 8 * 65536)
    pend p { mode := 3, point := next, tag := tag, since := t.tick, prev := prev } c
  | _ => c

end Sys2Proof.Machine
end

