-- ==== Sys2Proof/Machine/Mirror.lean ====
section
/-! DEFINITION. What a pair mirrors: the items of each block, the frames that carry them, and what the standby does with them (R31,
R55, R85, R117, R145, R173, R196, R223, R258, R290, R318, R347, R363, R368, R369). -/

namespace Sys2Proof.Machine

/-! ### What is mirrored -/

/-- The bits that a block has mirrored beside its RWS bits, by register word: enable commands, latches and the state that
registers show (R85, R117, R145, R173, R196, R223, R258, R290, R318, R368). -/
def mirroredState : List (Nat × Nat) :=
  let rows := fun (n : Nat) (r : Nat → Reg) (mask : Nat) => (List.range n).map fun i => ((r i).addr, mask)
  let one := fun (r : Reg) (mask : Nat) => [(r.addr, mask)]
  one R.PAR_STAKE 0xFFFF
    ++ one R.LEG_OUTCTL 0xFFF ++ rows 6 R.LEG_Gk_STAT 0xF ++ one R.CMP_LATCH 0xFFFFFF ++ rows 24 R.CMP_Cn_STAT 0xE
    ++ rows 32 R.CEN_LPs_STAT 0x800000
    ++ one R.BUS_STAT 7
    ++ one R.CAP_NUM 0x700 ++ one R.CAP_CAR 0x1F ++ one R.CAP_GRANT 0x3FFFFFF ++ one R.CAP_GPEND 0x1FFFFFF ++ one R.CAP_RESV 0xFFFFFF
    ++ rows 32 R.CAP_CHj_ID 0xFFFFFFFF ++ rows 32 R.CAP_CHj_GR 0xFFFFFF
    ++ one R.EFU_CHEN 0xFFFF ++ one R.EFU_STATE0 0xFFFFFFFF ++ one R.EFU_STATE1 0xFFFFFFFF ++ rows 16 R.EFU_CHn_STAT 0xFF002F
    ++ rows 16 R.EFU_CHn_CAP 0xFFFF0000
    ++ one R.BAT_STAT 7 ++ one R.BAT_AORET 0xFFFF
    ++ rows 4 R.CPp_STAT 0xFF20007F ++ rows 4 R.CPp_PST 0xFEFFFF0F ++ rows 4 R.CPp_CON 0x3FFFFFF ++ rows 4 R.CPp_PID_LO 0xFFFFFFFF
    ++ rows 4 R.CPp_PID_HI 0xFFFFFFFF ++ rows 4 R.CPp_RXH 0xFFFF
    ++ (List.range 4).flatMap (fun p => (List.range 7).map fun j => ((R.CPp_RXO0 p).addr + 4 * j, 0xFFFFFFFF))
    ++ one R.CPT_TXO0 0xFFFFFFFF ++ one R.CPT_TXO1 0xFFFFFFFF ++ one R.CPT_TXO2 0xFFFFFFFF ++ one R.CPT_TXO3 0xFFFFFFFF
    ++ one R.CPT_TXRES 0x1FF
    ++ rows 2 R.SLK_SEGn_STAT 0x3F0002

/-- The mirrored bits of a word: configuration of the pages PAR to RNG, whether their logic runs, and the state of its block
(R368). The copy of RESYNC carries the FLT page's too (R398). -/
def mirrorMask (bulk : Bool) (off : Nat) : Nat :=
  let p := off / 4096
  if (9 ≤ p ∧ p ≤ 0x18) ∨ (bulk ∧ p = 8) then
    rwsMask off ||| (if off % 4096 = 8 then 1 else 0) ||| ((mirroredState.find? fun e => e.1 == off).map Prod.snd).getD 0
  else 0

/-- The keys of two tables, each once. -/
def keysOf {α : Type} (a b : Tab α) : List Nat := a.map Prod.fst ++ (b.map Prod.fst).filter fun k => !(a.map Prod.fst).contains k

/-- A word as it is mirrored. -/
def wordItem (bulk : Bool) (c : Chip) (off : Nat) : MirrorItem := .reg off (c.rdR ⟨off, resetWord off⟩ &&& mirrorMask bulk off)

/-- A coefficient word of CEN, by its key (R115). -/
def coefItem (c : Chip) (k : Nat) : MirrorItem := .coef (k / 2048) (k / 1024 % 2) (k % 1024) (Tab.get 0 c.cenMem k).toNat

/-- A schedule entry (R50). -/
def schedItem (sh : Bool) (c : Chip) (k : Nat) : MirrorItem :=
  let e := Tab.get {} (if sh then c.ang.shadow else c.ang.active) k
  .sched sh k e.w0 e.w1 e.w2 e.w3

/-- A context slot as its 64 words (R315). -/
def slotItem (t : Time) (c : Chip) (i : Nat) : MirrorItem :=
  let b := ctxBytes t (ctx c i)
  .slot i ((List.range 64).map fun k => leNat ((b.drop (4 * k)).take 4))

/-- The registers of a module that are mirrored: charge, impedance and flags (R223). -/
def moduleRegs (m : Nat) : List Reg := [R.BAT_Mm_SOC m, R.BAT_Mm_Q m, R.BAT_Mm_Z m, R.BAT_Mm_ZD m, R.BAT_Mm_STAT m]

/-- What is mirrored of a module (R223). -/
def moduleItem (c : Chip) (m : Nat) : MirrorItem :=
  let x := batMod c m
  .batMod m { id := x.id, held := x.held, q := x.q, qfull := x.qfull, v1 := x.v1, v2 := x.v2, anch := x.anch, anchq := x.anchq
              passed := x.passed, unc := x.unc, socr := x.socr, thru := x.thru, overq := x.overq }
    ((moduleRegs m).map c.rdR)

/-- A module is mirrored at an anchor, a restore, an insertion and a window (R223). -/
def moduleEvent (was c : Chip) (m : Nat) : Bool :=
  let seen := fun (d : Chip) =>
    ((batMod d m).held, (batMod d m).id, (batMod d m).anch, d.flag (F.BAT_Mm_STAT_VALID m), d.rdR (R.BAT_Mm_Z m), d.rdR (R.BAT_Mm_ZD m))
  seen was != seen c

/-- What is mirrored of a port: attach state, message numbers and the transmit queue with the packet that is being sent (R258);
the policy, and what its slots drive (R290). -/
def portItem (c : Chip) (p : Nat) : MirrorItem :=
  let x := port c p
  .port p { src := x.src, forced := x.forced, queue := x.waiting.toList ++ x.sending.toList ++ x.queue, tx := x.tx, rx := x.rx, hr := x.hr
            ident := x.ident, offTx := x.offTx, offRx := x.offRx, req := x.req, neg := x.neg, susp := x.susp, resp := x.resp
            resend := x.resend, refused := x.refused, swapStep := x.swapStep, capExp := x.capExp, back := x.back
            yielded := x.yielded, vtgt := x.vtgt, srcRun := x.srcRun, snkRun := x.snkRun, disch := x.disch, lineSafe := x.lineSafe }

/-- The mirrored hidden state that has no key: that of ANG (R55), latched trips (R85), intents (R117), BUS (R145), CAP (R173),
the charger (R223), the ports (R258, R290) and the segments (R318). -/
def blockItems (c : Chip) : List MirrorItem :=
  [.ang { fh := c.ang.fh, df := c.ang.df, planned := c.ang.planned, opened := c.ang.opened }]
    ++ (List.range 24).map (fun n => .trip n (cmpSt c n).legs (cmpSt c n).heldClear)
    ++ [.intents c.intents,
        .bus { vRaw := c.bus.vRaw, uRaw := c.bus.uRaw, rhoK := c.bus.rhoK, rhoN := c.bus.rhoN, dHold := c.bus.dHold
               retPend := c.bus.retPend, feHold := c.bus.feHold, relPend := c.bus.relPend, notices := c.bus.notices
               droop := c.bus.droop, armed := c.bus.armed },
        .cap { seqIn := c.cap.seqIn, grants := c.cap.grants, lost := c.cap.lost, pend := c.cap.pend, grSeq := c.cap.grSeq
               repSeq := c.cap.repSeq, elSeq := c.cap.elSeq, shelves := c.cap.shelves, cars := c.cap.cars, elect := c.cap.elect
               head := c.cap.head, numbers := c.cap.numbers, left := c.cap.left, depot := c.cap.depot, oldCars := c.cap.oldCars },
        .charger { hold := c.bat.hold, stageMs := c.bat.stageMs, stagePre := c.bat.stagePre, peak := c.bat.peak
                   tRef := c.bat.tRef, tRefMs := c.bat.tRefMs, warming := c.bat.warming }]
    ++ (List.range 4).map (portItem c)
    ++ [.gaps c.cpt.idMap c.cpt.passed c.cpt.mail]
    ++ (List.range 2).map fun n => .seg n (seg c n).tx (seg c n).rx (seg c n).ownCtx

/-- The items of `c` at the keys that `c` or `was` lists: words first, as their blocks run on them; then memories, slots and
hidden state. -/
def mirrorItems (bulk : Bool) (t : Time) (was c : Chip) : List MirrorItem :=
  ((keysOf c.regs was.regs).filter fun k => mirrorMask bulk k != 0).map (wordItem bulk c)
    ++ (keysOf c.cenMem was.cenMem).map (coefItem c)
    ++ (keysOf c.ang.active was.ang.active).map (schedItem false c)
    ++ (keysOf c.ang.shadow was.ang.shadow).map (schedItem true c)
    ++ (keysOf c.bindings was.bindings).map (fun k => .binding k (Tab.get {} c.bindings k))
    ++ (keysOf c.ctxs was.ctxs).map (slotItem t c)
    ++ (keysOf c.cap.units was.cap.units).map (fun k => .capUnit false k (Tab.get 0 c.cap.units k).toNat)
    ++ (keysOf c.cap.unitsSh was.cap.unitsSh).map (fun k => .capUnit true k (Tab.get 0 c.cap.unitsSh k).toNat)
    ++ (keysOf c.cap.children was.cap.children).map (fun k => .child k (Tab.get {} c.cap.children k))
    ++ blockItems c

/-- The modules that are mirrored now: all of them every 100 ms, those with an event of R223 at once. -/
def mirroredModules (was c : Chip) : List Nat :=
  let all := keysOf c.bat.mods was.bat.mods
  if c.bat.mirMs < was.bat.mirMs then all else all.filter (moduleEvent was c)

/-! ### The acting chip sends -/

/-- An item goes out in a frame of type `ty`. -/
def sendItem (t : Time) (ty : Nat) (x : MirrorItem) (c : Chip) : Chip := pairSend t ty [] c (some x)

/-- What the acting chip sends its standby after a step: a MIRROR frame for each mirrored item that the step has changed, and,
as the standby tells that it is in RESYNC, the copy of everything in BULK frames (R363, R369). -/
def mirrorFollow (t : Time) (was c : Chip) : Chip :=
  if pairOn c && pairUp c && acts c && (prState c == prACTIVE) && c.flag F.PAR_PEER_VALID then
    if c.rd F.PAR_PEER_STATE = prRESYNC ∧ was.rd F.PAR_PEER_STATE ≠ prRESYNC then
      c.forAll (mirrorItems true t c c ++ (c.bat.mods.map Prod.fst).map (moduleItem c)) (sendItem t 0x13)
    else
      let old := mirrorItems false t c was
      c.forAll (((mirrorItems false t was c).filter fun x => !old.contains x) ++ (mirroredModules was c).map (moduleItem c)) (sendItem t 0x10)
  else c

/-! ### The standby takes -/

/-- A mirrored state word has its effect: legs and their reasons follow (R85), the pin of an e-fuse channel that the selector will
take over stands as the state has it (R196), and BAT knows the duty of its string (R145). -/
def stateTaken (off : Nat) (c : Chip) : Chip :=
  match off / 4096 with
  | 0x0B | 0x0D => legStatus c
  | 0x0F => (busRefs c).wrB F.BAT_STAT_DUTY (onDuty c)
  | 0x11 => (c.forAll ((List.range 16).filter fun n => (R.EFU_CHn_STAT n).addr == off) fun n c =>
      efIlim n (modEf n (fun e => { e with pin := efState c n == efRAMP || efState c n == efON }) c))
  | _ => c

/-- A mirrored word in the active register and its shadow; what its page does with a committed value, and with a state. -/
def wordTaken (bulk : Bool) (t : Time) (nv : Nv) (off w : Nat) (c : Chip) : Chip :=
  let mask := mirrorMask bulk off
  if mask = 0 then c
  else if off % 4096 = 8 then pageEnable t nv (off / 4096) (bit w 0) c
  else
    let g : Reg := ⟨off, resetWord off⟩
    let v := (c.rdR g &&& (0xFFFFFFFF ^^^ mask)) ||| (w &&& mask)
    let c' := c.wrR g v
    let c' := if rwsMask off = 0 then c' else c'.wrShR g ((c'.shR g &&& (0xFFFFFFFF ^^^ rwsMask off)) ||| (w &&& rwsMask off))
    let c' := if rwsMask off ≠ 0 ∧ c'.blockOn (off / 4096) then committed t (off / 4096) c c' else c'
    stateTaken off c'

/-- A mirrored item on the standby: the fields that are mirrored take the active chip's values, all else stays. -/
def mirrorTaken (bulk : Bool) (t : Time) (nv : Nv) (m : MirrorItem) (c : Chip) : Chip :=
  match m with
  | .reg off w => wordTaken bulk t nv off w c
  | .coef slot set off w =>
    { c with cenMem := Tab.set 0 c.cenMem (2048 * (slot % 32) + 1024 * (set % 2) + off % 1024) (BitVec.ofNat 32 w) }
  | .sched sh idx w0 w1 w2 w3 =>
    let e : SchedEntry := ⟨w0, w1, w2, w3, false⟩
    modAng (fun a => if sh then { a with shadow := Tab.set {} a.shadow idx e } else { a with active := Tab.set {} a.active idx e }) c
  | .slot i words => ctxStat (setCtx i (ctxOfBytes t (words.flatMap (bytesLE 4))) c)
  | .ang x => modAng (fun a => { a with fh := x.fh, df := x.df, planned := x.planned, opened := x.opened }) c
  | .trip n legs held => legStatus (modCmp n (fun s => { s with legs := legs, heldClear := held }) c)
  | .intents l => { c with intents := l }
  | .bus x =>
    let c := if x.feHold = c.bus.feHold then c else setFeHold x.feHold c
    let c := modBus (fun b => { b with
      vRaw := x.vRaw, uRaw := x.uRaw, vAt := t.tick, rhoK := x.rhoK, rhoN := x.rhoN, dHold := x.dHold, retPend := x.retPend
      feHold := x.feHold, relPend := x.relPend, notices := x.notices, droop := x.droop, armed := x.armed }) c
    allocate t (showNotices c)
  | .cap x =>
    modCap (fun p => { p with
      seqIn := x.seqIn, grants := x.grants, lost := x.lost, pend := x.pend, grSeq := x.grSeq, repSeq := x.repSeq, elSeq := x.elSeq
      shelves := x.shelves, cars := x.cars, elect := x.elect, head := x.head, numbers := x.numbers, left := x.left
      depot := x.depot, oldCars := x.oldCars }) c
  | .capUnit sh k w =>
    modCap (fun p => if sh then { p with unitsSh := Tab.set 0 p.unitsSh k (BitVec.ofNat 32 w) }
      else { p with units := Tab.set 0 p.units k (BitVec.ofNat 32 w) }) c
  | .child k x => modCap (fun p => { p with children := Tab.set {} p.children k { x with lastAt := t.tick } }) c
  | .binding k b => { c with bindings := Tab.set {} c.bindings k b }
  | .charger x =>
    modBat (fun b => { b with
      hold := x.hold, stageMs := x.stageMs, stagePre := x.stagePre, peak := x.peak, tRef := x.tRef, tRefMs := x.tRefMs
      warming := x.warming }) c
  | .batMod m x words =>
    let c := modMod m (fun y => { y with
      id := x.id, held := x.held, q := x.q, qfull := x.qfull, v1 := x.v1, v2 := x.v2, anch := x.anch, anchq := x.anchq
      passed := x.passed, unc := x.unc, socr := x.socr, thru := x.thru, overq := x.overq }) c
    c.forAll ((moduleRegs m).zip words) fun w c => c.wrR w.1 w.2
  | .port p x =>
    modPort p (fun y => { y with
      src := x.src, forced := x.forced, queue := x.queue, tx := x.tx, rx := x.rx, hr := x.hr, ident := x.ident, offTx := x.offTx
      offRx := x.offRx, req := x.req, neg := x.neg, susp := x.susp, resp := x.resp, resend := x.resend, refused := x.refused
      swapStep := x.swapStep, capExp := x.capExp, back := x.back, yielded := x.yielded, vtgt := x.vtgt, srcRun := x.srcRun
      snkRun := x.snkRun, disch := x.disch, lineSafe := x.lineSafe }) c
  | .gaps idMap passed mail => { c with cpt := { c.cpt with idMap := idMap, passed := passed, mail := mail } }
  | .seg n tx rx own => modSeg n (fun s => { s with tx := tx, rx := rx, ownCtx := own }) c

end Sys2Proof.Machine
end

