-- ==== Sys2Proof/Machine/Run.lean ====
section
/-! DEFINITION. Around every command: what it has set off in other blocks is carried out before it ends, and what it asks of
the time base is done (R29, R37, R47, R376, R380). -/

namespace Sys2Proof.Machine

/-- A firing of a trigger entry opens the same window on the partner chip with PAIRTRIG (R347). -/
def fireAndMirror (t : Time) (j fault addr : Nat) (c : Chip) : Chip :=
  let c' := fireEntry t j fault addr c
  if recOn c && c.flag F.REC_CTL_PAIRTRIG then pairSend t 0x12 [j, fault, addr] c' else c'

/-- One item that waits to be carried out. -/
def carryOut (t : Time) (nv : Nv) (d : Due) (c : Chip) : Chip :=
  match d with
  | .event p b raw s => recEvent t p b raw s c
  | .fire j fault addr => fireAndMirror t j fault addr c
  | .blockReset p => pageReset t nv p c
  | .chipReset source kinds => crst t source kinds c
  | .bivouac cause source kind => bivEnter t (bivCauseOf cause source kind) source kind c
  | .shedAll => if acts c then shedAll t c else c
  | .bankSwap => schedPast t c

/-- What waits is carried out in order, and with it what that sets off; nothing waits at the end. -/
def settle (t : Time) (nv : Nv) : Nat → Chip → Chip
  | 0, c => { c with due := [] }
  | n + 1, c =>
    match c.due with
    | [] => c
    | d :: l => settle t nv n (carryOut t nv d { c with due := l })

/-- More items than one command can set off. -/
def settleFuel : Nat := 4096

/-- In the tick of a cycle start ANG_CYCTS takes the stepped time `t` (R54). -/
def cycleStepped (t : Time) (c : Chip) : Chip := if c.ang.cycAt = some t.tick then latchCycle t c else c

/-- What the chip asks of the time base (R37, R47, R53, R55): a step of the nanosecond time in the tick of a cycle start is in
ANG_CYCTS too (R54); a forward jump applies the commits it passes and judges the
schedule entries it passes, in the jump tick (R51, R454). -/
def applyTime (s : State) : State :=
  match s.chip.timeReq with
  | none => s
  | some r =>
    let c := { s.chip with timeReq := none }
    let t := s.time
    match r with
    | .jump bins =>
      let t' := if t.running then { t with acc := t.acc + BitVec.ofNat 80 (bins.toNat * 2 ^ 32) } else t
      let c := jumpCommits t' s.nv t.stamp t'.stamp c
      { s with time := t', chip := { settle t' s.nv settleFuel (schedJump t' t.stamp t'.stamp c) with timeReq := none } }
    | .nsStep d =>
      let t' := { t with ns := t.ns + BitVec.ofInt 64 d }
      { s with time := t', chip := cycleStepped t' c }
    | .follow x =>
      { s with time := if t.running && Stamp.later x t.stamp then { t with acc := x.setWidth 80 <<< 32 } else t, chip := c }
    | .restart => { s with time := { t with acc := BitVec.ofNat 80 (2 ^ 48), running := true, ns := 0, nsFrac := 0 }, chip := c }
    | .stop => { s with time := { t with acc := 0, running := false, ns := 0, nsFrac := 0 }, chip := c }

/-- The gates of the legs follow, in the tick of the command (R58). -/
def gatesFollow (s : State) : State := { s with chip := legsFollow s.time s.chip }

/-- In a clock in which the host has written RW bits, a hardware update of them does not stand (R8). -/
def hostKept (t : Time) (c : Chip) : Chip :=
  if c.same.host then { c with same := { c.same with host := false } }
  else if c.same.tick = t.tick then
    c.forAll c.same.wrote fun e c =>
      let g : Reg := ⟨e.1, resetWord e.1⟩
      c.wrR g ((c.rdR g &&& (0xFFFFFFFF ^^^ e.2.1)) ||| e.2.2)
  else c

/-- The chip after a step that began with `was` sends its standby what the step has changed (R363). -/
def mirrored (was : Chip) (s : State) : State := { s with chip := mirrorFollow s.time was s.chip }

/-- The state once a command's own effect has left flash and fuses `nv` and the chip `c`: what it has set off in other blocks
is carried out, what the host wrote in the same clock stands, what it has begun at a coupler port counts from now, what the chip
asks of the time base is done, the gates follow, and a standby is told. -/
def State.settled (s : State) (nv : Nv) (c : Chip) : State :=
  mirrored s.chip (gatesFollow (applyTime { s with nv := nv, chip := portsFollow s.time s.chip (hostKept s.time (settle s.time nv settleFuel c)) }))

/-- A command as a change of the chip, in the present tick. -/
def onChip (f : Time → Chip → Chip) (s : State) : Host.Outcome State Fault Refusal :=
  .next (s.settled s.nv (f s.time s.chip))

/-- A command that also changes what is kept without power. -/
def onChipNv (f : Time → Nv → Chip → Nv × Chip) (s : State) : Host.Outcome State Fault Refusal :=
  .next (s.settled (f s.time s.nv s.chip).1 (f s.time s.nv s.chip).2)

/-- A command of a block: it happens while the chip is awake and the logic of its page runs (R36, R455). -/
def onPage (p : Nat) (f : Time → Chip → Chip) : State → Host.Outcome State Fault Refusal :=
  onChip fun t c => if pageAlive c p then f t c else c

/-- A command of a block that also changes what is kept without power. -/
def onPageNv (p : Nat) (f : Time → Nv → Chip → Nv × Chip) : State → Host.Outcome State Fault Refusal :=
  onChipNv fun t nv c => if pageAlive c p then f t nv c else (nv, c)

/-- The time base one 2.5 ns tick later (R35, R37, R53): while ANG runs and is not paused (R47), the oscillator's accumulator
advances by the present increment, and the nanosecond time by 2.5 ns × (1 + ANG_NSADJ), in 1/131,072,000,000 ns. -/
def Time.next (c : Chip) (t : Time) : Time :=
  if t.running then
    let sum := (t.nsFrac : Int) + 5 * (65536000000 + c.rdI F.ANG_NSADJ_ADJ)
    { tick := t.tick + 1
      acc := if c.ang.paused then t.acc else t.acc + BitVec.ofNat 80 (effInc c)
      running := true
      ns := t.ns + BitVec.ofInt 64 (sum / 131072000000)
      nsFrac := (sum % 131072000000).toNat }
  else { t with tick := t.tick + 1 }

/-- The HELLOs of SL1 are judged at the end of their tick (R317). -/
def hellosEnd (s : State) : State :=
  match (seg s.chip 1).hellos with
  | [] => s
  | fs =>
    let c := modSeg 1 (fun g => { g with hellos := [] }) s.chip
    s.settled s.nv (if pageAlive c 0x14 then c.forAll fs (helloTaken s.time) else c)

/-- A confirmation whose tick ends is written (R427). -/
def confirmEnds (s : State) : State :=
  if s.chip.upd.confirmed = [] then s else s.settled (confirmEnd s.nv s.chip).1 (confirmEnd s.nv s.chip).2

/-- What a step does with nothing to take: the time base goes on by one tick, with it the engine (R95) and an entry into
hibernate (R477) (log 1). -/
def idle (s : State) : State :=
  let s := confirmEnds (hellosEnd s)
  let t := s.time.next s.chip
  if s.chip.engine.isNone && !s.chip.pwr.entering then { s with time := t }
  else { s with time := t }.settled s.nv (hibRows t (engineTick t s.chip))

end Sys2Proof.Machine
end

