-- ==== Sys2Proof/Machine/Host.lean ====
section
/-! DEFINITION. Host accesses (00, 17): which are accepted, what a write does by the access code of its register or as a
register of its own, and what a read returns (R6, R7, R370, R437, R448, R453–R456, R510). -/

namespace Sys2Proof.Machine

/-! ### Pages (R437, R448, R457) -/

/-- The SPI target is on, HIF_CTL.SPIEN (R459), with its pins on VDDIO3 judged (R466, R507). -/
def spiOn (c : Chip) : Bool := awake c && c.flag F.HIF_CTL_SPIEN && bankUp c 3

/-- The SPI target reaches the page (R448). -/
def spiPage (p : Nat) : Bool := p == 0 || (decide (3 ≤ p) && decide (p ≤ 9))

/-- Recovery mode: the host reaches HIF and UPD only (R428). -/
def inRecovery (c : Chip) : Bool := c.flag F.HIF_STAT_RECOV

/-- The page is there for a host interface. -/
def pageReach (iface : Iface) (c : Chip) (p : Nat) : Bool :=
  decide (p ≤ 0x18) && (!inRecovery c || p == 0 || p == 6) && (iface == .pcie || spiPage p)

/-- The pages that a standby's host may write (R370). -/
def standbyPage (p : Nat) : Bool := p == 0 || p == 4 || p == 5 || p == 6 || p == 7 || p == 9

/-- A write that a standby accepts (R370). -/
def standbyTakes (off : Nat) : Bool :=
  let o := off % 4096
  standbyPage (off / 4096) || o == 0x10 || o == 0x14 || off == 0x805C || off == 0x8070 || off == 0x8078

/-- The chip is the standby of a pair, for its host (R370). -/
def hostStandby (c : Chip) : Bool := isStandby c && c.flag F.PAR_CTL_EN

/-- An interface of a page, by number. -/
def ifaceKey (iface : Iface) (p : Nat) : Nat := 2 * p + (iface == .spi).toNat

/-- A write that never needs the key (R453). -/
def keyless (off : Nat) : Bool :=
  let o := off % 4096
  o == 0x20 || o == 0x10 || o == 0x14 || (decide (0x7100 ≤ off) && decide (off < 0x7200) && off % 16 == 0)

/-- The unlock flag of a page for an interface (R453). -/
def unlockFlag (iface : Iface) (p : Nat) : Fld :=
  match iface with | .pcie => F.PGSTAT_UNLKP p | .spi => F.PGSTAT_UNLKS p

/-- The unlock of a page has run out for an interface in this tick. -/
def lapsedNow (t : Time) (iface : Iface) (c : Chip) (p : Nat) : Bool := Tab.get none c.lapsedAt (ifaceKey iface p) == some t.tick

/-- The page is unlocked for an interface. -/
def unlocked (iface : Iface) (c : Chip) (p : Nat) : Bool := c.flag (unlockFlag iface p)

/-- A write through an interface keeps the page unlocked (R453). -/
def stayOpen (t : Time) (iface : Iface) (p : Nat) (c : Chip) : Chip :=
  let c := { c with wroteAt := Tab.set 0 c.wroteAt (ifaceKey iface p) t.tick }
  if lapsedNow t iface c p && !unlocked iface c p then
    { c.wrB (unlockFlag iface p) true with lapsedAt := Tab.set none c.lapsedAt (ifaceKey iface p) none }
  else c

/-- A host write meets the gates: the interface and its page (R437, R448), the key (R453), which it still has in the tick in
which the unlock runs out (R462), the standby (R370). The answer tells whether it is accepted. -/
def writeGate (t : Time) (iface : Iface) (off : Nat) (c : Chip) : Chip × Bool :=
  let p := off / 4096
  if !awake c || (iface == .spi && !spiOn c) then (c, false)
  else if iface == .spi && !pageReach .spi c p then (accessFault t off c, false)
  else if iface == .spi && !c.flag F.HIF_CTL_SPIWR then (modHif (fun h => { h with spiBad := true }) c, false)
  else if !pageReach iface c p then (c, false)
  else
    let locked := !keyless off && !unlocked iface c p && !lapsedNow t iface c p
    let barred := hostStandby c && !standbyTakes off
    let c := if locked then lockFault t off c else c
    let c := if barred then accessFault t off c else c
    (c, !locked && !barred)

/-! ### The page header (R453–R456) -/

/-- The unlock of a page ends for an interface. -/
def endUnlock (iface : Iface) (p : Nat) (c : Chip) : Chip := c.wrB (unlockFlag iface p) false

/-- PAGE_UNLOCK_TIMEOUT: 1 ms has passed without a write to the page through the interface (R453). -/
def unlockLapse (t : Time) (iface : Iface) (p : Nat) (c : Chip) : Chip :=
  if c.flag (unlockFlag iface p) && decide (Tab.get 0 c.wroteAt (ifaceKey iface p) + 400000 ≤ t.tick) then
    { endUnlock iface p c with lapsedAt := Tab.set none c.lapsedAt (ifaceKey iface p) (some t.tick) }
  else c

/-- A write of PGKEY (R453). -/
def keyWrite (t : Time) (iface : Iface) (p v : Nat) (c : Chip) : Chip :=
  if c.flag (F.PGCTL_LOCK p) then lockFault t (p * 4096 + 0x20) c
  else if v = 0x5A5A0000 + p then c.wrB (unlockFlag iface p) true
  else lockFault t (p * 4096 + 0x20) (endUnlock iface p c)

/-- PGCTL.LOCK is set: the unlock ends on both interfaces (R453). -/
def lockPage (p : Nat) (c : Chip) : Chip :=
  endUnlock .spi p (endUnlock .pcie p ((c.wrB (F.PGCTL_LOCK p) true).wrB (F.PGSTAT_LOCKED p) true))

/-- PGCTL.EN cannot be written on the page (R455). -/
def enFixed (p : Nat) : Bool := p == 0 || (decide (3 ≤ p) && decide (p ≤ 9))

/-- A write of PGCTL (R453, R455, R456). -/
def ctlWrite (t : Time) (nv : Nv) (p v : Nat) (c : Chip) : Chip :=
  let c := if bit v 2 then lockPage p c else c
  let c := if enFixed p then c else pageEnable t nv p (bit v 0) c
  if bit v 1 then pageReset t nv p c else c

/-- A write of IRQEN: a message is due when IRQPEND rises from 0 (R440, R451). -/
def irqenWrite (p v : Nat) (c : Chip) : Chip :=
  let was := irqPend c p
  let c := c.wrR (R.IRQEN p) (v &&& irqBits p)
  if was = 0 ∧ irqPend c p ≠ 0 then vecDue (pageVec c p) c else c

/-! ### Writes by access code (R6, R7, R510) -/

/-- The access codes of a header word, as a row. -/
def headerRow (p o : Nat) : Option MapRow :=
  match o with
  | 0x00 => some ⟨o, 0, 1, 0, 0, 0, 0, 0, 0xFFFFFFFF, 0⟩
  | 0x04 => some ⟨o, 0, 1, 0, 0, 0, 0, 0, 0x1F, 0⟩
  | 0x08 => some ⟨o, 0, 1, if enFixed p then 4 else 5, 0, 0, 2, 0, if enFixed p then 1 else 0, 1⟩
  | 0x0C => some ⟨o, 0, 1, 0, 0, 0, 0, 0, 0xFFFF007F, 0⟩
  | 0x10 => some ⟨o, 0, 1, 0, 0, irqBits p, 0, 0, 0, (irqRaw p).reset.toNat⟩
  | 0x14 => some ⟨o, 0, 1, irqBits p, 0, 0, 0, 0, 0, 0⟩
  | 0x18 => some ⟨o, 0, 1, 0, 0, 0, 0, 0, irqBits p, 0⟩
  | 0x1C => some ⟨o, 0, 1, 0, rwsMask (p * 4096 + o), 0, 0, 0, 0, (R.FLTMAP p).reset.toNat⟩
  | 0x20 => some ⟨o, 0, 1, 0, 0, 0, 0xFFFFFFFF, 0, 0, 0⟩
  | 0x24 => some ⟨o, 0, 1, 0xFFFF, 0, 0, 0, 0, 0, 0⟩
  | 0x28 => some ⟨o, 0, 1, 0, 0, 0, 0xFFFFFF73, 0, 0, 0⟩
  | _ => none

/-- The row of a word: of the header, else of the block. -/
def accessRow (off : Nat) : Option MapRow :=
  if off % 4096 < 0x40 then headerRow (off / 4096) (off % 4096) else mapRowAt off

/-- The reset value of a word, of any page. -/
def wordAt (off : Nat) : Reg :=
  if off % 4096 = 0x10 then irqRaw (off / 4096) else ⟨off, resetWord off⟩

/-- A field of RW or WO that a word puts outside its range (R510). -/
def outOfRange (off v : Nat) : Bool :=
  (ranges (off / 4096)).any fun r =>
    !r.commit && (if r.stride = 0 then off == r.base
      else decide (r.base ≤ off) && (off - r.base) % r.stride == 0 && decide ((off - r.base) / r.stride < r.count))
    && (decide (bits v r.hi r.lo < r.least) || decide (r.most < bits v r.hi r.lo))

/-- The host has written the RW bits `m` of a word: hardware leaves them so for the rest of the clock (R8). -/
def noteHost (t : Time) (off m v : Nat) (c : Chip) : Chip :=
  let x := sameOf t c
  { c with same := { x with wrote := Tab.set (0, 0) x.wrote off (m, v &&& m) } }

/-- A word by its access codes: RW takes effect, RWS loads the shadow, W1C clears what the hardware has not set in the same
clock (R6, R8). -/
def storeWord (t : Time) (off v : Nat) (r : MapRow) (c : Chip) : Chip :=
  let g := wordAt off
  let c := if r.rw = 0 then c else noteHost t off r.rw v c
  let c := if r.rw = 0 ∧ r.w1c = 0 then c
    else
      let a := (c.rdR g &&& (0xFFFFFFFF ^^^ r.rw)) ||| (v &&& r.rw)
      c.wrR g (a &&& (0xFFFFFFFF ^^^ (v &&& r.w1c &&& (0xFFFFFFFF ^^^ Tab.get 0 (sameOf t c).sets off))))
  if r.rws = 0 then c else c.wrShR g ((c.shR g &&& (0xFFFFFFFF ^^^ r.rws)) ||| (v &&& r.rws))

/-- Of a PCIe and an SPI write of one clock the SPI value stands (R462): the RW and RWS bits of a PCIe write to a word that SPI
has written in this clock keep what they hold. -/
def spiStands (t : Time) (iface : Iface) (off v : Nat) (r : MapRow) (c : Chip) : Nat :=
  if iface == .pcie && (sameOf t c).spi.contains off then
    (v &&& (0xFFFFFFFF ^^^ (r.rw ||| r.rws))) ||| (c.rdR (wordAt off) &&& r.rw) ||| (c.shR (wordAt off) &&& r.rws)
  else v

/-- SPI has written a word in this clock. -/
def noteSpi (t : Time) (iface : Iface) (off : Nat) (c : Chip) : Chip :=
  if iface == .spi then { c with same := { sameOf t c with spi := off :: (sameOf t c).spi } } else c

/-! ### Registers whose write is an operation -/

/-- A write of UPD_OP by its code (R421, R424, R427). -/
def updOp (t : Time) (v : Nat) (nv : Nv) (c : Chip) : Nv × Chip :=
  match bits v 2 0 with
  | 1 => (nv, updStart t nv (bits v 9 8) c)
  | 2 => (nv, updFinish t c)
  | 3 => (nv, updAbort t c)
  | 4 => activate t (bits v 11 8) nv c
  | 5 => (nv, confirm t c)
  | _ => (nv, c)

/-- A write of BUS_GNOP by its operation (R139, R140). -/
def noticeOp (t : Time) (v : Nat) (c : Chip) : Chip :=
  match bits v 29 28 with
  | 1 => postNotice t false (bits v 27 24) (bits v 23 0) (noticeStart t (bit v 30) c) c
  | 2 => cancelNotice t (bits v 27 24) c
  | _ => c

/-- A write of CAP_XINOP (R149); what CAP hands on leaves by the couplers (R286). -/
def xinOp (t : Time) (v : Nat) (c : Chip) : Chip := capFlush t (xinDeliver t (bits v 1 0) c)

/-- A write of CPp_PCMD by its bits (R267, R279, R256). -/
def portCommand (t : Time) (p v : Nat) (c : Chip) : Chip :=
  let c := if bit v 0 then swapCommand p c else c
  let c := if bit v 1 then renegCommand t p c else c
  let c := if bit v 2 then sresetCommand t p c else c
  let c := if bit v 3 then commandHr p c else c
  if bit v 4 then unblockCommand t p c else c

/-- A write of PAR_CMD (R358, R361). -/
def pairCommand (t : Time) (v : Nat) (c : Chip) : Chip :=
  let c := if bit v 1 then yieldCommand t c else c
  if bit v 0 then handoverCommand t c else c

/-- A context that is JOINING or ACTIVE leaves (R306): it lingers, and BUS and BAT follow. -/
def ctxLeaves (t : Time) (i : Nat) (c : Chip) : Chip :=
  let x := ctx c i
  if x.state = ctxACTIVE ∨ x.state = ctxJOINING then
    capDetached t i (batDetach (ctxModule x) (ctxToBus t i false (match x.path with
      | 1 => partnerDetach t i c
      | 2 => ctxDetach t i (devGone t (x.loc % 8) c)
      | _ => carsLeft t (.port (x.loc % 4)) (ctxDetach t i (showPid (x.loc % 4) 0 (c.wr (F.CPp_PST_CTX (x.loc % 4)) 0xFF))))))
  else c

/-- A write of CTX_FORGET: GO detaches the context (R316); a partner of the shelf link is sent FORGET (R306). -/
def forgetWrite (t : Time) (v : Nat) (c : Chip) : Chip :=
  let i := bits v 7 0
  if bit v 31 ∧ ((ctx c i).state = ctxACTIVE ∨ (ctx c i).state = ctxJOINING) then ctxLeaves t i (sendForget t i c) else c

/-- The registers whose write is an operation of their own, beside or in place of the stored word; none for the others. -/
def specialWrite (t : Time) (off v : Nat) (nv : Nv) (c : Chip) : Option (Nv × Chip) :=
  let p := off / 4096
  let o := off % 4096
  let one := fun (x : Chip) => some (nv, x)
  match p with
  | 0x00 => if o = 0x84 then one (endOfInterrupt v c) else if o = 0xB8 then one (ptpOp t (bits v 1 0) c) else none
  | 0x01 | 0x02 => if o = 0x64 then one (macTail (p - 1) false v c) else if o = 0x68 then one (macTail (p - 1) true v c) else none
  | 0x04 => if o = 0x54 then one (rstCmd t v c) else if o = 0x5C then one (hibRequest t v c) else none
  | 0x06 =>
    if o = 0x48 then one (ownerLock v c) else if o = 0x4C then some (updOp t v nv c)
    else if o = 0x60 then one (stagedWrite v c)
    else if o = 0x64 then one (if bit v 0 then blockCommit t c else c) else none
  | 0x07 =>
    if o = 0x60 then one (evidenceClear t v c)
    else if 0x100 ≤ o ∧ o < 0x200 ∧ o % 16 = 0 then one (checkIn t ((o - 0x100) / 16) v c) else none
  | 0x08 =>
    if o = 0x5C then one (hostClose t v c) else if o = 0x68 then one (bivCommand t v c)
    else if o = 0x70 then one (bivAck t v c) else if o = 0x78 then one (faultInject t v c) else none
  | 0x09 => if o = 0x58 then one (pairCommand t v c) else none
  | 0x0A =>
    if 0x88 ≤ o ∧ o ≤ 0x9C then one (schedHostWrite t o v c)
    else if o = 0xA4 then one (nsRate v c)
    else if o = 0xA8 then one (c.wrR R.ANG_NSSTEP_LO v)
    else if o = 0xAC then one (nsStep v c) else none
  | 0x0B => if o = 0x300 then one (forceOff v c) else none
  | 0x0D => if o = 0x74 then one (tripClear t v c) else none
  | 0x0E =>
    if o = 0x4C then one (hostTriggers t v c) else if o = 0x50 then one (seedRequest v c)
    else if o = 0x58 then one (cdataWrite t v c) else none
  | 0x0F =>
    if o = 0x98 then one (noticeOp t v c)
    else if o = 0x74 then one ((modBus (fun b => { b with written := b.written || b.stopAt != some t.tick }) c).wrShR R.BUS_EXPORT v) else none
  | 0x10 =>
    if o = 0x84 then one (unitWrite v c) else if o = 0x90 then one (lookupStart v c)
    else if o = 0xB8 then one (capFlush t (intentPost t v c)) else if o = 0xE0 then one (xinOp t v c) else none
  | 0x11 => if o = 0x44 then one (efEnables t v c) else if o = 0x54 then one (damageClear t v c) else none
  | 0x12 =>
    if o = 0x84 then one (recordWrite v c)
    else if o = 0x88 then one (match bits v 1 0 with | 1 => recordSave t c | 2 => stagingClear c | _ => c)
    else if o = 0x8C then one (restoreCommit t v c) else none
  | 0x13 =>
    if o = 0x70 then one (match bits v 1 0 with
      | 1 => mailboxSend tyINTENT (bits v 7 4) c | 2 => mailboxSend tyGAP (bits v 7 4) c | _ => c)
    else if 0x100 ≤ o ∧ o < 0x200 ∧ o % 64 = 0x0C then one (if bit v 0 then testStart t ((o - 0x100) / 64) c else c)
    else if 0x200 ≤ o ∧ o < 0x300 ∧ o % 64 = 0x3C then one (portCommand t ((o - 0x200) / 64) v c) else none
  | 0x15 => if o = 0x44 then one (pmbHost t v c) else none
  | 0x16 => if o = 0x64 then one (forgetWrite t v c) else none
  | 0x17 =>
    if o = 0xA4 then one (if bit v 0 then areaFormat t c else c) else if o = 0xA8 then one (hostTrigger v c)
    else if o = 0xC4 then one (noteWrite t (bits v 2 0) c) else none
  | 0x18 => if 0x100 ≤ o ∧ o < 0x500 ∧ o % 32 = 0x18 then one (hostReadIndex t ((o - 0x100) / 32) v c) else none
  | _ => none

/-- A header write (R453–R456); none for a word that is stored by its access codes. -/
def headerWrite (t : Time) (iface : Iface) (nv : Nv) (p o v : Nat) (c : Chip) : Option Chip :=
  match o with
  | 0x08 => some (ctlWrite t nv p v c)
  | 0x14 => some (irqenWrite p v c)
  | 0x20 => some (keyWrite t iface p v c)
  | 0x28 => some (if bits v 1 0 = 0 then c else endUnlock iface p (commitWrite t nv p v c))
  | _ => none

/-- The operations of a page are carried out while its logic runs; the unit table and the coefficient memory take words even
while it is held (R116, R168, R455). -/
def operates (c : Chip) (off : Nat) : Bool := pageAlive c (off / 4096) || (awake c && (off == 0x10084 || off == 0xE058))

/-- A write to the BAT page takes BAT out of IDLE (R217). -/
def noticed (t : Time) (off : Nat) (c : Chip) : Chip := if off / 4096 = 0x12 then idleExit t c else c

/-- An accepted write takes effect: outside its range it is ignored and reported (R510); a 1 in a reserved bit is reported
beside the fields' effect (R7). -/
def writeWord (t : Time) (iface : Iface) (nv : Nv) (off v : Nat) (c : Chip) : Nv × Chip :=
  match accessRow off with
  | none => (nv, c)
  | some r =>
    let held := r.rw ||| r.rws ||| r.w1c ||| r.wo
    if held = 0 then (nv, c)
    else if outOfRange off v then (nv, accessFault t off c)
    else
      let n := noticed t off c
      let x : Nv × Chip :=
        match headerWrite t iface nv (off / 4096) (off % 4096) v n with
        | some c => (nv, c)
        | none =>
          match (if operates c off then specialWrite t off v nv n else none) with
          | some x => x
          | none => (nv, noteSpi t iface off (storeWord t off (spiStands t iface off v r n) r n))
      let reserved := v &&& (0xFFFFFFFF ^^^ (held ||| r.rc ||| r.ro))
      if reserved ≠ 0 then (x.1, accessFault t off x.2) else x

/-- The command is a host access: what it changes beside its own word is no hardware update of the same clock (R8, log 1). -/
def hostAccess (c : Chip) : Chip := { c with same := { c.same with host := true } }

/-- The chip as an accepted write of a word finds it. -/
def hostTaken (t : Time) (iface : Iface) (off : Nat) (c : Chip) : Chip := stayOpen t iface (off / 4096) (hostAccess c)

/-- A word of the MSI-X table (R436): it needs no key. -/
def isMsix (iface : Iface) (off : Nat) : Bool := iface == .pcie && decide (0x40000 ≤ off) && decide (off < 0x40200)

/-- A host write of a whole word (R437). -/
def hostWrite (t : Time) (iface : Iface) (off v : Nat) (nv : Nv) (c : Chip) : Nv × Chip :=
  if awake c && isMsix iface off then (nv, msixWrite ((off - 0x40000) / 4) v (hostAccess c))
  else
    let (c, ok) := writeGate t iface off c
    if ok then writeWord t iface nv off v (hostTaken t iface off c) else (nv, hostAccess c)

/-! ### Reads (R6, R436, R437, R456) -/

/-- The instance of a page (R457). -/
def pageInst (p : Nat) : Nat := if p = 1 ∨ p = 2 then p else 0

/-- PGID and PGCAP of a page (R456); every page holds RWS bits, those of FLTMAP (R399). -/
def pageId (p : Nat) : Nat := p * 2 ^ 24 + srcOfPage p * 2 ^ 16 + pageInst p * 2 ^ 8 + 1
@[inherit_doc pageId] def pageCap (p : Nat) : Nat :=
  16 * (enFixed p).toNat + 8 * (twoSources p).toNat + 4 * (standbyPage p || p == 8).toNat + 2 * (spiPage p).toNat + 1

/-- Registers that a read forms anew, or whose read is an operation of its own; none for the others. -/
def specialRead (t : Time) (off : Nat) (nv : Nv) (c : Chip) : Option (Chip × Nat) :=
  let p := off / 4096
  let o := off % 4096
  match p with
  | 0x04 => if o = 0x50 then some (modPwr (fun w => { w with peakRead := true }) (c.wr F.PWR_TEMP_PEAK 0), c.rdR R.PWR_TEMP) else none
  | 0x06 => if o = 0x60 then some (stagedRead c) else none
  | 0x08 => if o = 0x58 then some (incidentRead c) else none
  | 0x0A => if o = 0x6C then some (angleNow t c) else none
  | 0x0E => if o = 0x58 then some (cdataRead c) else none
  | 0x10 => if o = 0x84 then some (c, (Tab.get 0 c.cap.unitsSh (c.rd F.CAP_RUIDX_IDX)).toNat) else none
  | 0x12 => if o = 0x84 then some (recordRead c) else if o = 0x98 then some (c, restSeconds t c) else none
  | 0x16 => if o = 0x58 then some (ctxRead t c) else if o = 0x60 then some (bindingRead c) else none
  | 0x17 => if o = 0xB0 then some (flashRead nv c) else none
  | 0x18 => if o = 0x4C then some (readPort t c) else none
  | _ => none

/-- Registers that follow the time are formed before they are read (R264, R402, R407). -/
def liveRefresh (t : Time) (p : Nat) (c : Chip) : Chip :=
  match p with
  | 0x05 => slShow t c
  | 0x07 => wdgShow t c
  | 0x0A => showBin c
  | 0x0D => showEdges t c
  | 0x0E => showBusy t c
  | 0x09 => leaseShow t (syncShow c)
  | 0x0F => busRefresh t c
  | 0x13 => cptRefresh t c
  | _ => c

/-- A word by its access codes: RWS bits from the shadow, WO reads 0, RC clears (R6). -/
def loadWord (off : Nat) (r : MapRow) (c : Chip) : Chip × Nat :=
  let g := wordAt off
  let a := c.rdR g
  let v := (a &&& (r.rw ||| r.ro ||| r.w1c ||| r.rc)) ||| (c.shR g &&& r.rws)
  (if r.rc = 0 then c else c.wrR g (a &&& (0xFFFFFFFF ^^^ r.rc)), v)

/-- A host read of a word. -/
def hostRead (t : Time) (iface : Iface) (off : Nat) (nv : Nv) (c : Chip) : Chip × Nat :=
  let p := off / 4096
  let o := off % 4096
  if !awake c || (iface == .spi && !spiOn c) then (c, 0)
  else if isMsix iface off then (c, msixRead c ((off - 0x40000) / 4))
  else if iface == .pcie && off == 0x41000 then (c, pbaWord c)
  else if iface == .spi && !pageReach .spi c p then (accessFault t off c, 0)
  else if !pageReach iface c p then (c, 0)
  else match o with
  | 0x00 => (c, pageId p)
  | 0x04 => (c, pageCap p)
  | 0x18 => (c, irqPend c p)
  | _ =>
    match (if operates c off then specialRead t off nv c else none) with
    | some x => x
    | none =>
      match accessRow off with
      | none => (c, 0)
      | some r => loadWord off r (if pageAlive c p then liveRefresh t p c else c)

/-- A host read whose answer goes back (log 2). -/
def hostReadBack (t : Time) (iface : Iface) (off : Nat) (nv : Nv) (c : Chip) : Chip :=
  let (c, v) := hostRead t iface off nv (hostAccess c)
  returns [v] c

/-! ### SPI frames (R449) -/

/-- The words of a frame in address order, each as a single access. -/
def spiWriteWords (t : Time) : Nat → List Nat → Nv → Chip → Nv × Chip
  | _, [], nv, c => (nv, c)
  | off, w :: l, nv, c =>
    let (nv, c) := hostWrite t .spi off w nv c
    spiWriteWords t (off + 4) l nv c

/-- SPI_WRITE_FRAME: the bytes of a frame as SPI_CS_N rises. -/
def spiWrite (t : Time) (bytes : List Byte) (nv : Nv) (c : Chip) : Nv × Chip :=
  if !spiOn c then (nv, c)
  else match spiWriteParse bytes with
  | none => (nv, spiDiscard t c)
  | some (addr, ws) =>
    if c.flag F.HIF_CTL_SPIWR then
      let c := modHif (fun h => { h with spiDone := true, spiBad := false }) (c.count F.HIF_SPICNT_OK)
      spiWriteWords t addr ws nv c
    else (nv, modHif (fun h => { h with spiDone := false, spiBad := true }) c)

/-- `n` words from an address on, over SPI. -/
def spiReadWords (t : Time) (nv : Nv) : Nat → Nat → Chip → Chip × List Nat
  | _, 0, c => (c, [])
  | off, n + 1, c =>
    let (c, v) := hostRead t .spi off nv c
    let (c, l) := spiReadWords t nv (off + 4) n c
    (c, v :: l)

/-- A read frame counts, and it is not refused (R449). -/
def spiReadCount (c : Chip) : Chip := modHif (fun h => { h with spiBad := false }) (c.count F.HIF_SPICNT_OK)

/-- SPI_READ_FRAME: `n` words from an address on, and the CRC. -/
def spiRead (t : Time) (addr n : Nat) (nv : Nv) (c : Chip) : Chip :=
  if !spiOn c then c
  else
    let (c, ws) := spiReadWords t nv addr n (spiReadCount (hostAccess c))
    returns (spiAnswer addr n ws) c

end Sys2Proof.Machine
end

