-- ==== Sys2Proof/Machine/CmdAng.lean ====
section
/-! DEFINITION. The commands of the angle clock and the angle schedule (02). -/

namespace Sys2Proof.Machine

/-- The first COMMIT_IMMEDIATE of the ANG page that waits in the queue. What waits in the queue happens in the present tick. -/
def angCommitWaits (l : List Instr) : Option Iface :=
  l.findSome? fun i => match i with
    | .commitImmediate iface p => if p.val = 0x0A then some iface else none
    | _ => none

/-- The ANG commits of a tick, at angle and from the queue `l`, take effect ahead of a state event (R54). -/
def angCommits (t : Time) (l : List Instr) (nv : Nv) (c : Chip) : Nv × Chip :=
  let c := dueCommits t nv 0x18 c
  match angCommitWaits l with
  | some iface =>
    if c.ang.early = 0 then
      let x := hostWrite t iface 0xA028 1 nv c
      (x.1, modAng (fun a => { a with early := 1 }) x.2)
    else (nv, c)
  | none => (nv, c)

/-- A state event of ANG (R54): it is judged under the values that the ANG commits of its tick leave. -/
def angHappens (f : Time → Chip → Chip) (s : State) : Host.Outcome State Fault Refusal :=
  onPageNv 0x0A (fun t nv c => ((angCommits t s.pending nv c).1, f t (angCommits t s.pending nv c).2)) s

/-- An event of ANG; BUS follows a change of its state (R128, R135). -/
def angEvent (f : Time → Chip → Chip) : State → Host.Outcome State Fault Refusal :=
  angHappens fun t c => angToBus t c (f t c)

/-- LOCK_ACQUIRED (R42, R44). -/
def execLockAcquired (s : State) : Host.Outcome State Fault Refusal := angEvent lockAcquired s

/-- UNLOCK_DECLARED (R42, R44). -/
def execUnlockDeclared (s : State) : Host.Outcome State Fault Refusal := angEvent unlockDeclared s

/-- Supply loss reaches BUS (R135): a planned start in the same tick goes first (R54), and a loss that kind 0x02 reports is
item 1. -/
def supplyLossToBus (t : Time) (c : Chip) : Chip :=
  let c' := supplyLoss t c
  if c'.flag F.ANG_STAT_PLANNED && !c.flag F.ANG_STAT_PLANNED then busPlanned t c'
  else if !c.ang.below then c'
  else if maskOn c' then (if busOn c' && angState c != angState c' then busChanged t c' else c')
  else if angState c = angLOCK ∨ (angState c = angACQ ∧ c.ang.present ∧ !c.ang.lossEp) then busLoss t 1 c'
  else c'

/-- SUPPLY_LOSS_DECLARED (R42, R44, R135). -/
def execSupplyLossDeclared (s : State) : Host.Outcome State Fault Refusal := angHappens supplyLossToBus s

/-- SUPPLY_PRESENT (R42, R44, R47). -/
def execSupplyPresent (s : State) : Host.Outcome State Fault Refusal := angEvent supplyPresent s

/-- OUT_OF_BAND (R41, R42, R44). -/
def execOutOfBand (reversed : Bool) (s : State) : Host.Outcome State Fault Refusal :=
  angEvent (fun t c => outOfBand t reversed c) s

/-- DC_DETECTED (R42, R44). -/
def execDcDetected (s : State) : Host.Outcome State Fault Refusal := angEvent dcDetected s

/-- PAUSE_END (R47). -/
def execPauseEnd (s : State) : Host.Outcome State Fault Refusal := onPage 0x0A pauseEnd s

/-- The supply is present in the same tick, from the queue (R54): SUPPLY_PRESENT waits and will be met. -/
def presentWaits (l : List Instr) (c : Chip) : Bool :=
  !c.ang.below && !atBandLimit c && (!c.flag F.ANG_STAT_PLANNED || c.ang.belowSince)
    && l.any fun i => match i with | .supplyPresent => true | _ => false

/-- HOLDOVER_EXPIRED (R44, R48); with the supply present in the same tick ANG goes to ACQ and no kind 0x04 is raised (R54). -/
def execHoldoverExpired (s : State) : Host.Outcome State Fault Refusal :=
  angEvent (fun t c => if presentWaits s.pending c then c else holdoverExpired t c) s

/-- The planned start reaches BUS (R135, item 3); the notice's window is open (R140). -/
def plannedToBus (t : Time) (c : Chip) : Chip :=
  let c' := plannedStart t c
  if c'.flag F.ANG_STAT_PLANNED && !c.flag F.ANG_STAT_PLANNED then busPlanned t (if busOn c' then openWindow t c' else c') else c'

/-- PLANNED_HOLDOVER_START (R49). -/
def execPlannedHoldoverStart (s : State) : Host.Outcome State Fault Refusal := angHappens plannedToBus s

/-- The end of the masked window; a loss declared at it reaches BUS (R49, R135). -/
def windowEndToBus (t : Time) (c : Chip) : Chip :=
  let c' := angToBus t c (plannedWindowEnd t c)
  if endsLost t c then busLoss t 1 c' else c'

/-- PLANNED_WINDOW_END (R49). -/
def execPlannedWindowEnd (s : State) : Host.Outcome State Fault Refusal := angHappens windowEndToBus s

/-- DRIFT_UPDATE (R46). -/
def execDriftUpdate (s : State) : Host.Outcome State Fault Refusal := onPage 0x0A driftUpdate s

/-- CYCLE_START (R53): a division of CAP that waits for the cycle start is made in the same tick (R154, R161). -/
def cycleBegins (t : Time) (c : Chip) : Chip :=
  let c := cycleStart t c
  if pageAlive c 0x10 then capFlush t (grantEffective t 0 c) else c

@[inherit_doc cycleBegins] def execCycleStart (s : State) : Host.Outcome State Fault Refusal := onPage 0x0A cycleBegins s

/-- An entry of the schedule falls due with an action code; the commits at angle of the bin go first (R32, R54). -/
def schedCmd (action : Nat) (i : Fin 1024) : State → Host.Outcome State Fault Refusal :=
  onPageNv 0x0A fun t nv c => (nv, schedDue t action i.val (dueCommits t nv 0x18 c))

/-- SCHED_NONE (R51). -/
def execSchedNone (i : Fin 1024) (s : State) : Host.Outcome State Fault Refusal := schedCmd 0x00 i s

/-- SCHED_TRIGGER_SLOT (R51). -/
def execSchedTriggerSlot (i : Fin 1024) (s : State) : Host.Outcome State Fault Refusal := schedCmd 0x01 i s

/-- SCHED_START_CONVERSION (R51). -/
def execSchedStartConversion (i : Fin 1024) (s : State) : Host.Outcome State Fault Refusal := schedCmd 0x02 i s

/-- SCHED_DROP_SHED_PHASE (R51). -/
def execSchedDropShedPhase (i : Fin 1024) (s : State) : Host.Outcome State Fault Refusal := schedCmd 0x03 i s

/-- SCHED_ADD_PHASES (R51). -/
def execSchedAddPhases (i : Fin 1024) (s : State) : Host.Outcome State Fault Refusal := schedCmd 0x04 i s

/-- SCHED_EFUSE_ON (R51). -/
def execSchedEfuseOn (i : Fin 1024) (s : State) : Host.Outcome State Fault Refusal := schedCmd 0x05 i s

/-- SCHED_EFUSE_OFF (R51). -/
def execSchedEfuseOff (i : Fin 1024) (s : State) : Host.Outcome State Fault Refusal := schedCmd 0x06 i s

/-- SCHED_RELEASE_FRAMES (R51). -/
def execSchedReleaseFrames (i : Fin 1024) (s : State) : Host.Outcome State Fault Refusal := schedCmd 0x07 i s

/-- SCHED_RECORDER_MARKER (R51). -/
def execSchedRecorderMarker (i : Fin 1024) (s : State) : Host.Outcome State Fault Refusal := schedCmd 0x08 i s

/-- SCHED_HOST_EVENT (R443). -/
def execSchedHostEvent (i : Fin 1024) (s : State) : Host.Outcome State Fault Refusal := schedCmd 0x09 i s

/-- BANK_COPY_DONE (R52, R512). -/
def execBankCopyDone (s : State) : Host.Outcome State Fault Refusal := onPage 0x0A bankCopyDone s

/-- A host write of ANG_SOP with an operation. -/
def schedOpCmd (op : Nat) (auto : Bool) : State → Host.Outcome State Fault Refusal :=
  onChipNv fun t nv c => hostWrite t .pcie 0xA09C (op + 16 * auto.toNat) nv c

/-- SCHEDULE_READ_ENTRY (R57, R512). -/
def execScheduleReadEntry (auto : Bool) (s : State) : Host.Outcome State Fault Refusal := schedOpCmd 1 auto s

/-- SCHEDULE_WRITE_ENTRY (R57, R512). -/
def execScheduleWriteEntry (auto : Bool) (s : State) : Host.Outcome State Fault Refusal := schedOpCmd 2 auto s

/-- SCHEDULE_CLEAR_BANK (R57). -/
def execScheduleClearBank (auto : Bool) (s : State) : Host.Outcome State Fault Refusal := schedOpCmd 3 auto s

/-- ANGLE_NOW_READ (R53): a read of ANG_NOWA. -/
def execAngleNowRead (s : State) : Host.Outcome State Fault Refusal :=
  onChipNv (fun t nv c => (nv, hostReadBack t .pcie 0xA06C nv c)) s

/-- NS_TIME_STEP (R53): the supervisor writes ANG_NSSTEP_HI. -/
def execNsTimeStep (hi : Word) (s : State) : Host.Outcome State Fault Refusal :=
  onChipNv (fun t nv c => hostWrite t .pcie 0xA0AC hi.toNat nv c) s

/-- NS_RATE_ADJUST (R53): a write of ANG_NSADJ. -/
def execNsRateAdjust (v : Word) (s : State) : Host.Outcome State Fault Refusal :=
  onChipNv (fun t nv c => hostWrite t .pcie 0xA0A4 v.toNat nv c) s

end Sys2Proof.Machine
end

