-- ==== Sys2Proof/Machine/CmdBat.lean ====
section
/-! DEFINITION. The commands of the battery manager (08). -/

namespace Sys2Proof.Machine

/-- ESTIMATOR_STEP (R204). -/
def execEstimatorStep (s : State) : Host.Outcome State Fault Refusal := onPage 0x12 estimatorStep s

/-- REST_ANCHOR (R206) of a slot. -/
def execRestAnchor (m : Fin 16) (s : State) : Host.Outcome State Fault Refusal :=
  onPage 0x12 (fun t c => restAnchor t m.val c) s

/-- CHARGING_CORRECTION (R206) of a slot. -/
def execChargingCorrection (m : Fin 16) (s : State) : Host.Outcome State Fault Refusal :=
  onPage 0x12 (fun t c => chargingCorrection t m.val c) s

/-- MODULE_STALE (R201) of a slot. -/
def execModuleStale (m : Fin 16) (s : State) : Host.Outcome State Fault Refusal :=
  onPage 0x12 (fun t c => moduleStale t m.val c) s

/-- IMPEDANCE_WINDOW_JUDGE (R211) of a string. -/
def execImpedanceWindowJudge (k : Fin 4) (s : State) : Host.Outcome State Fault Refusal :=
  onPage 0x12 (fun t c => windowJudge t k.val c) s

/-- PRECHARGE_TIMEOUT (R213). -/
def execPrechargeTimeout (s : State) : Host.Outcome State Fault Refusal := onPage 0x12 prechargeTimeout s

/-- BULK_TIMEOUT (R213). -/
def execBulkTimeout (s : State) : Host.Outcome State Fault Refusal := onPage 0x12 bulkTimeout s

/-- CHARGE_TAPER_DONE (R213). -/
def execChargeTaperDone (s : State) : Host.Outcome State Fault Refusal := onPage 0x12 taperDone s

/-- ABSORPTION_UPDATE (R214). -/
def execAbsorptionUpdate (s : State) : Host.Outcome State Fault Refusal :=
  onPage 0x12 absorptionUpdate s

/-- DEEP_DISCHARGE (R215) of a slot. -/
def execDeepDischarge (m : Fin 16) (s : State) : Host.Outcome State Fault Refusal :=
  onPage 0x12 (fun t c => deepDischarge t m.val c) s

/-- DEEP_RELEASE (R215) of a slot. -/
def execDeepRelease (m : Fin 16) (s : State) : Host.Outcome State Fault Refusal :=
  onPage 0x12 (fun t c => deepRelease t m.val c) s

/-- IDLE_ENTER (R217). -/
def execIdleEnter (s : State) : Host.Outcome State Fault Refusal := onPage 0x12 idleEnter s

/-- A write of a word of the BAT page. -/
def batWrite (o v : Nat) : State → Host.Outcome State Fault Refusal :=
  onChipNv fun t nv c => hostWrite t .pcie (0x12000 + o) v nv c

/-- RECORD_SAVE (R220): OP save of BAT_ROP. -/
def execRecordSave (s : State) : Host.Outcome State Fault Refusal := batWrite 0x88 1 s

/-- STAGING_CLEAR (R221): OP 0b10 of BAT_ROP. -/
def execStagingClear (s : State) : Host.Outcome State Fault Refusal := batWrite 0x88 2 s

/-- RESTORE_COMMIT (R221): a write of BAT_RCW. -/
def execRestoreCommit (cw : Word) (s : State) : Host.Outcome State Fault Refusal := batWrite 0x8C cw.toNat s

/-- RECORD_BUFFER_ACCESS (R220, R221): a write of BAT_RDATA with its word, or a read. -/
def execRecordBufferAccess (w : Option Word) (s : State) : Host.Outcome State Fault Refusal :=
  match w with
  | some v => batWrite 0x84 v.toNat s
  | none => onChipNv (fun t nv c => (nv, hostReadBack t .pcie 0x12084 nv c)) s

end Sys2Proof.Machine
end

