-- ==== Sys2Proof/Machine/CmdBus.lean ====
section
/-! DEFINITION. The commands of the bus manager (05). -/

namespace Sys2Proof.Machine

/-- BUS_UNDERVOLTAGE (R123). -/
def execBusUndervoltage (s : State) : Host.Outcome State Fault Refusal := onPage 0x0F busUnder s

/-- BUS_OVERVOLTAGE (R123). -/
def execBusOvervoltage (s : State) : Host.Outcome State Fault Refusal := onPage 0x0F busOver s

/-- DEMAND_UNMET (R127). -/
def execDemandUnmet (s : State) : Host.Outcome State Fault Refusal := onPage 0x0F demandUnmet s

/-- SHARING_ERROR (R128) of a source. -/
def execSharingError (i : Fin 8) (s : State) : Host.Outcome State Fault Refusal :=
  onPage 0x0F (fun t c => sharingError t i.val c) s

/-- SETPOINT_SEND (R129), with the references as they stand in this tick. -/
def execSetpointSend (s : State) : Host.Outcome State Fault Refusal :=
  onPage 0x0F (fun t c => setPointSend t (busRefresh t c)) s

/-- CHANNEL_DROOP_ENTER (R132) of a set-point channel. -/
def execChannelDroopEnter (n : Fin 8) (s : State) : Host.Outcome State Fault Refusal :=
  onPage 0x0F (fun t c => reportLost t n.val c) s

/-- BUS_DIP_DETECT (R135). -/
def execBusDipDetect (s : State) : Host.Outcome State Fault Refusal := onPage 0x0F busDip s

/-- TAKEOVER_LATE (R137). -/
def execTakeoverLate (s : State) : Host.Outcome State Fault Refusal := onPage 0x0F takeoverLate s

/-- NOTICE_PREP_START: a queued notice reaches its PREP time (R141). -/
def execNoticePrepStart (s : State) : Host.Outcome State Fault Refusal := onPage 0x0F prepPassed s

/-- RAMP_START (R141). -/
def execRampStart (s : State) : Host.Outcome State Fault Refusal := onPage 0x0F rampStart s

/-- RAMP_END (R141): a notice whose start has come shows its open window. -/
def execRampEnd (s : State) : Host.Outcome State Fault Refusal :=
  onPage 0x0F (fun t c => openWindow t (rampEnd t c)) s

/-- LINE_FACTOR_STEP (R125, R134). -/
def execLineFactorStep (s : State) : Host.Outcome State Fault Refusal :=
  onPage 0x0F (fun t c => openWindow t (lineStep t c)) s

/-- RETURN_START (R142). -/
def execReturnStart (s : State) : Host.Outcome State Fault Refusal := onPage 0x0F returnStart s

/-- A write of BUS_GNOP (R139, R140): OP, FORM, ID and DUR in their places. -/
def noticeCmd (op form id dur : Nat) : State → Host.Outcome State Fault Refusal :=
  onChipNv fun t nv c => hostWrite t .pcie 0xF098 (2 ^ 30 * form + 2 ^ 28 * op + 2 ^ 24 * id + dur) nv c

/-- GAP_NOTICE_POST (R139, R140). -/
def execGapNoticePost (form : Fin 2) (id : BitVec 4) (dur : BitVec 24) (s : State) : Host.Outcome State Fault Refusal :=
  noticeCmd 1 form.val id.toNat dur.toNat s

/-- GAP_NOTICE_CANCEL (R140). -/
def execGapNoticeCancel (id : BitVec 4) (s : State) : Host.Outcome State Fault Refusal := noticeCmd 2 0 id.toNat 0 s

/-- GAP_NOTICE_WINDOW_END (R142). -/
def execGapNoticeWindowEnd (s : State) : Host.Outcome State Fault Refusal :=
  onPage 0x0F (fun t c => noticeEnd t (openWindow t c)) s

end Sys2Proof.Machine
end

