-- ==== Sys2Proof/Machine/CmdCap.lean ====
section
/-! DEFINITION. The commands of power capping and the registry (06). -/

namespace Sys2Proof.Machine

/-- A happening in CAP; what CAP hands to other cars leaves by the couplers (R149, R286). -/
def capHappens (f : Time → Chip → Chip) : State → Host.Outcome State Fault Refusal :=
  onPage 0x10 fun t c => capFlush t (f t c)

/-- CAP_REPORT_PERIOD (R150). -/
def execCapReportPeriod (s : State) : Host.Outcome State Fault Refusal := capHappens reportPeriod s

/-- A C2 frame that carries an object of CAP (R297): accepted under R298, its words go to CAP while CAP runs. -/
def capFrame (ty len : Nat) (g : Time → Nat → List Nat → Chip → Chip) (f : RxFrame) : State → Host.Outcome State Fault Refusal :=
  onPage 0x14 fun t c =>
    let c := slActive t f.seg c
    let f := routed c f
    match receive t f 2 ty (f.words.length == len) true true c with
    | (c, none) => c
    | (c, some i) => capFlush t (g t i f.words c)

/-- GRANT_RECEIVE (R150): a GRANT frame of the shelf link. -/
def execGrantReceive (f : RxFrame) (s : State) : Host.Outcome State Fault Refusal :=
  capFrame 0x30 6 (fun t i w c => grantObject t (some (.link i)) w c) f s

/-- CAP_REPORT_RECEIVE (R151): a CAPREP frame of the shelf link. -/
def execCapReportReceive (f : RxFrame) (s : State) : Host.Outcome State Fault Refusal :=
  capFrame 0x31 6 (fun t i w c => reportObject t (some (.link i)) w c) f s

/-- GRANT_EFFECTIVE (R158) of a level, after the commits at angle that are due up to CAP's own (R32, R172); with level 0 the
division that a cycle start brings (R154). -/
def execGrantEffective (level : Fin 4) (s : State) : Host.Outcome State Fault Refusal :=
  onPageNv 0x10 (fun t nv c => (nv, capFlush t (grantEffective t level.val (dueCommits t nv 0x10 c)))) s

/-- GRANT_LOST (R161) of a level. -/
def execGrantLost (level : Fin 4) (s : State) : Host.Outcome State Fault Refusal :=
  capHappens (fun t c => grantLost t level.val c) s

/-- OVER_BUDGET (R161). -/
def execOverBudget (s : State) : Host.Outcome State Fault Refusal := capHappens overBudget s

/-- CAP_SHED_STEP (R161). -/
def execCapShedStep (s : State) : Host.Outcome State Fault Refusal := capHappens shedStep s

/-- LOAD_INTENT_POST (R162, R163): a write of CAP_LIOP with POST; `ns` is its FORM. -/
def execLoadIntentPost (ns : Bool) (s : State) : Host.Outcome State Fault Refusal :=
  onChipNv (fun t nv c => hostWrite t .pcie 0x100B8 (1 + 2 * ns.toNat) nv c) s

/-- ELECTION_OBJECT_RECEIVE (R165): an ELECT frame of the shelf link. -/
def execElectionObjectReceive (f : RxFrame) (s : State) : Host.Outcome State Fault Refusal :=
  capFrame 0x32 4 (fun t i w c => electObject t (some (.link i)) w c) f s

/-- ELECTION_SETTLE (R165, R166). -/
def execElectionSettle (s : State) : Host.Outcome State Fault Refusal := capHappens electSettle s

/-- CAR_HEAD_FAILOVER (R164). -/
def execCarHeadFailover (s : State) : Host.Outcome State Fault Refusal := capHappens carHeadFailover s

/-- REGISTRY_LOOKUP (R171): a write of CAP_RLA. -/
def execRegistryLookup (a : Word) (s : State) : Host.Outcome State Fault Refusal :=
  onChipNv (fun t nv c => hostWrite t .pcie 0x10090 a.toNat nv c) s

/-- REGISTRY_LOOKUP_DONE (R171). -/
def execRegistryLookupDone (s : State) : Host.Outcome State Fault Refusal := onPage 0x10 lookupDone s

/-- ENTRY_STALE (R170). -/
def execEntryStale (a : Word) (s : State) : Host.Outcome State Fault Refusal :=
  onPage 0x10 (fun t c => entryStale t a.toNat c) s

/-- A write of CAP_XINOP with a kind (R149). -/
def xinCmd (kind : Nat) : State → Host.Outcome State Fault Refusal :=
  onChipNv fun t nv c => hostWrite t .pcie 0x100E0 kind nv c

/-- XIN_GRANT_DELIVER (R149). -/
def execXinGrantDeliver (s : State) : Host.Outcome State Fault Refusal := xinCmd 1 s

/-- XIN_REPORT_DELIVER (R149). -/
def execXinReportDeliver (s : State) : Host.Outcome State Fault Refusal := xinCmd 2 s

/-- XIN_ELECTION_DELIVER (R149). -/
def execXinElectionDeliver (s : State) : Host.Outcome State Fault Refusal := xinCmd 3 s

end Sys2Proof.Machine
end

