-- ==== Sys2Proof/Machine/CmdCen.lean ====
section
/-! DEFINITION. The commands of the control engine (04). -/

namespace Sys2Proof.Machine

/-- CEN_HOST_TRIGGER (R96): a write of CEN_HTRIG. -/
def execCenHostTrigger (v : Word) (s : State) : Host.Outcome State Fault Refusal :=
  onChipNv (fun t nv c => hostWrite t .pcie 0xE04C v.toNat nv c) s

/-- DEFERRED_HOST_TRIGGER (R96). -/
def execDeferredHostTrigger (sl : Fin 32) (s : State) : Host.Outcome State Fault Refusal :=
  onPage 0x0E (fun t c => deferredTrigger t sl.val c) s

/-- The acting chip of a pair sends the applied values of an iteration (R117): actuator code and value. -/
def sendApplied (t : Time) (sl : Nat) (c : Chip) : Chip :=
  if acts c then
    pairSend t 0x08 ((List.range (c.rd (F.CEN_LPs_CFG_NIN sl))).flatMap fun j =>
      let a := actuatorOf c sl j
      [a, ofInt 32 ((((c.engine.map EngineRun.outs).getD []).find? fun o => o.1 == a).map Prod.snd |>.getD 0)]) c
  else c

/-- CEN_ITERATION (R94): what is due at angle acts first (R32, R33); references are formed; after it BUS takes the demand and the measured currents (R127, R128),
CAP the powers (R157); the markers of the bin follow its loops (R32). -/
def engineRun (t : Time) (nv : Nv) (c : Chip) : Chip :=
  match nextSlot t c with
  | none => c
  | some _ =>
  let c := dueCommits t nv 0x18 c
  match nextSlot t c with
  | none => c
  | some sl =>
    let c := if busOn c then busRefresh t c else c
    let c := if cptOn c then cptRefresh t c else c
    let c := sendApplied t sl (cenIteration t c)
    let c := if busOn c ∧ 0x80 ≤ c.rd F.BUS_DEM_DSRC ∧ c.rd F.BUS_DEM_DSRC ≠ 0xFF ∧ (c.rd F.BUS_DEM_DSRC - 0x80) / 4 = sl then
        demandOutput t c else c
    let c := if busOn c then sharingWatch t (takeoverCheck t (showMeasured c)) else c
    let c := if capOn c then capFromSlot sl c else c
    if angleLoopWaits c then c else flushMarkers t c

@[inherit_doc engineRun] def execCenIteration (s : State) : Host.Outcome State Fault Refusal := 
  onPageNv 0x0E (fun t nv c => (nv, engineRun t nv c)) s

/-- SEED_REQUEST (R111): a write of CEN_SEED. -/
def execSeedRequest (v : Word) (s : State) : Host.Outcome State Fault Refusal :=
  onChipNv (fun t nv c => hostWrite t .pcie 0xE050 v.toNat nv c) s

/-- COEFFICIENT_WRITE (R115, R116): a write of CEN_CDATA. -/
def execCoefficientWrite (v : Word) (s : State) : Host.Outcome State Fault Refusal :=
  onChipNv (fun t nv c => hostWrite t .pcie 0xE058 v.toNat nv c) s

/-- COEFFICIENT_READ (R115): a read of CEN_CDATA. -/
def execCoefficientRead (s : State) : Host.Outcome State Fault Refusal :=
  onChipNv (fun t nv c => (nv, hostReadBack t .pcie 0xE058 nv c)) s

end Sys2Proof.Machine
end

