-- ==== Sys2Proof/Machine/CmdCpt.lean ====
section
/-! DEFINITION. The commands of the coupler ports: wires and packets (09), contracts and role swaps (10). -/

namespace Sys2Proof.Machine

/-- A happening on a port; what CAP hands on by it leaves at once (R286). -/
def portHappens (p : Fin 4) (f : Time → Nat → Chip → Chip) : State → Host.Outcome State Fault Refusal :=
  onPage 0x13 fun t c => capFlush t (f t p.val c)

/-! ### The pins of a port (R226–R228, R232, R258, R471) -/

/-- CFGA, CFGB, the idle pull-down of CL and its driver. -/
structure PortPins where
  cfga  : Termination
  cfgb  : Termination
  pull  : Bool
  drive : Bool
  deriving DecidableEq, Repr

/-- What port `p` puts on its pins: the passive terminations while its bank is unpowered and until the configuration commit, on
a standby nothing, else what its attach state and a wire test ask for. CL is driven while a packet or a hard reset is sent. -/
def portPins (t : Time) (c : Chip) (p : Nat) : PortPins :=
  if !bankUp c 2 || !awake c || (decide (c.rd F.SUP_STAT_PHASE < 3) && !cptOn c) then ⟨.sink, .marker, false, false⟩
  else if isStandby c then ⟨.none, .none, false, false⟩
  else
    let (a, b) := wireTerms c p (testStep t c p)
    ⟨a, b, portOn c p, linkUp c p && ((port c p).sending.isSome || (port c p).hrSending)⟩

/-! ### Wires (R227–R241) -/

/-- A port that a wiring fault has taken out of an attached state has lost its partner (R267). -/
def leftOr (t : Time) (p : Nat) (r : Chip × Bool) : Chip := if r.2 then policyDetach t p r.1 else r.1

/-- WIRE_WINDOW_CHANGE (R231): wire 0 CFGA, 1 CFGB, 2 CL; the level that it has held for 1 ms, in mV. -/
def execWireWindowChange (p : Fin 4) (wire : Fin 3) (mv : BitVec 13) (s : State) : Host.Outcome State Fault Refusal :=
  portHappens p (fun t p c => leftOr t p (windowChange t p wire.val mv.toNat c)) s

/-- CHATTER_HOLD_END (R237). -/
def execChatterHoldEnd (p : Fin 4) (s : State) : Host.Outcome State Fault Refusal := portHappens p chatterHoldEnd s

/-- The policy acts on the end of a debounce or a test: it accepts an attach, and sees a port that has left an attached state,
or that waited after a hard reset, as detached (R236, R241, R267). -/
def wireEnds (t : Time) (p : Nat) (had : Bool) (r : Chip × WireEnd) : Chip :=
  match r.2 with
  | .joined => policyAttach t p r.1
  | .left => if had then policyDetach t p r.1 else r.1
  | .stays => r.1

/-- ATTACH_DEBOUNCE_END (R236): the test of the waiting port, and the policy's acceptance (R267). -/
def attachDone (w : WireTest) (t : Time) (p : Nat) (c : Chip) : Chip := wireEnds t p false (attachEnd t p w c)

@[inherit_doc attachDone] def execAttachDebounceEnd (p : Fin 4) (w : WireTest) (s : State) : Host.Outcome State Fault Refusal :=
  portHappens p (attachDone w) s

/-- DETACH_DEBOUNCE_END (R236). -/
def execDetachDebounceEnd (p : Fin 4) (w : WireTest) (s : State) : Host.Outcome State Fault Refusal :=
  portHappens p (fun t p c => wireEnds t p true (detachEnd t p w c)) s

/-- SOURCE_SELF_MAP (R234). -/
def execSourceSelfMap (p : Fin 4) (s : State) : Host.Outcome State Fault Refusal := portHappens p sourceSelfMap s

/-- TOGGLE_PHASE_END (R235). -/
def execTogglePhaseEnd (p : Fin 4) (s : State) : Host.Outcome State Fault Refusal := portHappens p togglePhase s

/-- WIRE_TEST_PERIODIC (R239). -/
def execWireTestPeriodic (p : Fin 4) (s : State) : Host.Outcome State Fault Refusal :=
  portHappens p testPeriodic s

/-- WIRE_TEST_COMMAND (R239): a write of CPn_CMD with TEST. -/
def execWireTestCommand (p : Fin 4) (s : State) : Host.Outcome State Fault Refusal :=
  onChipNv (fun t nv c => hostWrite t .pcie (0x1310C + 0x40 * p.val) 1 nv c) s

/-- WIRE_TEST_COMPLETE (R240). -/
def execWireTestComplete (p : Fin 4) (w : WireTest) (s : State) : Host.Outcome State Fault Refusal :=
  portHappens p (fun t p c => testComplete t p w c) s

/-- WIRE_TEST_CONFIRM (R239). -/
def confirmed (w : WireTest) (t : Time) (p : Nat) (c : Chip) : Chip :=
  wireEnds t p (attached c p || pst c p == pHRESET) (testConfirm t p w c)

@[inherit_doc confirmed] def execWireTestConfirm (p : Fin 4) (w : WireTest) (s : State) : Host.Outcome State Fault Refusal :=
  portHappens p (confirmed w) s

/-! ### Packets (R244–R256) -/

/-- PACKET_TRANSMIT_START (R244). -/
def execPacketTransmitStart (p : Fin 4) (s : State) : Host.Outcome State Fault Refusal :=
  portHappens p txPacket s

/-- PACKET_TRANSMIT_END (R243): the policy acts on what has been sent (R272, R280). -/
def packetSent (t : Time) (p : Nat) (c : Chip) : Chip :=
  match txPacketEnd t p c with
  | (c, some k) => policySent t p k c
  | (c, none) => c

@[inherit_doc packetSent] def execPacketTransmitEnd (p : Fin 4) (s : State) : Host.Outcome State Fault Refusal :=
  portHappens p packetSent s

/-- The policy is told of a send that failed (R255, R275). -/
def failedOr (t : Time) (p : Nat) (r : Chip × Option Pkt) : Chip :=
  match r with
  | (c, some k) => policyFailed t p k c
  | (c, none) => c

/-- COLLISION (R244). -/
def execCollision (p : Fin 4) (s : State) : Host.Outcome State Fault Refusal :=
  portHappens p (fun t p c => failedOr t p (collision t p c)) s

/-- ACK_SEND (R254). -/
def execAckSend (p : Fin 4) (s : State) : Host.Outcome State Fault Refusal :=
  portHappens p ackSend s

/-- ACK_RECEIVED (R255) with its MSGID: the policy is told of the packet that it acknowledges. -/
def packetAcked (id : Nat) (t : Time) (p : Nat) (c : Chip) : Chip :=
  match ackReceived p id c with
  | (c, some k) => policyAcked t p k c
  | (c, none) => c

@[inherit_doc packetAcked] def execAckReceived (p : Fin 4) (id : Fin 8) (s : State) : Host.Outcome State Fault Refusal :=
  portHappens p (packetAcked id.val) s

/-- What a reception becomes: a hard reset in an attached state, a packet that fails R252 a discard, an ACK the end of a wait,
any other packet its acknowledgement and delivery; nothing on a standby (R232, R252, R254, R258). -/
def received (set body : List Sym) (ended : Bool) (t : Time) (p : Nat) (c : Chip) : Chip :=
  if !portOn c p || isStandby c then c
  else match heard set body ended with
    | .reset => if attached c p then hardReset t p c else c
    | .bad => pktDiscard t p c
    | .packet hdr objs =>
      if !pktGood c p hdr objs then pktDiscard t p c
      else if hdr % 32 = 0x01 then packetAcked (bits hdr 11 9) t p c
      else pktReceive t p hdr objs c

/-- PACKET_RECEIVE (R252): the four symbols after the preamble, those that follow up to ET, and whether ET has come before the
wire fell idle. -/
def execPacketReceive (p : Fin 4) (set : List (BitVec 5)) (body : List (BitVec 5)) (ended : Bool) (s : State) :
    Host.Outcome State Fault Refusal :=
  portHappens p (received set body ended) s

/-- ACK_TIMEOUT (R255). -/
def execAckTimeout (p : Fin 4) (s : State) : Host.Outcome State Fault Refusal :=
  portHappens p (fun t p c => failedOr t p (ackTimeout t p c)) s

/-- HARD_RESET_SEND (R256). -/
def execHardResetSend (p : Fin 4) (s : State) : Host.Outcome State Fault Refusal :=
  portHappens p (fun t p c => hrSend t false p c) s

/-- HARD_RESET_FORCED (R256). -/
def execHardResetForced (p : Fin 4) (s : State) : Host.Outcome State Fault Refusal :=
  portHappens p (fun t p c => hrSend t true p c) s

/-- HARD_RESET_SENT (R277). -/
def execHardResetSent (p : Fin 4) (s : State) : Host.Outcome State Fault Refusal :=
  portHappens p (fun t p c => if (port c p).hrSending && bitsSent t c p then hardReset t p c else c) s

/-- HARD_RESET_RECEIVE (R256, R277): ignored but in an attached state (R232). -/
def execHardResetReceive (p : Fin 4) (s : State) : Host.Outcome State Fault Refusal :=
  portHappens p (fun t p c => if attached c p then hardReset t p c else c) s

/-! ### Messages (R267–R286) -/

/-- A message of a type reaches the policy of a port. -/
def message (p : Fin 4) (ty : Nat) (objs : List Word) (f : Time → Nat → List Nat → Chip → Chip) :
    State → Host.Outcome State Fault Refusal :=
  portHappens p fun t p c =>
    let (c, o) := delivered t p ty (objs.map BitVec.toNat) c
    f t p o c

/-- ACCEPT_RECEIVED (R267). -/
def execAcceptReceived (p : Fin 4) (s : State) : Host.Outcome State Fault Refusal :=
  message p tyACCEPT [] (fun t p _ => acceptReceived t p) s

/-- REJECT_RECEIVED (R267). -/
def execRejectReceived (p : Fin 4) (s : State) : Host.Outcome State Fault Refusal :=
  message p tyREJECT [] (fun t p _ => rejectReceived t p) s

/-- READY_RECEIVED (R271). -/
def execReadyReceived (p : Fin 4) (s : State) : Host.Outcome State Fault Refusal :=
  message p tyREADY [] (fun t p _ => readyReceived t p) s

/-- GETCAPS_RECEIVED (R267). -/
def execGetcapsReceived (p : Fin 4) (s : State) : Host.Outcome State Fault Refusal :=
  message p tyGETCAPS [] (fun t p _ => getcapsReceived t p) s

/-- SWAP_RECEIVED (R279). -/
def execSwapReceived (p : Fin 4) (s : State) : Host.Outcome State Fault Refusal :=
  message p tySWAP [] (fun t p _ => swapReceived t p) s

/-- WAIT_RECEIVED (R267). -/
def execWaitReceived (p : Fin 4) (s : State) : Host.Outcome State Fault Refusal :=
  message p tyWAIT [] (fun t p _ => waitReceived t p) s

/-- WAIT_RESEND (R267). -/
def execWaitResend (p : Fin 4) (s : State) : Host.Outcome State Fault Refusal := portHappens p waitResend s

/-- SRESET_RECEIVED (R276). -/
def execSresetReceived (p : Fin 4) (s : State) : Host.Outcome State Fault Refusal :=
  message p tySRESET [] (fun t p _ => sresetReceived t p) s

/-- NOTSUPP_RECEIVED (R267). -/
def execNotsuppReceived (p : Fin 4) (s : State) : Host.Outcome State Fault Refusal :=
  message p tyNOTSUPP [] (fun t p _ => notsuppReceived t p) s

/-- OFFER_RECEIVED (R269). -/
def execOfferReceived (p : Fin 4) (objs : List Word) (s : State) : Host.Outcome State Fault Refusal :=
  message p tyOFFER objs offerReceived s

/-- REQUEST_RECEIVED (R270). -/
def execRequestReceived (p : Fin 4) (w : Word) (s : State) : Host.Outcome State Fault Refusal :=
  message p tyREQUEST [w] (fun t p o => requestReceived t p (o.headD 0)) s

/-- IDENT_RECEIVED (R283). -/
def execIdentReceived (p : Fin 4) (o0 o1 o2 : Word) (s : State) : Host.Outcome State Fault Refusal :=
  message p tyIDENT [o0, o1, o2] identReceived s

/-- INTENT_RECEIVED (R284). -/
def execIntentReceived (p : Fin 4) (o0 o1 o2 o3 : Word) (s : State) : Host.Outcome State Fault Refusal :=
  message p tyINTENT [o0, o1, o2, o3] intentReceived s

/-- GAP_RECEIVED (R285). -/
def execGapReceived (p : Fin 4) (o0 o1 o2 o3 : Word) (s : State) : Host.Outcome State Fault Refusal :=
  message p tyGAP [o0, o1, o2, o3] gapReceived s

/-- RELAY_RECEIVED (R286). -/
def execRelayReceived (p : Fin 4) (objs : List Word) (s : State) : Host.Outcome State Fault Refusal :=
  message p tyRELAY objs relayReceived s

/-- UNKNOWN_TYPE_RECEIVED (R267). -/
def execUnknownTypeReceived (p : Fin 4) (s : State) : Host.Outcome State Fault Refusal :=
  portHappens p (fun _ p c => unknownReceived p c) s

/-! ### Timers, the line and commands (R267–R287) -/

/-- SENDER_RESPONSE_TIMEOUT (R274). -/
def execSenderResponseTimeout (p : Fin 4) (s : State) : Host.Outcome State Fault Refusal := portHappens p responseTimeout s

/-- TRANSITION_TIMEOUT (R274). -/
def execTransitionTimeout (p : Fin 4) (s : State) : Host.Outcome State Fault Refusal := portHappens p transitionTimeout s

/-- SINK_WAIT_CAP_TIMEOUT (R274). -/
def execSinkWaitCapTimeout (p : Fin 4) (s : State) : Host.Outcome State Fault Refusal := portHappens p waitCapTimeout s

/-- SWAP_OFF_TIMEOUT (R274). -/
def execSwapOffTimeout (p : Fin 4) (s : State) : Host.Outcome State Fault Refusal :=
  portHappens p (fun t p c => swapTimeout t p 1 c) s

/-- SWAP_ON_TIMEOUT (R274). -/
def execSwapOnTimeout (p : Fin 4) (s : State) : Host.Outcome State Fault Refusal :=
  portHappens p (fun t p c => swapTimeout t p 2 c) s

/-- SAFE0_TIMEOUT (R274). -/
def execSafe0Timeout (p : Fin 4) (s : State) : Host.Outcome State Fault Refusal := portHappens p safe0Timeout s

/-- REQ_RETRY_TIMEOUT (R274). -/
def execReqRetryTimeout (p : Fin 4) (s : State) : Host.Outcome State Fault Refusal :=
  portHappens p reqRetryTimeout s

/-- SOURCE_SETTLED (R272). -/
def execSourceSettled (p : Fin 4) (s : State) : Host.Outcome State Fault Refusal := portHappens p sourceSettled s

/-- LINE_DISCHARGED (R277). -/
def execLineDischarged (p : Fin 4) (s : State) : Host.Outcome State Fault Refusal := portHappens p lineDischarged s

/-- SWAP_LINE_RELEASED (R280). -/
def execSwapLineReleased (p : Fin 4) (s : State) : Host.Outcome State Fault Refusal := portHappens p swapLineReleased s

/-- FORCED_DETACH_RELEASE (R278). -/
def execForcedDetachRelease (p : Fin 4) (s : State) : Host.Outcome State Fault Refusal := portHappens p forcedRelease s

/-- A write of CPp_PCMD. -/
def portWrite (p : Fin 4) (v : Nat) : State → Host.Outcome State Fault Refusal :=
  onChipNv fun t nv c => hostWrite t .pcie (0x1323C + 0x40 * p.val) v nv c

/-- SWAP_COMMAND (R279): a bit of CPp_PCMD. -/
def execSwapCommand (p : Fin 4) (s : State) : Host.Outcome State Fault Refusal := portWrite p 1 s

/-- RENEG_COMMAND (R267): a bit of CPp_PCMD. -/
def execRenegCommand (p : Fin 4) (s : State) : Host.Outcome State Fault Refusal := portWrite p 2 s

/-- SRESET_COMMAND (R267): a bit of CPp_PCMD. -/
def execSresetCommand (p : Fin 4) (s : State) : Host.Outcome State Fault Refusal := portWrite p 4 s

/-- HRESET_COMMAND (R256): a bit of CPp_PCMD. -/
def execHresetCommand (p : Fin 4) (s : State) : Host.Outcome State Fault Refusal := portWrite p 8 s

/-- UNBLOCK_COMMAND (R267): a bit of CPp_PCMD. -/
def execUnblockCommand (p : Fin 4) (s : State) : Host.Outcome State Fault Refusal := portWrite p 16 s

/-- IDENT_RESEND (R283). -/
def execIdentResend (p : Fin 4) (s : State) : Host.Outcome State Fault Refusal :=
  portHappens p (fun _ p c => identResend p c) s

/-- A write of CPT_TXOP: KIND and the ports (R287). -/
def mailWrite (kind : Nat) (ports : BitVec 4) : State → Host.Outcome State Fault Refusal :=
  onChipNv fun t nv c => hostWrite t .pcie 0x13070 (kind + 16 * ports.toNat) nv c

/-- MAILBOX_SEND_INTENT (R287). -/
def execMailboxSendIntent (ports : BitVec 4) (s : State) : Host.Outcome State Fault Refusal := mailWrite 1 ports s

/-- MAILBOX_SEND_GAP (R287). -/
def execMailboxSendGap (ports : BitVec 4) (s : State) : Host.Outcome State Fault Refusal := mailWrite 2 ports s

end Sys2Proof.Machine
end

