-- ==== Sys2Proof/Machine/CmdEfu.lean ====
section
/-! DEFINITION. The commands of the electronic fuses (07). -/

namespace Sys2Proof.Machine

/-- A happening in EFU: its logic runs, or SAFE does (R194). -/
def efHappens (f : Time → Chip → Chip) : State → Host.Outcome State Fault Refusal :=
  onChip fun t c => if awake c then f t c else c

/-- EFU_SENSE_FRAME (R178), each 1 µs, with the codes of EF_IS and EF_VO of channels 0–15; their powers go to CAP (R193). -/
def senseFrame (t : Time) (codes : List (BitVec 12 × BitVec 12)) (c : Chip) : Chip :=
  if !periodOver t 400 c.efu.frameAt then c else
  let c := { c with efu := { c.efu with frameAt := some t.tick } }
  let c := efFrame t (codes.map fun x => (x.1.toNat, x.2.toNat)) c
  if capOn c && efConverts c then capFromEfu c else c

@[inherit_doc senseFrame] def execEfuSenseFrame (codes : List (BitVec 12 × BitVec 12)) (s : State) :
    Host.Outcome State Fault Refusal :=
  efHappens (fun t c => senseFrame t codes c) s

/-- EFU_EVALUATION_TICK (R178, R180): the voltages in µV of EF_IS and EF_GS of channels 0–15, as the comparators see them. -/
def execEfuEvaluationTick (isV gsV : List Nat) (s : State) : Host.Outcome State Fault Refusal :=
  efHappens (fun t c => efTicks t isV gsV c) s

/-- CHANNEL_ENABLE_COMMAND (R179): a write of EFU_CHEN. -/
def execChannelEnableCommand (v : Word) (s : State) : Host.Outcome State Fault Refusal :=
  onChipNv (fun t nv c => hostWrite t .pcie 0x11044 v.toNat nv c) s

/-- DAMAGE_CLEAR (R179): a write of EFU_DMGCLR. -/
def execDamageClear (v : Word) (s : State) : Host.Outcome State Fault Refusal :=
  onChipNv (fun t nv c => hostWrite t .pcie 0x11054 v.toNat nv c) s

/-- GATE_RISE_TIMEOUT (R181). -/
def execGateRiseTimeout (n : Fin 16) (s : State) : Host.Outcome State Fault Refusal :=
  efHappens (fun t c => gateRiseTimeout t n.val c) s

/-- GATE_LOST_IN_ON (R182). -/
def execGateLostInOn (n : Fin 16) (s : State) : Host.Outcome State Fault Refusal :=
  efHappens (fun t c => gateLostInOn t n.val c) s

/-- OFF_STATE_CURRENT (R182). -/
def execOffStateCurrent (n : Fin 16) (s : State) : Host.Outcome State Fault Refusal :=
  efHappens (fun t c => offStateCurrent t n.val c) s

/-- FAULT_TIMER_TRIP (R183). -/
def execFaultTimerTrip (n : Fin 16) (s : State) : Host.Outcome State Fault Refusal :=
  efHappens (fun t c => faultTimerTrip t n.val c) s

/-- OVERCURRENT_TRIP (R184). -/
def execOvercurrentTrip (n : Fin 16) (s : State) : Host.Outcome State Fault Refusal :=
  efHappens (fun _ c => efOvercurrent n.val c) s

/-- SHORT_DURING_RAMP (R185). -/
def execShortDuringRamp (n : Fin 16) (s : State) : Host.Outcome State Fault Refusal :=
  efHappens (fun t c => shortDuringRamp t n.val c) s

/-- REVERSAL_CLEARED (R186). -/
def execReversalCleared (n : Fin 16) (s : State) : Host.Outcome State Fault Refusal :=
  efHappens (fun t c => reversalClearedNow t n.val c) s

/-- RETRY_WAIT_END (R187). -/
def execRetryWaitEnd (n : Fin 16) (s : State) : Host.Outcome State Fault Refusal :=
  efHappens (fun t c => retryWaitEnd t n.val c) s

/-- RETRY_RELOAD (R187). -/
def execRetryReload (n : Fin 16) (s : State) : Host.Outcome State Fault Refusal :=
  efHappens (fun _ c => retryReload n.val c) s

/-- POWER_GOOD_ASSERT (R189). -/
def execPowerGoodAssert (n : Fin 16) (s : State) : Host.Outcome State Fault Refusal :=
  efHappens (fun t c => powerGoodAssert t n.val c) s

/-- PAIR_SHARE_UPDATE (R191) of channels 2k and 2k + 1. -/
def execPairShareUpdate (k : Fin 8) (s : State) : Host.Outcome State Fault Refusal :=
  efHappens (fun t c => pairShareUpdate t k.val c) s

/-- PAIR_SHARE_ERROR (R192). -/
def execPairShareError (k : Fin 8) (s : State) : Host.Outcome State Fault Refusal :=
  efHappens (fun t c => pairShareError t k.val c) s

/-- CAP_EXCEEDED (R193): the mean over CAPT in 10 mA. -/
def execCapExceeded (n : Fin 16) (mean : Nat) (s : State) : Host.Outcome State Fault Refusal :=
  efHappens (fun t c => capExceeded t n.val mean c) s

end Sys2Proof.Machine
end

