-- ==== Sys2Proof/Machine/CmdFlt.lean ====
section
/-! DEFINITION. The commands of the fault collector (14) and the watchdog (15). -/

namespace Sys2Proof.Machine

/-! ### Fault collection -/

/-- FAULT_MESSAGE (R376): a block sets a coded message of a source, 0x01–0x19, with its kind and address. -/
def execFaultMessage (source : Fin 26) (kind : Byte) (addr : Word) (s : State) : Host.Outcome State Fault Refusal :=
  onPage 0x08 (fun t c => if source.val = 0 ∨ kind = 0 then c else raise t source.val kind.toNat addr.toNat c) s

/-- FAULT_BOOKKEEPING (R376). -/
def execFaultBookkeeping (s : State) : Host.Outcome State Fault Refusal := onPage 0x08 bookkeep s

/-- INCIDENT_CLOSE (R385): a write of FLT_ICLOSE. -/
def execIncidentClose (iface : Iface) (v : Word) (s : State) : Host.Outcome State Fault Refusal :=
  onChipNv (fun t nv c => hostWrite t iface 0x805C v.toNat nv c) s

/-- TRAP_HANDLED_CLOSE (R385) of a source. -/
def execTrapHandledClose (source : Fin 26) (s : State) : Host.Outcome State Fault Refusal :=
  onPage 0x08 (fun t c => trapClose t source.val c) s

/-- INCIDENT_AUTO_CLOSE (R385) of a source. -/
def execIncidentAutoClose (source : Fin 26) (s : State) : Host.Outcome State Fault Refusal :=
  onPage 0x08 (fun t c => autoClose t source.val c) s

/-- HNMI_PULSE_END (R388). -/
def execHnmiPulseEnd (s : State) : Host.Outcome State Fault Refusal := onPage 0x08 hnmiEnd s

/-- ERR_MIN_WIDTH_END (R387). -/
def execErrMinWidthEnd (s : State) : Host.Outcome State Fault Refusal := onPage 0x08 errMinEnd s

/-- BIVOUAC_COMMAND (R393): a write of FLT_BIVCMD with its key. -/
def execBivouacCommand (iface : Iface) (key : Word) (s : State) : Host.Outcome State Fault Refusal :=
  onChipNv (fun t nv c => hostWrite t iface 0x8068 key.toNat nv c) s

/-- BIVOUAC_ACK (R396): a write of FLT_BIVACK. -/
def execBivouacAck (iface : Iface) (s : State) : Host.Outcome State Fault Refusal :=
  onChipNv (fun t nv c => hostWrite t iface 0x8070 1 nv c) s

/-- FAULT_INJECT (R400): a write of FLT_INJ with GO, a source and a kind. -/
def execFaultInject (iface : Iface) (source kind : Byte) (s : State) : Host.Outcome State Fault Refusal :=
  onChipNv (fun t nv c => hostWrite t iface 0x8078 (2 ^ 31 + 2 ^ 8 * kind.toNat + source.toNat) nv c) s

/-- INCIDENT_READ (R386): a read of FLT_IDATA. -/
def execIncidentRead (iface : Iface) (s : State) : Host.Outcome State Fault Refusal :=
  onChipNv (fun t nv c => (nv, hostReadBack t iface 0x8058 nv c)) s

/-! ### Watchdog -/

/-- What the supervisor has done comes first: its log lines and its UART (R450), and the ticks of a halt (R403). The UART needs
running cores. -/
def supRuns (run : SupRun) (f : Time → Nat → Chip → Chip) (t : Time) (c : Chip) : Chip :=
  let c := if awake c && decide (2 ≤ c.rd F.SUP_STAT_PHASE) then uartRun run.log run.rx c else c
  if pageAlive c 0x07 then f t run.pc.toNat (supHalted t run.halted c) else c

/-- SUPERVISOR_SERVICE (R402) with what the supervisor has done. -/
def execSupervisorService (run : SupRun) (s : State) : Host.Outcome State Fault Refusal :=
  onChip (supRuns run supService) s

/-- SUPERVISOR_SERVICE_LATE (R402) with what the supervisor has done. -/
def execSupervisorServiceLate (run : SupRun) (s : State) : Host.Outcome State Fault Refusal :=
  onChip (supRuns run supLate) s

/-- TASK_CHECK_IN (R406, R408): a write of WDG_TSk_SVC with a site code. -/
def execTaskCheckIn (iface : Iface) (k : Fin 16) (site : Word) (s : State) : Host.Outcome State Fault Refusal :=
  onChipNv (fun t nv c => hostWrite t iface (0x7100 + 16 * k.val) site.toNat nv c) s

/-- The watchdog counts in hibernation too (R411). -/
def wdgRuns (c : Chip) : Bool := c.pwr.psenLow || pageAlive c 0x07

/-- HOST_CYCLE_CLOSE (R409, R411). -/
def execHostCycleClose (s : State) : Host.Outcome State Fault Refusal :=
  onChip (fun t c => if wdgRuns c then hostCycleClose t c else c) s

/-- EVIDENCE_CLEAR (R410): a write of WDG_EVCLR. -/
def execEvidenceClear (iface : Iface) (sup host : Bool) (s : State) : Host.Outcome State Fault Refusal :=
  onChipNv (fun t nv c => hostWrite t iface 0x7060 (sup.toNat + 2 * host.toNat) nv c) s

/-- WDG_WAKE_TIMER (R411). -/
def execWdgWakeTimer (s : State) : Host.Outcome State Fault Refusal := onChip (fun t c => wakeTimer t c) s

/-- AO_OSCILLATOR_STOP (R401). -/
def execAoOscillatorStop (s : State) : Host.Outcome State Fault Refusal := onChip crystalStop s

/-- CRYSTAL_RETURN (R401). -/
def execCrystalReturn (s : State) : Host.Outcome State Fault Refusal := onChip crystalBack s

end Sys2Proof.Machine
end

