-- ==== Sys2Proof/Machine/CmdHost.lean ====
section
/-! DEFINITION. The commands of the host interfaces and of every page's header (00, 17). -/

namespace Sys2Proof.Machine

/-- The BAR0 offset of a word of page `p`. -/
def pageWord (p : Fin 25) (o : Nat) : Nat := p.val * 4096 + o

/-- A write of a page's word by its host. -/
def headerCmd (iface : Iface) (p : Fin 25) (o v : Nat) : State → Host.Outcome State Fault Refusal :=
  onChipNv fun t nv c => hostWrite t iface (pageWord p o) v nv c

/-- REGISTER_WRITE (R6, R7, R437): a write with partial byte enables, or not of a whole word, is ignored and reported. -/
def execRegisterWrite (iface : Iface) (off : BitVec 24) (v : Word) (whole : Bool) (s : State) : Host.Outcome State Fault Refusal :=
  onChipNv (fun t nv c =>
    if whole && off.toNat % 4 == 0 then hostWrite t iface off.toNat v.toNat nv c
    else (nv, if awake c && (iface == .pcie || spiOn c) then accessFault t off.toNat c else c)) s

/-- RC_REGISTER_READ (R6, R437): the whole word is read, and RC fields clear. -/
def execRcRegisterRead (iface : Iface) (off : BitVec 24) (s : State) : Host.Outcome State Fault Refusal :=
  onChipNv (fun t nv c => (nv, hostReadBack t iface (off.toNat / 4 * 4) nv c)) s

/-- PAGE_UNLOCK (R453). -/
def execPageUnlock (iface : Iface) (p : Fin 25) (v : Word) (s : State) : Host.Outcome State Fault Refusal :=
  headerCmd iface p 0x20 v.toNat s

/-- PAGE_UNLOCK_TIMEOUT (R453). -/
def execPageUnlockTimeout (iface : Iface) (p : Fin 25) (s : State) : Host.Outcome State Fault Refusal :=
  onChip (fun t c => if awake c then unlockLapse t iface p.val c else c) s

/-- The word that leaves PGCTL.EN as it is. -/
def ctlWith (p : Fin 25) (v : Nat) (c : Chip) : Nat := v + (c.blockOn p.val).toNat

/-- PAGE_LOCK (R453). -/
def execPageLock (iface : Iface) (p : Fin 25) (s : State) : Host.Outcome State Fault Refusal :=
  headerCmd iface p 0x08 (ctlWith p 4 s.chip) s

/-- PAGE_BLOCK_RESET (R455). -/
def execPageBlockReset (iface : Iface) (p : Fin 25) (s : State) : Host.Outcome State Fault Refusal :=
  headerCmd iface p 0x08 (ctlWith p 2 s.chip) s

/-- BLOCK_LOGIC_HOLD (R455). -/
def execBlockLogicHold (iface : Iface) (p : Fin 25) (s : State) : Host.Outcome State Fault Refusal :=
  headerCmd iface p 0x08 0 s

/-- BLOCK_LOGIC_RELEASE (R455). -/
def execBlockLogicRelease (iface : Iface) (p : Fin 25) (s : State) : Host.Outcome State Fault Refusal :=
  headerCmd iface p 0x08 1 s

/-- COMMIT_IMMEDIATE (R454). -/
def execCommitImmediate (iface : Iface) (p : Fin 25) (s : State) : Host.Outcome State Fault Refusal :=
  if p.val = 0x0A ∧ s.chip.ang.early ≠ 0 then onChip (fun _ c => modAng (fun a => { a with early := a.early - 1 }) c) s
  else headerCmd iface p 0x28 1 s

/-- COMMIT_AT_BOUNDARY (R454). -/
def execCommitAtBoundary (iface : Iface) (p : Fin 25) (k : Fin 8) (s : State) : Host.Outcome State Fault Refusal :=
  headerCmd iface p 0x28 (2 + 16 * k.val) s

/-- COMMIT_AT_ANGLE (R454). -/
def execCommitAtAngle (iface : Iface) (p : Fin 25) (angle : BitVec 16) (cyc : Byte) (s : State) :
    Host.Outcome State Fault Refusal :=
  headerCmd iface p 0x28 (3 + 256 * cyc.toNat + 65536 * angle.toNat) s

/-- PENDING_COMMIT_APPLY (R454). -/
def execPendingCommitApply (p : Fin 25) (s : State) : Host.Outcome State Fault Refusal :=
  onChipNv (fun t nv c => (nv, if awake c then pendingApply t nv p.val c else c)) s

/-- MSIX_MESSAGE_SEND (R440). -/
def execMsixMessageSend (v : Fin 32) (s : State) : Host.Outcome State Fault Refusal :=
  onPage 0 (fun _ c => msixSend v.val c) s

/-- END_OF_INTERRUPT (R440): a write of HIF_EOI. -/
def execEndOfInterrupt (iface : Iface) (w : Word) (s : State) : Host.Outcome State Fault Refusal :=
  headerCmd iface 0 0x84 w.toNat s

/-- RING_INTERRUPT_TIMEOUT (R439). -/
def execRingInterruptTimeout (k : Fin 32) (s : State) : Host.Outcome State Fault Refusal :=
  onPage 0 (fun t c => ringTimeout t k.val c) s

/-- PCIE_RESET (R438). -/
def execPcieReset (err : Bool) (s : State) : Host.Outcome State Fault Refusal :=
  onPage 0 (fun t c => pcieReset t err c) s

/-- PCIE_LINK_UP (R438). -/
def execPcieLinkUp (speed : Fin 8) (width : Fin 4) (bme msixEn fmask : Bool) (s : State) : Host.Outcome State Fault Refusal :=
  onPage 0 (fun t c => pcieUp t speed.val width.val bme msixEn fmask c) s

/-- MAC_FRAME_RECEIVE (R445). -/
def execMacFrameReceive (n : Fin 2) (addr : BitVec 64) (frame : List Byte) (fcs : Word) (s : State) :
    Host.Outcome State Fault Refusal :=
  onPage (1 + n.val) (fun t c => macReceive t n.val addr.toNat frame fcs.toNat c) s

/-- MAC_TAIL_WRITE (R445): a write of HIF_Mn_TXP or HIF_Mn_RXP. -/
def execMacTailWrite (n : Fin 2) (rx : Bool) (v : Word) (s : State) : Host.Outcome State Fault Refusal :=
  onChipNv (fun t nv c => hostWrite t .pcie ((1 + n.val) * 4096 + (if rx then 0x68 else 0x64)) v.toNat nv c) s

/-- MAC_FRAME_TRANSMIT (R445). -/
def execMacFrameTransmit (n : Fin 2) (len : BitVec 16) (frame : List Byte) (s : State) : Host.Outcome State Fault Refusal :=
  onPage (1 + n.val) (fun t c => macTransmit t n.val len.toNat frame c) s

/-- MAC_LINK_CHANGE (R444). -/
def execMacLinkChange (n : Fin 2) (seen : LinkSeen) (speed : Fin 4) (s : State) : Host.Outcome State Fault Refusal :=
  onPage (1 + n.val) (fun t c => macLink t n.val seen speed.val c) s

/-- PTP_SYNC_ONLY (R447): a write of HIF_PTPOP. -/
def execPtpSyncOnly (iface : Iface) (s : State) : Host.Outcome State Fault Refusal := headerCmd iface 0 0xB8 1 s

/-- PTP_FULL_EXCHANGE (R447): a write of HIF_PTPOP. -/
def execPtpFullExchange (iface : Iface) (s : State) : Host.Outcome State Fault Refusal := headerCmd iface 0 0xB8 2 s

/-- SPI_WRITE_FRAME (R449). -/
def execSpiWriteFrame (bytes : List Byte) (s : State) : Host.Outcome State Fault Refusal :=
  onChipNv (fun t nv c => spiWrite t bytes nv c) s

/-- SPI_READ_FRAME (R449). -/
def execSpiReadFrame (addr : BitVec 24) (n : Fin 65) (s : State) : Host.Outcome State Fault Refusal :=
  onChipNv (fun t nv c => (nv, spiRead t addr.toNat n.val nv c)) s

/-- SPI_STATUS_READ (R449). -/
def execSpiStatusRead (s : State) : Host.Outcome State Fault Refusal :=
  onChip (fun _ c => if spiOn c then spiStatus c else c) s

end Sys2Proof.Machine
end

