-- ==== Sys2Proof/Machine/CmdLeg.lean ====
section
/-! DEFINITION. The commands of the converter legs, the sensing inputs, the comparators and Step Catch (03). -/

namespace Sys2Proof.Machine

/-- PWM_PERIOD_BOUNDARY (R61, R454), once the period has passed: the commits that wait for the boundary apply first, the front-end legs may come free
(R142), the new period starts, and fast inputs and slots are triggered (R67, R96). `half`: the point in the middle of the
period, which only triggers. -/
def boundary (t : Time) (nv : Nv) (k : Nat) (half : Bool) (c : Chip) : Chip :=
  let g := group c k
  if !groupOn c k || decide (t.tick < g.periodAt + g.per / (if half then 32 else 16)) then c
  else if half then finPoints t k true (pwmTriggers t k true c)
  else
    let c := periodBoundary t k (feRelease k (boundaryCommits t nv k c))
    if groupOn c k then finPoints t k false (pwmTriggers t k false c) else c

@[inherit_doc boundary] def execPwmPeriodBoundary (k : Fin 6) (half : Bool) (s : State) : Host.Outcome State Fault Refusal :=
  onChipNv (fun t nv c => (nv, if pageAlive c 0x0B then boundary t nv k.val half c else c)) s

/-- SHED_ANNOUNCE_TIMEOUT (R80). -/
def execShedAnnounceTimeout (k : Fin 6) (s : State) : Host.Outcome State Fault Refusal :=
  onPage 0x0B (fun t c => shedTimeout t k.val c) s

/-- LEG_FORCE_OFF (R66): a write of LEG_OUTCTL. -/
def execLegForceOff (v : Word) (s : State) : Host.Outcome State Fault Refusal :=
  onChipNv (fun t nv c => hostWrite t .pcie 0xB300 v.toNat nv c) s

/-- FAST_CONVERSION_START (R67). -/
def execFastConversionStart (n : Fin 16) (s : State) : Host.Outcome State Fault Refusal :=
  onPage 0x0C (fun t c => finStart t n.val c) s

/-- A reading of an input code reaches the blocks that use it (R123, R137, R200, R264). -/
def readingDelivered (t : Time) (code : Nat) (c : Chip) : Chip :=
  let c := if busOn c then sharingWatch t (takeoverCheck t (showMeasured (busReading t code c))) else c
  let c := lineReading t code (batReading t code c)
  if cptOn c then cptRefresh t c else c

/-- FAST_READING_READY (R67) with its raw code: the reading passes to CEN and to the blocks that use it. -/
def fastReading (t : Time) (n : Nat) (raw : Int) (c : Chip) : Chip :=
  match finReady t n raw c with
  | (c, false) => c
  | (c, true) => readyTriggers t n (readingDelivered t n c)

@[inherit_doc fastReading] def execFastReadingReady (n : Fin 16) (raw : BitVec 14) (s : State) : Host.Outcome State Fault Refusal :=
  onPage 0x0C (fun t c => fastReading t n.val raw.toInt c) s

/-- SLOW_CONVERSION (R69) of a converter with its code, at the end of a slot of 1 µs: a completed reading passes to the blocks that use it. -/
def slowReading (t : Time) (j code : Nat) (c : Chip) : Chip :=
  if !periodOver t 400 (Tab.get {} c.convs j).at_ then c else
  let c' := slowConversion t j code c
  match (nextSlow j c).2 with
  | some n =>
    if c'.rd (F.AFE_SINn_DATA_SEQ n) = c.rd (F.AFE_SINn_DATA_SEQ n) then c'
    else readingDelivered t (0x40 + n) (readingDelivered t (0x20 + n) c')
  | none => c'

@[inherit_doc slowReading] def execSlowConversion (j : Fin 4) (code : BitVec 16) (s : State) : Host.Outcome State Fault Refusal :=
  onPage 0x0C (fun t c => slowReading t j.val code.toNat c) s

/-- OPEN_WIRE_TEST (R70) of an input whose code moved by `moved`. -/
def execOpenWireTest (fast : Bool) (n : Fin 32) (moved : BitVec 16) (s : State) : Host.Outcome State Fault Refusal :=
  onPage 0x0C (fun t c => if fast && decide (16 ≤ n.val) then c else openWireTest t fast n.val moved.toNat c) s

/-- COMPARATOR_ASSERT (R71–R74, R76), with what stands at the comparator's input. -/
def execComparatorAssert (e : CmpSeen) (s : State) : Host.Outcome State Fault Refusal :=
  onPage 0x0D (fun t c => if seenAssert c e then cmpAssert t e.n.val c else c) s

/-- COMPARATOR_RELEASE (R71), with what stands at the comparator's input. -/
def execComparatorRelease (e : CmpSeen) (s : State) : Host.Outcome State Fault Refusal :=
  onPage 0x0D (fun t c => if seenRelease c e then cmpRelease t e.n.val c else c) s

/-- TRIP_CLEAR (R74): a write of CMP_TRIPCLR. -/
def execTripClear (v : Word) (s : State) : Host.Outcome State Fault Refusal :=
  onChipNv (fun t nv c => hostWrite t .pcie 0xD074 v.toNat nv c) s

/-- HELD_CLEAR_APPLY (R74). -/
def execHeldClearApply (n : Fin 24) (s : State) : Host.Outcome State Fault Refusal :=
  onPage 0x0D (fun t c => heldClearApply t n.val c) s

/-- CHATTER_DETECTED (R74). -/
def execChatterDetected (n : Fin 24) (s : State) : Host.Outcome State Fault Refusal :=
  onPage 0x0D (fun t c => cmpChatter t n.val c) s

/-- STEP_CATCH_FIRE (R77): CEN drops the waiting triggers of the group's slots (R112). -/
def catchFire (t : Time) (k : Nat) (c : Chip) : Chip :=
  let c' := stepCatchFire t k c
  if c'.flag (F.LEG_Gk_STAT_CATCH k) && !c.flag (F.LEG_Gk_STAT_CATCH k) then catchDrops k c' else c'

@[inherit_doc catchFire] def execStepCatchFire (k : Fin 6) (s : State) : Host.Outcome State Fault Refusal :=
  onPage 0x0B (fun t c => catchFire t k.val c) s

/-- STEP_CATCH_END (R78): CEN seeds the group's slots (R111). -/
def catchEnd (t : Time) (k : Nat) (c : Chip) : Chip :=
  let c' := stepCatchEnd t k c
  if c.flag (F.LEG_Gk_STAT_CATCH k) && !c'.flag (F.LEG_Gk_STAT_CATCH k) then catchSeeds k c' else c

@[inherit_doc catchEnd] def execStepCatchEnd (k : Fin 6) (s : State) : Host.Outcome State Fault Refusal :=
  onPage 0x0B (fun t c => catchEnd t k.val c) s

/-- CATCH_HOLDOFF_END (R78). -/
def execCatchHoldoffEnd (k : Fin 6) (s : State) : Host.Outcome State Fault Refusal :=
  onPage 0x0B (fun t c => holdoffEnd t k.val c) s

/-- SHED_FREEZE_END (R78). -/
def execShedFreezeEnd (k : Fin 6) (s : State) : Host.Outcome State Fault Refusal :=
  onPage 0x0B (fun t c => freezeEnd t k.val c) s

/-- PWM_ALIGNMENT_LOST (R85). -/
def execPwmAlignmentLost (s : State) : Host.Outcome State Fault Refusal := onPage 0x0B alignLost s

end Sys2Proof.Machine
end

