-- ==== Sys2Proof/Machine/CmdPar.lean ====
section
/-! DEFINITION. The commands of pair operation (13). -/

namespace Sys2Proof.Machine

/-- A happening in PAR. -/
def parHappens (f : Time → Chip → Chip) : State → Host.Outcome State Fault Refusal := onPage 0x09 f

/-- A happening that SAFE carries without the reference clock (R351, R395). -/
def safeHappens (f : Time → Chip → Chip) : State → Host.Outcome State Fault Refusal :=
  onChip fun t c => if awake c then f t c else c

/-- PAIR_START_LISTEN_END (R357): the ticks for which GUY has read high without a break, 0 where it reads low. -/
def execPairStartListenEnd (highFor : BitVec 32) (s : State) : Host.Outcome State Fault Refusal :=
  parHappens (fun t c => startListenEnd t highFor.toNat c) s

/-- PAIR_IDLE_SEND (R363): whether GUY reads low. -/
def execPairIdleSend (guyLow : Bool) (s : State) : Host.Outcome State Fault Refusal :=
  parHappens (fun t c => idleSend t guyLow c) s

/-- PAIR_IDLE_RECEIVED (R363). -/
def execPairIdleReceived (x : PairIdle) (s : State) : Host.Outcome State Fault Refusal :=
  parHappens (fun t c => idleTaken t x c) s

/-- STAKE_SEND (R354). -/
def execStakeSend (s : State) : Host.Outcome State Fault Refusal := parHappens stakeSend s

/-- STAKE_RECEIVED (R354) with STAKEGEN. -/
def execStakeReceived (gen : BitVec 16) (s : State) : Host.Outcome State Fault Refusal :=
  parHappens (fun t c => stakeReceived t gen.toNat c) s

/-- STAKE_ACK_RECEIVED (R354). -/
def execStakeAckReceived (s : State) : Host.Outcome State Fault Refusal := parHappens stakeAck s

/-- SELF_RENEW (R354). -/
def execSelfRenew (s : State) : Host.Outcome State Fault Refusal := safeHappens selfRenew s

/-- LEASE_LAPSE (R354). -/
def execLeaseLapse (s : State) : Host.Outcome State Fault Refusal := safeHappens leaseLapse s

/-- PARTNER_LEASE_LAPSED (R355). -/
def execPartnerLeaseLapsed (s : State) : Host.Outcome State Fault Refusal := parHappens partnerLapsed s

/-- GUYLINE_CLAIM (R356): the ticks for which GUY has read high without a break, 0 where it reads low. -/
def execGuylineClaim (highFor : BitVec 32) (s : State) : Host.Outcome State Fault Refusal :=
  parHappens (fun t c => guyClaim t highFor.toNat c) s

/-- CLAIM_END (R356). -/
def execClaimEnd (s : State) : Host.Outcome State Fault Refusal := parHappens claimEnd s

/-- LOCKSTEP_MISMATCH (R358, R378). -/
def execLockstepMismatch (s : State) : Host.Outcome State Fault Refusal := safeHappens lockstep s

/-- UNCORRECTABLE_ERROR (R358, R378) in CEN memory (0), context memory (1) or schedule memory (2), and its address. -/
def execUncorrectableError (mem : Fin 3) (addr : Word) (s : State) : Host.Outcome State Fault Refusal :=
  safeHappens (fun t c => uncorrectable t (mem.val + 1) addr.toNat c) s

/-- CORRECTABLE_ERROR_BURST (R378) in CEN (0), context (1), schedule (2) or ring memory (3), and the errors of the second. -/
def execCorrectableErrorBurst (mem : Fin 4) (n : Nat) (s : State) : Host.Outcome State Fault Refusal :=
  safeHappens (fun t c => correctables t (mem.val + 1) n c) s

/-- YIELD_RECEIVED (R360). -/
def execYieldReceived (s : State) : Host.Outcome State Fault Refusal := parHappens yieldReceived s

/-- TAKE_RECEIVED (R360, R361). -/
def execTakeReceived (s : State) : Host.Outcome State Fault Refusal := parHappens takeReceived s

/-- NO_TAKER_TIMEOUT (R360). -/
def execNoTakerTimeout (s : State) : Host.Outcome State Fault Refusal := safeHappens noTaker s

/-- YIELD_COMMAND (R358): PAR_CMD.YIELD. -/
def execYieldCommand (iface : Iface) (s : State) : Host.Outcome State Fault Refusal :=
  onChipNv (fun t nv c => hostWrite t iface 0x9058 2 nv c) s

/-- HANDOVER_COMMAND (R361): PAR_CMD.HANDOVER. -/
def execHandoverCommand (iface : Iface) (s : State) : Host.Outcome State Fault Refusal :=
  onChipNv (fun t nv c => hostWrite t iface 0x9058 1 nv c) s

/-- HANDOVER_OFFER_RECEIVED (R361) with boundary B as a tick of this chip. -/
def execHandoverOfferReceived (b : Nat) (s : State) : Host.Outcome State Fault Refusal :=
  parHappens (fun t c => offerOfStake t b c) s

/-- HANDOVER_BOUNDARY (R361). -/
def execHandoverBoundary (s : State) : Host.Outcome State Fault Refusal := parHappens handoverBoundary s

/-- HANDOVER_ABANDON (R361). -/
def execHandoverAbandon (s : State) : Host.Outcome State Fault Refusal := parHappens handoverAbandon s

/-! ### The mirror (R117, R347, R363, R366, R369) -/

/-- The standby's PWM counters follow: each group's distance in ticks from its last period boundary (R85, R363). -/
def pwmFollow (t : Time) (phases : List (Fin 6 × Nat)) (c : Chip) : Chip :=
  if pairOn c && isStandby c then
    c.forAll phases fun x c => if groupOn c x.1.val then modGroup x.1.val (fun g => { g with periodAt := t.tick - x.2 }) c else c
  else c

/-- ALIGN_RECEIVED (R55, R85, R363) with the active chip's stamp and PWM counters. -/
def execAlignReceived (stamp : Stamp) (phases : List (Fin 6 × Nat)) (s : State) : Host.Outcome State Fault Refusal :=
  parHappens (fun t c => alignReceived stamp (pwmFollow t phases c)) s

/-- APPLIED_RECEIVED (R117): actuator codes and signal words. -/
def execAppliedReceived (vs : List (Byte × Word)) (s : State) : Host.Outcome State Fault Refusal :=
  parHappens (fun _ c => appliedReceived (vs.map fun v => (v.1.toNat, v.2.toInt)) c) s

/-- A frame that is acknowledged has been taken: its lane is up, and the frames sent from now on tell its number (R363). -/
def acknowledge (t : Time) (ty q : Nat) (c : Chip) : Chip := modPar (fun p => { p with rxSeq := q }) (laneUp t (pairLane c ty) c)

/-- An SLFRAME copy on the standby: acknowledged, and in its queue (R366). -/
def copyTaken (t : Time) (n q : Nat) (f : Frame) (c : Chip) : Chip :=
  if mirrors c then
    let c := acknowledge t 0x11 q c
    if segCtl c n then
      modSeg n (fun g =>
        if f.cls = 0 then { g with c0 := if f.ty = 1 then f :: g.c0.filter (·.ty != 1) else (g.c0 ++ [f]).take 8 }
        else { g with front := g.front ++ [f] }) c
    else c
  else c
where
  /-- The chip takes what its partner mirrors. -/
  mirrors (c : Chip) : Bool := pairOn c && pairUp c && isStandby c

/-- SLFRAME_RECEIVED (R366): the segment, the number of the PAIR frame, and the copy. -/
def execSlframeReceived (n : Fin 2) (q : BitVec 16) (f : Frame) (s : State) : Host.Outcome State Fault Refusal :=
  parHappens (fun t c => copyTaken t n.val q.toNat f c) s

/-- MIRROR_RECEIVED, and with `bulk` BULK_RECEIVED, on the standby: acknowledged and taken (R363, R369). -/
def mirrorFrame (bulk : Bool) (q : Nat) (m : MirrorItem) (t : Time) (nv : Nv) (c : Chip) : Nv × Chip :=
  let taken := fun (c : Chip) => mirrorTaken bulk t nv m (acknowledge t (if bulk then 0x13 else 0x10) q c)
  (nv, if pairOn c && pairUp c && !acts c then (if bulk then copyPart t (taken c) else taken c) else c)

@[inherit_doc mirrorFrame] def execMirrorReceived (q : BitVec 16) (m : MirrorItem) (s : State) : Host.Outcome State Fault Refusal :=
  onPageNv 0x09 (mirrorFrame false q.toNat m) s

/-- FIRE_RECEIVED (R347): the entry, its fault message in bits 15:0 and its address. -/
def execFireReceived (q : BitVec 16) (j : Fin 8) (fault : BitVec 16) (addr : Word) (s : State) :
    Host.Outcome State Fault Refusal :=
  parHappens (fun t c =>
    if pairOn c && recOn c then
      let c := acknowledge t 0x12 q.toNat c
      if c.flag F.REC_CTL_PAIRTRIG then fireEntry t j.val fault.toNat addr.toNat c else c
    else c) s

@[inherit_doc mirrorFrame] def execBulkReceived (q : BitVec 16) (m : MirrorItem) (s : State) : Host.Outcome State Fault Refusal :=
  onPageNv 0x09 (mirrorFrame true q.toNat m) s

/-- PAIR_FRAME_RESEND (R363). -/
def execPairFrameResend (s : State) : Host.Outcome State Fault Refusal := parHappens pairResend s

/-- PAIR_LANE_DOWN (R363) of a lane. -/
def execPairLaneDown (lane : Fin 2) (s : State) : Host.Outcome State Fault Refusal :=
  parHappens (fun t c => laneDown t lane.val c) s

/-- RESYNC_COMPLETE (R369). -/
def execResyncComplete (s : State) : Host.Outcome State Fault Refusal := parHappens resyncComplete s

/-- MIRROR_OUTAGE (R367). -/
def execMirrorOutage (s : State) : Host.Outcome State Fault Refusal := parHappens mirrorOutage s

end Sys2Proof.Machine
end

