-- ==== Sys2Proof/Machine/CmdPwr.lean ====
section
/-! DEFINITION. The commands of PWR and AO (18), and of the clock monitor (01). -/

namespace Sys2Proof.Machine

/-! ### Rails, temperature, early warning, clocks -/

/-- RAIL_OUT_OF_WINDOW (R464) of a supply code, at a level; it may be lost, not merely outside its window (R466). -/
def execRailOutOfWindow (code : BitVec 4) (seen : RailSeen) (s : State) : Host.Outcome State Fault Refusal :=
  onPage 4 (fun t c => railOut t code.toNat seen.mv seen.gone c) s

/-- RAIL_EPISODE_END (R464) of a supply code. -/
def execRailEpisodeEnd (code : BitVec 4) (s : State) : Host.Outcome State Fault Refusal :=
  onPage 4 (fun t c => railBack t code.toNat c) s

/-- TEMPERATURE_SAMPLE (R467): the readings of CEN, SUP, ANA and the IO ring in 0.5 °C; `steady`: since the sample
before, none has come within 5 °C of TLIM. -/
def execTemperatureSample (cen sup ana io : BitVec 9) (steady : Bool) (s : State) : Host.Outcome State Fault Refusal :=
  onPage 4 (fun t c => temperature t [cen.toInt, sup.toInt, ana.toInt, io.toInt] steady c) s

/-- EARLY_WARNING (R468). -/
def execEarlyWarning (s : State) : Host.Outcome State Fault Refusal := onPage 4 earlyWarning s

/-- EARLY_WARNING_RECOVERED (R469). -/
def execEarlyWarningRecovered (s : State) : Host.Outcome State Fault Refusal := onPage 4 (fun _ c => warningOver c) s

/-- REFCLK_LOST (R36): the clock monitor stands in SAFE. -/
def execRefclkLost (s : State) : Host.Outcome State Fault Refusal := onChip (fun t c => if awake c then refclkLost t c else c) s

/-- REFCLK_OUT_OF_RANGE (R36). -/
def execRefclkOutOfRange (s : State) : Host.Outcome State Fault Refusal := onChip (fun t c => if awake c then refclkRange t c else c) s

/-- SAFETY_OSCILLATOR_FAULT (R378). -/
def execSafetyOscillatorFault (s : State) : Host.Outcome State Fault Refusal := onPage 8 safetyOsc s

/-! ### Resets -/

/-- POWER_ON_RESET (R470): the rail that fell and its level, or code 0 for a first power-on (R472). -/
def execPowerOnReset (rail : RailLevel) (s : State) : Host.Outcome State Fault Refusal :=
  onChip (fun _ c => powerOnReset rail.code.toNat rail.mv c) s

/-- POWER_ON_RESET_RELEASE (R466), with the VDDIO banks found in class 3.3 V (R464). -/
def execPowerOnResetRelease (banks33 : Byte) (s : State) : Host.Outcome State Fault Refusal :=
  onChip (fun t c => powerOnRelease t banks33.toNat c) s

/-- AO_RESET (R470). -/
def execAoReset (s : State) : Host.Outcome State Fault Refusal := onChip aoReset s

/-- VAO_LOW (R485): VAO as measured, in 10 mV. -/
def execVaoLow (vao : BitVec 9) (s : State) : Host.Outcome State Fault Refusal :=
  onPage 5 (fun t c => vaoLow t vao.toNat c) s

/-- RST_N_ASSERT (R472). -/
def execRstNAssert (s : State) : Host.Outcome State Fault Refusal := onChip rstN s

/-- CHIP_RESET_KEY (R470): the chip-reset key in PWR_RSTCMD. -/
def execChipResetKey (iface : Iface) (s : State) : Host.Outcome State Fault Refusal :=
  onChipNv (fun t nv c => hostWrite t iface 0x4054 0xC5E70001 nv c) s

/-- SUPERVISOR_RESET_KEY (R470): the supervisor-reset key in PWR_RSTCMD. -/
def execSupervisorResetKey (iface : Iface) (s : State) : Host.Outcome State Fault Refusal :=
  onChipNv (fun t nv c => hostWrite t iface 0x4054 0xC5E70002 nv c) s

/-- CHIP_RESET_APPLY (R473). -/
def execChipResetApply (s : State) : Host.Outcome State Fault Refusal := onChip resetApply s

/-- CHIP_RESET_END (R470). -/
def execChipResetEnd (s : State) : Host.Outcome State Fault Refusal := onChip resetEnd s

/-! ### Start-up (R474) -/

/-- BOOT_ROM_COMPLETE (R474): the straps RECOV and PPOS. -/
def execBootRomComplete (recov : Bool) (pos : Fin 2) (s : State) : Host.Outcome State Fault Refusal :=
  onChipNv (fun t nv c => bootDone t recov pos.val nv c) s

/-- IMAGE_CHECKS_COMPLETE (R474): the window of the SUP image (R402), and the default coefficients of the CE image, by slot, set
and offset (R116). -/
def execImageChecksComplete (sopen sclose : BitVec 16) (coefs : List ((Fin 64 × Fin 2 × Fin 1024) × Word)) (s : State) :
    Host.Outcome State Fault Refusal :=
  onChipNv (fun t nv c =>
    let keyed := coefs.map fun x => (2048 * x.1.1.val + 1024 * x.1.2.1.val + x.1.2.2.val, x.2.toNat)
    (nv, imagesDone t sopen.toNat sclose.toNat keyed nv c)) s

/-- The supervisor writes and commits the configuration section, page by page (R417, R474). -/
def configure (t : Time) (sec : ConfigSection) (nv : Nv) (c : Chip) : Nv × Chip :=
  let c := (c.wr F.CAP_NUM_SHELF sec.shelf).wr F.CAP_ID_LO_ID (sec.carId % 2 ^ 32)
  let c := c.wr F.CAP_ID_HI_ID (sec.carId / 2 ^ 32)
  let c := { c with bindings := sec.bindings.foldl (fun m x => Tab.set {} m x.1 x.2) c.bindings }
  (List.range 25).foldl (fun r p =>
    let mine := sec.words.filter fun x => x.1 / 4096 == p
    let r := mine.foldl (fun (r : Nv × Chip) x => writeWord t .pcie r.1 x.1 x.2 r.2) r
    if mine.any fun x => rwsMask x.1 != 0 then (r.1, applyCommit t r.1 p 0 r.2) else r) (nv, c)

/-- CONFIG_COMMIT_COMPLETE (R474): phase 3 begins; a SUP image that carries a configuration section has had it committed. -/
def configDone (t : Time) (sec : ConfigSection) (nv : Nv) (c : Chip) : Nv × Chip :=
  if !awake c || c.rd F.SUP_STAT_PHASE != 2 then (nv, c)
  else
    let r := if c.pwr.sup.any (imgCfg nv) then configure t sec nv c else (nv, c)
    (r.1, phase3 t r.2)

@[inherit_doc configDone] def execConfigCommitComplete (sec : ConfigSection) (s : State) : Host.Outcome State Fault Refusal :=
  onChipNv (fun t nv c => configDone t sec nv c) s

/-! ### Hibernate (R476–R480) -/

/-- HIBERNATE_REQUEST (R476): the hibernate key in PWR_HIB. -/
def execHibernateRequest (iface : Iface) (s : State) : Host.Outcome State Fault Refusal :=
  onChipNv (fun t nv c => hostWrite t iface 0x405C 0xC5E70048 nv c) s

/-- HIBERNATE_ENTRY (R477). -/
def execHibernateEntry (s : State) : Host.Outcome State Fault Refusal := onChip hibEntry s

/-- PSEN_HOLD_END (R477). -/
def execPsenHoldEnd (s : State) : Host.Outcome State Fault Refusal := onChip psenHoldEnd s

/-- WAKE_EVENT (R480): the sources of R479 seen in this tick, by bit of AO_WAKESRC. -/
def execWakeEvent (src : BitVec 7) (s : State) : Host.Outcome State Fault Refusal :=
  onChip (fun t c => wakeEvent t src.toNat c) s

/-- IBAT_COMPARATOR_ASSERT (R218, R479): the input of the battery-current comparator. -/
def execIbatComparatorAssert (seen : IbatSeen) (s : State) : Host.Outcome State Fault Refusal :=
  onChip (fun t c => ibat t seen.mv seen.ms c) s

end Sys2Proof.Machine
end

