-- ==== Sys2Proof/Machine/CmdRec.lean ====
section
/-! DEFINITION. The commands of the rings and the recorder (12). -/

namespace Sys2Proof.Machine

/-- LOST_RECORD_WRITE (R326) of a ring. -/
def execLostRecordWrite (k : Fin 32) (s : State) : Host.Outcome State Fault Refusal :=
  onPage 0x17 (fun t c => lostRecord t k.val c) s

/-- SPILL_DRAIN (R328). -/
def execSpillDrain (s : State) : Host.Outcome State Fault Refusal := onPage 0x18 spillDrain s

/-- SPILL_STALL (R328) of a ring. -/
def execSpillStall (k : Fin 32) (s : State) : Host.Outcome State Fault Refusal :=
  onPage 0x18 (fun t c => spillStall t k.val c) s

/-- RING_PORT_READ (R329): a read of RNG_RPDATA. -/
def execRingPortRead (s : State) : Host.Outcome State Fault Refusal :=
  onChipNv (fun t nv c => (nv, hostReadBack t .pcie 0x1804C nv c)) s

/-- HOST_READ_INDEX_WRITE (R329): a write of RNG_RGk_RD. -/
def execHostReadIndexWrite (k : Fin 32) (v : Word) (s : State) : Host.Outcome State Fault Refusal :=
  onChipNv (fun t nv c => hostWrite t .pcie (0x18118 + 0x20 * k.val) v.toNat nv c) s

/-- RING_CHECKPOINT (R330). -/
def execRingCheckpoint (s : State) : Host.Outcome State Fault Refusal := onPage 0x17 checkpoint s

/-- WAVE_SAMPLE (R332) of a stream. -/
def execWaveSample (m : Fin 16) (s : State) : Host.Outcome State Fault Refusal :=
  onPage 0x17 (fun t c => waveSample t m.val c) s

/-- CTXSTATE_PERIOD (R333). -/
def execCtxstatePeriod (s : State) : Host.Outcome State Fault Refusal := onPage 0x17 ctxStateRecords s

/-- A write of a word of the REC page. -/
def recCmd (o v : Nat) : State → Host.Outcome State Fault Refusal :=
  onChipNv fun t nv c => hostWrite t .pcie (0x17000 + o) v nv c

/-- NOTE_WRITE (R334): a write of REC_NOTEOP with LEN. -/
def execNoteWrite (len : Fin 8) (s : State) : Host.Outcome State Fault Refusal := recCmd 0xC4 len.val s

/-- HOST_TRIGGER_FIRE (R336): a write of REC_HTRIG. -/
def execHostTriggerFire (fire : Byte) (s : State) : Host.Outcome State Fault Refusal := recCmd 0xA8 fire.toNat s

/-- WINDOW_END (R337, R339) of the window with a tag. -/
def execWindowEnd (tag : Nat) (s : State) : Host.Outcome State Fault Refusal :=
  onPage 0x17 (fun t c => windowReady t tag c) s

/-- SEAL_START (R339). -/
def execSealStart (s : State) : Host.Outcome State Fault Refusal := onPage 0x17 sealStart s

/-- FLASH_PAGE_PROGRAMMED (R340). -/
def execFlashPageProgrammed (s : State) : Host.Outcome State Fault Refusal := onPageNv 0x17 programEnds s

/-- FLASH_ERASE_DONE (R340). -/
def execFlashEraseDone (s : State) : Host.Outcome State Fault Refusal := onPageNv 0x17 eraseEnds s

/-- FLASH_OPERATION_TIMEOUT (R340). -/
def execFlashOperationTimeout (s : State) : Host.Outcome State Fault Refusal := onPage 0x17 flashTimeout s

/-- RESERVE_ERASE (R340). -/
def execReserveErase (s : State) : Host.Outcome State Fault Refusal := onPage 0x17 reserveErase s

/-- AREA_SCAN (R343). -/
def execAreaScan (s : State) : Host.Outcome State Fault Refusal := onPageNv 0x17 (fun t nv c => (nv, areaScan t nv c)) s

/-- AREA_FORMAT (R346, R350): a write of REC_FOP with FORMAT. -/
def execAreaFormat (s : State) : Host.Outcome State Fault Refusal := recCmd 0xA4 1 s

/-- FLASH_READ (R343): a read of REC_FRD. -/
def execFlashRead (s : State) : Host.Outcome State Fault Refusal :=
  onChipNv (fun t nv c => (nv, hostReadBack t .pcie 0x170B0 nv c)) s

end Sys2Proof.Machine
end

