-- ==== Sys2Proof/Machine/CmdSlk.lean ====
section
/-! DEFINITION. The commands of the shelf link, PMBus and the partner contexts (11). -/

namespace Sys2Proof.Machine

/-- A happening on the shelf link. -/
def slHappens (f : Time → Chip → Chip) : State → Host.Outcome State Fault Refusal := onPage 0x14 f

/-- A frame received on the shelf link (R293, R298). -/
def slReceives (f : RxFrame) (g : Time → RxFrame → Chip → Chip) : State → Host.Outcome State Fault Refusal :=
  slHappens fun t c => g t (routed (slActive t f.seg c) f) (slActive t f.seg c)

/-! ### Sending (R295, R300, R366) -/

/-- The pair runs in Mirror mode (R364). -/
def mirrorMode (c : Chip) : Bool := pairOn c && c.flag F.PAR_CTL_MODE && pairUp c

/-- A frame as an SLFRAME copy carries it: segment, header and payload (R363). -/
def slCopy (n : Nat) (f : Frame) : List Nat := [n, f.cls, f.ty, f.ctx, f.seq, f.bc.toNat, f.node] ++ f.words

/-- A frame whose copy has been acknowledged, or whose partner is gone, goes back to the head of its queue (R366). -/
def copyDone (n : Nat) (c : Chip) : Chip :=
  match (seg c n).copy with
  | some (f, q) =>
    if mirrorMode c && c.par.unacked.any fun x => x.seq == q then c
    else modSeg n (fun g => { g with copy := none, front := { f with copied := true } :: g.front }) c
  | none => c

/-- FRAME_TRANSMIT_START (R300). In Mirror mode the acting chip mirrors a frame of C0 as it starts, and starts one of C1–C3 only
after the standby has acknowledged its copy; a standby sends in Mirror mode only (R366). -/
def frameStart (t : Time) (n : Nat) (c : Chip) : Chip :=
  if isStandby c then (if mirrorMode c then (txStart t n c).1 else c)
  else
    let c := pollNext t n (copyDone n c)
    if (seg c n).copy.isSome && (seg c n).c0.isEmpty then c
    else match txStart t n c with
      | (c', none) => c'
      | (c', some f) =>
        if !(mirrorMode c' && segCtl c' n) || f.copied then c'
        else if f.cls = 0 then pairSend t 0x11 (slCopy n f) c'
        else pairSend t 0x11 (slCopy n f) (modSeg n (fun g => { g with sending := none, copy := some (f, c'.par.seq) }) c')

/-- FRAME_TRANSMIT_START of a segment. -/
def execFrameTransmitStart (n : Fin 2) (s : State) : Host.Outcome State Fault Refusal :=
  slHappens (fun t c => frameStart t n.val c) s

/-- FRAME_TRANSMIT_DONE (R295). -/
def execFrameTransmitDone (n : Fin 2) (s : State) : Host.Outcome State Fault Refusal :=
  slHappens (fun t c => txDone t n.val c) s

/-- C0_FRAME_CUT (R300). -/
def execC0FrameCut (n : Fin 2) (s : State) : Host.Outcome State Fault Refusal :=
  slHappens (fun t c => c0Cut t n.val c) s

/-! ### Polls, joining, leaving (R302–R306) -/

/-- POLL_DUE (R302) of a context. -/
def execPollDue (i : Byte) (s : State) : Host.Outcome State Fault Refusal :=
  slHappens (fun t c => if isStandby c then c else pollDue t i.toNat c) s

/-- GRANT_END (R302). -/
def execGrantEnd (n : Fin 2) (s : State) : Host.Outcome State Fault Refusal :=
  slHappens (fun t c => if isStandby c then c else grantEnd t n.val c) s

/-- BUS, BAT and CAP follow a context that has begun to linger (R136, R154, R209, R306). -/
def partnerLeft (t : Time) (i : Nat) (c : Chip) : Chip := capDetached t i (batDetach (ctxModule (ctx c i)) (ctxToBus t i false c))

/-- MISSED_POLL (R302, R306). -/
def pollMissed (t : Time) (n : Nat) (c : Chip) : Chip :=
  match missedPoll t n c with
  | (c, some i) => partnerLeft t i c
  | (c, none) => c

@[inherit_doc pollMissed] def execMissedPoll (n : Fin 2) (s : State) : Host.Outcome State Fault Refusal :=
  slHappens (fun t c => pollMissed t n.val c) s

/-- DISCOVER_PERIOD (R304). -/
def execDiscoverPeriod (n : Fin 2) (s : State) : Host.Outcome State Fault Refusal :=
  slHappens (fun t c => discover t n.val c) s

/-- HELLO_RECEIVED (R304, R305); one of SL1 is judged at the end of its tick, after any of SL0 (R317). -/
def execHelloReceived (f : RxFrame) (s : State) : Host.Outcome State Fault Refusal :=
  slReceives f (fun t f c => if f.seg = 1 then modSeg 1 (fun g => { g with hellos := g.hellos ++ [f] }) c else helloTaken t f c) s

/-- An accepted frame and what it does for its sender's context. -/
def taken (r : Chip × Option Nat) (g : Nat → Chip → Chip) : Chip :=
  match r with
  | (c, some i) => g i c
  | (c, none) => c

/-- The payload of a REPORT as a little-endian number (R308). -/
def payload (ws : List Nat) : Nat := ws.foldr (fun w n => w % 2 ^ 32 + 2 ^ 32 * n) 0

/-- A report of context `i` serves its slot, BUS, BAT and CAP (R128, R133, R157, R201, R308). -/
def reportTaken (t : Time) (f : RxFrame) (i : Nat) (c : Chip) : Chip :=
  let c := modCtx i (fun x => { x with lastrep := payload f.words, capab := f.words.getD 3 0 / 65536 % 65536 }) c
  let c := batReport t i f.evt (ctxToBus t i true c)
  if capOn c then capFromCtx i c else c

/-- REPORT_RECEIVE (R308). -/
def execReportReceive (f : RxFrame) (s : State) : Host.Outcome State Fault Refusal :=
  slReceives f (fun t f c =>
    taken (receive t f 1 0x21 (f.words.length == 4 || f.words.length == 6) true false c) (reportTaken t f)) s

/-- ELEMREP_RECEIVED (R308). -/
def execElemrepReceived (f : RxFrame) (s : State) : Host.Outcome State Fault Refusal :=
  slReceives f (fun t f c =>
    taken (receive t f 3 0x22 (decide (1 ≤ f.words.length) && decide (f.words.length ≤ 63)) true false c) fun i c =>
      if capOn c then capElements i f.words c else c) s

/-- IDLE_FRAME_RECEIVED (R297). -/
def execIdleFrameReceived (f : RxFrame) (s : State) : Host.Outcome State Fault Refusal :=
  slReceives f (fun t f c => idleReceived t f c) s

/-- LEAVE_RECEIVED (R306). -/
def execLeaveReceived (f : RxFrame) (s : State) : Host.Outcome State Fault Refusal :=
  slReceives f (fun t f c => taken (receive t f 1 0x24 f.words.isEmpty true false c) (ctxLeaves t)) s

/-- SL_INTENT_RECEIVED (R162, R297): the objects of an INTENT message (R250). -/
def execSlIntentReceived (f : RxFrame) (s : State) : Host.Outcome State Fault Refusal :=
  slReceives f (fun t f c => taken (receive t f 2 0x33 (f.words.length == 4) true true c) fun _ c =>
    loadIntent t 1 (f.words.getD 0 0) (toInt 32 (f.words.getD 1 0))
      (stampOfNs t c (f.words.getD 2 0 + 2 ^ 32 * f.words.getD 3 0)) c) s

/-- GAPFWD_RECEIVED (R285): the objects of a GAP message. -/
def execGapfwdReceived (f : RxFrame) (s : State) : Host.Outcome State Fault Refusal :=
  slReceives f (fun t f c => taken (receive t f 2 0x34 (f.words.length == 4) true true c) fun _ c => gapMessage t none f.words c) s

/-- HOSTMSG_RECEIVED (R442). -/
def execHostmsgReceived (f : RxFrame) (s : State) : Host.Outcome State Fault Refusal :=
  slReceives f (fun t f c => hostMsgReceived t f c) s

/-! ### Partner mode (R309) -/

/-- The current of the shelf into the bus in 10 mA (R23): the sum over its modules: those of the partners from their reports, the
groups as BUS measures them, less what the channels and the POL stages draw. -/
def shelfCurrent (c : Chip) : Int :=
  let sum := fun (l : List Int) => l.foldl (· + ·) 0
  let partners := (List.range 256).map fun i =>
    let x := ctx c i
    if x.state = ctxACTIVE ∧ x.path = 1 then 10 * toInt 16 (x.lastrep / 2 ^ 80) else 0
  let groups := (List.range 8).map fun i =>
    if srcKind c i = 0 ∨ srcKind c i = 4 then 0 else divEven (((measured c i).getD 0) * (c.rd F.BUS_BASE_IBASE * 10 : Nat)) (2 ^ 20)
  let drawn := (List.range 16).map (fun n => (c.rd (F.EFU_CHn_MEAS_I n) : Int))
    ++ (List.range 8).map (fun k => if c.flag (F.PMB_DEVk_STAT_PRES k) then (c.rd (F.PMB_DEVk_VI_IOUT k) : Int) else 0)
  sum partners + sum groups - sum drawn

/-- The REPORT of this shelf, c.s.63.1023 (R23, R308, R309): its stamp, whether BUS is in droop, the bus voltage, the current into
the bus and the power drawn. What the manual gives no rule for at a shelf is free: FLT, SHED and DERATE, CAPAB, and V without a
reading. -/
def ownReportWords (t : Time) (n : Nat) (c : Chip) : List Nat :=
  let u := Config.unstated c.free
  let v := match busVolts c with | some x => ofInt 16 (clampI 0 65535 (divEven x (2 ^ 20))) | none => u % 2 ^ 16
  let st := reportStamp t n c
  [st.cycle, st.angle + 2 ^ 16 * (u / 2 ^ 16 % 4) + 2 ^ 18 * (inDroop c).toNat + 2 ^ 19 * (u / 2 ^ 18 % 2),
   v + 2 ^ 16 * ofInt 16 (clampI (-32768) 32767 (divEven (shelfCurrent c) 10)),
   ofInt 16 (clampI (-32768) 32767 (tens (shelfPower c))) + 2 ^ 16 * (u / 2 ^ 35 % 2 ^ 16)]

/-- POLL_RECEIVED (R302, R309). -/
def execPollReceived (f : RxFrame) (s : State) : Host.Outcome State Fault Refusal :=
  slReceives f (fun t f c => tickFree (pollReceived t f (ownReportWords t f.seg) c)) s

/-- ASSIGN_RECEIVED (R309) from a controller with an identity; the registry follows the context (R170). -/
def assigned (t : Time) (f : RxFrame) (ctlId : Nat) (c : Chip) : Chip :=
  let was := (seg c f.seg).ctl
  let c := assignReceived t f ctlId (reclaimDue t ctlId c)
  if (seg c f.seg).ctl = was then c else match (seg c f.seg).ctl with | some i => regAttach t i c | none => c

@[inherit_doc assigned] def execAssignReceived (f : RxFrame) (ctlId : BitVec 64) (s : State) :
    Host.Outcome State Fault Refusal :=
  slReceives f (fun t f c => assigned t f ctlId.toNat c) s

/-- DISCOVER_RECEIVED (R304, R309). -/
def execDiscoverReceived (f : RxFrame) (s : State) : Host.Outcome State Fault Refusal :=
  slReceives f (fun t f c => discoverReceived t f c) s

/-- TIME_RECEIVED (R307). -/
def execTimeReceived (f : RxFrame) (s : State) : Host.Outcome State Fault Refusal :=
  slReceives f (fun t f c => timeReceived t f c) s

/-- FORGET_RECEIVED (R308): the controller's context lingers, and BUS and BAT follow. -/
def forgotten (t : Time) (f : RxFrame) (c : Chip) : Chip :=
  match (seg c f.seg).ctl with
  | none => forgetReceived t f c
  | some i =>
    let c := forgetReceived t f c
    if (seg c f.seg).ctl.isNone then partnerLeft t i c else c

@[inherit_doc forgotten] def execForgetReceived (f : RxFrame) (s : State) : Host.Outcome State Fault Refusal :=
  slReceives f (fun t f c => forgotten t f c) s

/-- SEGMENT_DOWN (R306): the set-point channels of the segment enter droop (R132). -/
def segmentDown (t : Time) (n : Nat) (dark : Bool) (c : Chip) : Chip :=
  let c' := segDown t n dark c
  if c'.flag (F.SLK_SEGn_STAT_DOWN n) && !c.flag (F.SLK_SEGn_STAT_DOWN n) then segDroop t n c' else c'

@[inherit_doc segmentDown] def execSegmentDown (g : SegSeen) (s : State) : Host.Outcome State Fault Refusal :=
  slHappens (fun t c => segmentDown t g.n.val g.dark c) s

/-- TIME_FRAME_PERIOD (R307). -/
def execTimeFramePeriod (n : Fin 2) (s : State) : Host.Outcome State Fault Refusal :=
  slHappens (fun t c => timeFrame t n.val c) s

/-- CONTROLLER_LOST (R309). -/
def execControllerLost (n : Fin 2) (s : State) : Host.Outcome State Fault Refusal :=
  slHappens (fun t c => controllerLost t n.val c) s

/-! ### PMBus (R310–R312) -/

/-- PMB_POLL_CYCLE (R311) of an entry. -/
def execPmbPollCycle (k : Fin 8) (s : State) : Host.Outcome State Fault Refusal :=
  onPage 0x15 (fun t c => pmbPollCycle t k.val c) s

/-- What a transaction of a device entry does for the other blocks: a context that comes enters the registry (R170), one that
leaves reaches BUS and BAT, and the power read back feeds CAP (R157). -/
def pmbEffects (t : Time) (x : Option Xact) (was c : Chip) : Chip :=
  match x.bind Xact.dev with
  | none => c
  | some k =>
    match devCtx was k, devCtx c k with
    | none, some i => regAttach t i c
    | some i, none => partnerLeft t i c
    | some _, some i =>
      if capOn c && (x.map Xact.last).getD false then
        capFeed (ctxModule (ctx c i)) 1023 (((c.rd (F.PMB_DEVk_P_POUT k) : Nat) : Int) * 10000) c
      else c
    | none, none => c

/-- The end of the second complete cycle asks for a context: slots whose linger time ends are reclaimed first (R311, R317). -/
def pmbReclaims (t : Time) (c : Chip) : Chip :=
  match c.xacts.head? with
  | some ⟨some k, _, _, _, _, _, true⟩ =>
    if !c.flag (F.PMB_DEVk_STAT_PRES k) && decide (1 ≤ (pmbDev c k).okRun) then reclaimDue t (pmbIdentity c k) c else c
  | _ => c

/-- PMB_TRANSACTION_DONE (R310, R311): how the device has answered, and the data read. -/
def execPmbTransactionDone (reply : PmbReply) (data : BitVec 16) (s : State) : Host.Outcome State Fault Refusal :=
  onPage 0x15 (fun t c => pmbEffects t c.xacts.head? c (pmbDone t reply data.toNat (pmbReclaims t c))) s

/-- PMB_TRANSACTION_TIMEOUT (R310): whether SDA stays low after the abort. -/
def execPmbTransactionTimeout (sdaLow : Bool) (s : State) : Host.Outcome State Fault Refusal :=
  onPage 0x15 (fun t c => pmbEffects t c.xacts.head? c (pmbTimeout t sdaLow c)) s

/-- PMB_HOST_TRANSACTION (R311): a write of PMB_HCMD with GO. -/
def execPmbHostTransaction (addr : BitVec 7) (code : Byte) (op : Fin 8) (pec : Bool) (s : State) :
    Host.Outcome State Fault Refusal :=
  onChipNv (fun t nv c => hostWrite t .pcie 0x15044
    (2 ^ 31 + 2 ^ 19 * pec.toNat + 2 ^ 16 * op.val + 2 ^ 8 * code.toNat + addr.toNat) nv c) s

/-! ### Contexts (R313–R316) -/

/-- JOIN_TIMEOUT (R313), after the tick in which JOINTO ends, in which a valid frame still makes the context ACTIVE (R317): the slot
returns to FREE without linger, and its entries are cleared. -/
def joinEnds (t : Time) (i : Nat) (c : Chip) : Chip :=
  let x := ctx c i
  if x.state = ctxJOINING ∧ x.tEnd < t.tick then entryClear (ctxModule x) (segLoad (ctxSeg x) (joinTimeout t i (capReclaimed i (unassignOf i c)))) else c

@[inherit_doc joinEnds] def execJoinTimeout (i : Byte) (s : State) : Host.Outcome State Fault Refusal :=
  onPage 0x16 (fun t c => joinEnds t i.toNat c) s

/-- LINGER_END (R306, R314), after the tick in which the linger time ends, in which the partner may still reattach (R317). -/
def execLingerEnd (i : Byte) (s : State) : Host.Outcome State Fault Refusal :=
  onPage 0x16 (fun t c => if (ctx c i.toNat).tEnd < t.tick then lingerEnds t i.toNat c else c) s

/-- CONTEXT_FORGET (R316): a write of CTX_FORGET with GO. -/
def execContextForget (i : Byte) (s : State) : Host.Outcome State Fault Refusal :=
  onChipNv (fun t nv c => hostWrite t .pcie 0x16064 (2 ^ 31 + i.toNat) nv c) s

/-- CONTEXT_SLOT_READ (R316): a read of CTX_SDATA. -/
def execContextSlotRead (s : State) : Host.Outcome State Fault Refusal :=
  onChipNv (fun t nv c => (nv, hostReadBack t .pcie 0x16058 nv c)) s

end Sys2Proof.Machine
end

