-- ==== Sys2Proof/Machine/CmdUpd.lean ====
section
/-! DEFINITION. The commands of the firmware update (16). -/

namespace Sys2Proof.Machine

/-- A write of UPD_OP: OP and TGT (R434). -/
def updCmd (iface : Iface) (op tgt : Nat) : State → Host.Outcome State Fault Refusal :=
  onChipNv fun t nv c => hostWrite t iface 0x604C (op + 2 ^ 8 * tgt) nv c

/-- UPDATE_START (R421) with the KIND in TGT. -/
def execUpdateStart (iface : Iface) (kind : Fin 4) (s : State) : Host.Outcome State Fault Refusal := updCmd iface 1 kind.val s

/-- BANK_ERASE_DONE (R421), well or with an error of the flash (R422). -/
def execBankEraseDone (ok : Bool) (s : State) : Host.Outcome State Fault Refusal :=
  onPageNv 0x06 (fun t nv c => bankErased t ok nv c) s

/-- BLOCK_COMMIT (R422): UPD_BOP.COMMIT. -/
def execBlockCommit (iface : Iface) (s : State) : Host.Outcome State Fault Refusal :=
  onChipNv (fun t nv c => hostWrite t iface 0x6064 1 nv c) s

/-- BLOCK_PROGRAMMED (R423), well or with an error of the flash (R422). -/
def execBlockProgrammed (ok : Bool) (s : State) : Host.Outcome State Fault Refusal :=
  onPageNv 0x06 (fun t nv c => blockProgrammed t ok nv c) s

/-- UPDATE_FINISH (R421). -/
def execUpdateFinish (iface : Iface) (s : State) : Host.Outcome State Fault Refusal := updCmd iface 2 0 s

/-- VERIFICATION_DONE (R421). -/
def execVerificationDone (s : State) : Host.Outcome State Fault Refusal := onPageNv 0x06 verified s

/-- UPDATE_ABORT (R421). -/
def execUpdateAbort (iface : Iface) (s : State) : Host.Outcome State Fault Refusal := updCmd iface 3 0 s

/-- UPDATE_ACTIVATE (R424) of the banks in TGT. -/
def execUpdateActivate (iface : Iface) (tgt : BitVec 4) (s : State) : Host.Outcome State Fault Refusal :=
  updCmd iface 4 tgt.toNat s

/-- UPDATE_CONFIRM (R427). -/
def execUpdateConfirm (iface : Iface) (s : State) : Host.Outcome State Fault Refusal := updCmd iface 5 0 s

/-- AUTO_CONFIRM (R427). -/
def execAutoConfirm (s : State) : Host.Outcome State Fault Refusal := onPage 0x06 autoConfirm s

/-- OWNER_LOCK_WRITE (R429): a write of UPD_LOCK. -/
def execOwnerLockWrite (iface : Iface) (code : Word) (s : State) : Host.Outcome State Fault Refusal :=
  onChipNv (fun t nv c => hostWrite t iface 0x6048 code.toNat nv c) s

/-- MOTION_CHANGE (R430) to a level, held for so long. -/
def execMotionChange (edge : MotionEdge) (s : State) : Host.Outcome State Fault Refusal :=
  onPage 0x06 (fun t c => motionChange t edge.level edge.ms c) s

/-- MOTION_STUCK (R430). -/
def execMotionStuck (s : State) : Host.Outcome State Fault Refusal := onPage 0x06 motionStuck s

/-- MOTION_CHATTER_END (R430). -/
def execMotionChatterEnd (s : State) : Host.Outcome State Fault Refusal := onPage 0x06 motionQuiet s

end Sys2Proof.Machine
end

