-- ==== Sys2Proof/Machine/Dispatch.lean ====
section
/-! DEFINITION. The meaning of each command: one arm per constructor. -/

namespace Sys2Proof.Machine

/-- The effect of a command on everything but the queue of waiting commands. -/
def exec (i : Instr) (s : State) : Host.Outcome State Fault Refusal :=
  match i with
  | .registerWrite iface off v whole => Sys2Proof.Machine.execRegisterWrite iface off v whole s
  | .rcRegisterRead iface off => Sys2Proof.Machine.execRcRegisterRead iface off s
  | .pageUnlock iface p v => Sys2Proof.Machine.execPageUnlock iface p v s
  | .pageUnlockTimeout iface p => Sys2Proof.Machine.execPageUnlockTimeout iface p s
  | .pageLock iface p => Sys2Proof.Machine.execPageLock iface p s
  | .pageBlockReset iface p => Sys2Proof.Machine.execPageBlockReset iface p s
  | .blockLogicHold iface p => Sys2Proof.Machine.execBlockLogicHold iface p s
  | .blockLogicRelease iface p => Sys2Proof.Machine.execBlockLogicRelease iface p s
  | .commitImmediate iface p => Sys2Proof.Machine.execCommitImmediate iface p s
  | .commitAtBoundary iface p k => Sys2Proof.Machine.execCommitAtBoundary iface p k s
  | .commitAtAngle iface p angle cyc => Sys2Proof.Machine.execCommitAtAngle iface p angle cyc s
  | .pendingCommitApply p => Sys2Proof.Machine.execPendingCommitApply p s
  | .slowConversion j code => Sys2Proof.Machine.execSlowConversion j code s
  | .lockAcquired => Sys2Proof.Machine.execLockAcquired s
  | .unlockDeclared => Sys2Proof.Machine.execUnlockDeclared s
  | .supplyLossDeclared => Sys2Proof.Machine.execSupplyLossDeclared s
  | .supplyPresent => Sys2Proof.Machine.execSupplyPresent s
  | .outOfBand reversed => Sys2Proof.Machine.execOutOfBand reversed s
  | .dcDetected => Sys2Proof.Machine.execDcDetected s
  | .pauseEnd => Sys2Proof.Machine.execPauseEnd s
  | .holdoverExpired => Sys2Proof.Machine.execHoldoverExpired s
  | .plannedHoldoverStart => Sys2Proof.Machine.execPlannedHoldoverStart s
  | .plannedWindowEnd => Sys2Proof.Machine.execPlannedWindowEnd s
  | .driftUpdate => Sys2Proof.Machine.execDriftUpdate s
  | .cycleStart => Sys2Proof.Machine.execCycleStart s
  | .schedNone k => Sys2Proof.Machine.execSchedNone k s
  | .schedTriggerSlot k => Sys2Proof.Machine.execSchedTriggerSlot k s
  | .schedStartConversion k => Sys2Proof.Machine.execSchedStartConversion k s
  | .schedDropShedPhase k => Sys2Proof.Machine.execSchedDropShedPhase k s
  | .schedAddPhases k => Sys2Proof.Machine.execSchedAddPhases k s
  | .schedEfuseOn k => Sys2Proof.Machine.execSchedEfuseOn k s
  | .schedEfuseOff k => Sys2Proof.Machine.execSchedEfuseOff k s
  | .schedReleaseFrames k => Sys2Proof.Machine.execSchedReleaseFrames k s
  | .schedRecorderMarker k => Sys2Proof.Machine.execSchedRecorderMarker k s
  | .schedHostEvent k => Sys2Proof.Machine.execSchedHostEvent k s
  | .bankCopyDone => Sys2Proof.Machine.execBankCopyDone s
  | .scheduleReadEntry auto => Sys2Proof.Machine.execScheduleReadEntry auto s
  | .scheduleWriteEntry auto => Sys2Proof.Machine.execScheduleWriteEntry auto s
  | .scheduleClearBank auto => Sys2Proof.Machine.execScheduleClearBank auto s
  | .angleNowRead => Sys2Proof.Machine.execAngleNowRead s
  | .nsTimeStep hi => Sys2Proof.Machine.execNsTimeStep hi s
  | .nsRateAdjust v => Sys2Proof.Machine.execNsRateAdjust v s
  | .pwmPeriodBoundary k half => Sys2Proof.Machine.execPwmPeriodBoundary k half s
  | .shedAnnounceTimeout k => Sys2Proof.Machine.execShedAnnounceTimeout k s
  | .legForceOff v => Sys2Proof.Machine.execLegForceOff v s
  | .fastConversionStart n => Sys2Proof.Machine.execFastConversionStart n s
  | .fastReadingReady n raw => Sys2Proof.Machine.execFastReadingReady n raw s
  | .openWireTest fast n moved => Sys2Proof.Machine.execOpenWireTest fast n moved s
  | .comparatorAssert e => Sys2Proof.Machine.execComparatorAssert e s
  | .comparatorRelease e => Sys2Proof.Machine.execComparatorRelease e s
  | .tripClear v => Sys2Proof.Machine.execTripClear v s
  | .heldClearApply n => Sys2Proof.Machine.execHeldClearApply n s
  | .chatterDetected n => Sys2Proof.Machine.execChatterDetected n s
  | .stepCatchFire k => Sys2Proof.Machine.execStepCatchFire k s
  | .stepCatchEnd k => Sys2Proof.Machine.execStepCatchEnd k s
  | .catchHoldoffEnd k => Sys2Proof.Machine.execCatchHoldoffEnd k s
  | .shedFreezeEnd k => Sys2Proof.Machine.execShedFreezeEnd k s
  | .pwmAlignmentLost => Sys2Proof.Machine.execPwmAlignmentLost s
  | .cenHostTrigger v => Sys2Proof.Machine.execCenHostTrigger v s
  | .deferredHostTrigger sl => Sys2Proof.Machine.execDeferredHostTrigger sl s
  | .cenIteration => Sys2Proof.Machine.execCenIteration s
  | .seedRequest v => Sys2Proof.Machine.execSeedRequest v s
  | .coefficientWrite v => Sys2Proof.Machine.execCoefficientWrite v s
  | .coefficientRead => Sys2Proof.Machine.execCoefficientRead s
  | .busUndervoltage => Sys2Proof.Machine.execBusUndervoltage s
  | .busOvervoltage => Sys2Proof.Machine.execBusOvervoltage s
  | .demandUnmet => Sys2Proof.Machine.execDemandUnmet s
  | .sharingError k => Sys2Proof.Machine.execSharingError k s
  | .setpointSend => Sys2Proof.Machine.execSetpointSend s
  | .channelDroopEnter n => Sys2Proof.Machine.execChannelDroopEnter n s
  | .busDipDetect => Sys2Proof.Machine.execBusDipDetect s
  | .takeoverLate => Sys2Proof.Machine.execTakeoverLate s
  | .noticePrepStart => Sys2Proof.Machine.execNoticePrepStart s
  | .rampStart => Sys2Proof.Machine.execRampStart s
  | .rampEnd => Sys2Proof.Machine.execRampEnd s
  | .lineFactorStep => Sys2Proof.Machine.execLineFactorStep s
  | .returnStart => Sys2Proof.Machine.execReturnStart s
  | .gapNoticePost form id dur => Sys2Proof.Machine.execGapNoticePost form id dur s
  | .gapNoticeCancel id => Sys2Proof.Machine.execGapNoticeCancel id s
  | .capReportPeriod => Sys2Proof.Machine.execCapReportPeriod s
  | .grantReceive f => Sys2Proof.Machine.execGrantReceive f s
  | .capReportReceive f => Sys2Proof.Machine.execCapReportReceive f s
  | .grantEffective level => Sys2Proof.Machine.execGrantEffective level s
  | .grantLost level => Sys2Proof.Machine.execGrantLost level s
  | .overBudget => Sys2Proof.Machine.execOverBudget s
  | .capShedStep => Sys2Proof.Machine.execCapShedStep s
  | .loadIntentPost ns => Sys2Proof.Machine.execLoadIntentPost ns s
  | .electionObjectReceive f => Sys2Proof.Machine.execElectionObjectReceive f s
  | .electionSettle => Sys2Proof.Machine.execElectionSettle s
  | .carHeadFailover => Sys2Proof.Machine.execCarHeadFailover s
  | .registryLookup a => Sys2Proof.Machine.execRegistryLookup a s
  | .registryLookupDone => Sys2Proof.Machine.execRegistryLookupDone s
  | .entryStale a => Sys2Proof.Machine.execEntryStale a s
  | .xinGrantDeliver => Sys2Proof.Machine.execXinGrantDeliver s
  | .xinReportDeliver => Sys2Proof.Machine.execXinReportDeliver s
  | .xinElectionDeliver => Sys2Proof.Machine.execXinElectionDeliver s
  | .efuSenseFrame codes => Sys2Proof.Machine.execEfuSenseFrame codes s
  | .efuEvaluationTick isV gsV => Sys2Proof.Machine.execEfuEvaluationTick isV gsV s
  | .channelEnableCommand v => Sys2Proof.Machine.execChannelEnableCommand v s
  | .damageClear v => Sys2Proof.Machine.execDamageClear v s
  | .gateRiseTimeout n => Sys2Proof.Machine.execGateRiseTimeout n s
  | .gateLostInOn n => Sys2Proof.Machine.execGateLostInOn n s
  | .offStateCurrent n => Sys2Proof.Machine.execOffStateCurrent n s
  | .faultTimerTrip n => Sys2Proof.Machine.execFaultTimerTrip n s
  | .overcurrentTrip n => Sys2Proof.Machine.execOvercurrentTrip n s
  | .shortDuringRamp n => Sys2Proof.Machine.execShortDuringRamp n s
  | .reversalCleared n => Sys2Proof.Machine.execReversalCleared n s
  | .retryWaitEnd n => Sys2Proof.Machine.execRetryWaitEnd n s
  | .retryReload n => Sys2Proof.Machine.execRetryReload n s
  | .powerGoodAssert n => Sys2Proof.Machine.execPowerGoodAssert n s
  | .pairShareUpdate k => Sys2Proof.Machine.execPairShareUpdate k s
  | .pairShareError k => Sys2Proof.Machine.execPairShareError k s
  | .capExceeded n mean => Sys2Proof.Machine.execCapExceeded n mean s
  | .estimatorStep => Sys2Proof.Machine.execEstimatorStep s
  | .restAnchor m => Sys2Proof.Machine.execRestAnchor m s
  | .chargingCorrection m => Sys2Proof.Machine.execChargingCorrection m s
  | .moduleStale m => Sys2Proof.Machine.execModuleStale m s
  | .impedanceWindowJudge k => Sys2Proof.Machine.execImpedanceWindowJudge k s
  | .prechargeTimeout => Sys2Proof.Machine.execPrechargeTimeout s
  | .bulkTimeout => Sys2Proof.Machine.execBulkTimeout s
  | .chargeTaperDone => Sys2Proof.Machine.execChargeTaperDone s
  | .absorptionUpdate => Sys2Proof.Machine.execAbsorptionUpdate s
  | .deepDischarge m => Sys2Proof.Machine.execDeepDischarge m s
  | .deepRelease m => Sys2Proof.Machine.execDeepRelease m s
  | .idleEnter => Sys2Proof.Machine.execIdleEnter s
  | .recordSave => Sys2Proof.Machine.execRecordSave s
  | .stagingClear => Sys2Proof.Machine.execStagingClear s
  | .restoreCommit cw => Sys2Proof.Machine.execRestoreCommit cw s
  | .recordBufferAccess w => Sys2Proof.Machine.execRecordBufferAccess w s
  | .wireWindowChange p wire mv => Sys2Proof.Machine.execWireWindowChange p wire mv s
  | .chatterHoldEnd p => Sys2Proof.Machine.execChatterHoldEnd p s
  | .attachDebounceEnd p w => Sys2Proof.Machine.execAttachDebounceEnd p w s
  | .detachDebounceEnd p w => Sys2Proof.Machine.execDetachDebounceEnd p w s
  | .sourceSelfMap p => Sys2Proof.Machine.execSourceSelfMap p s
  | .togglePhaseEnd p => Sys2Proof.Machine.execTogglePhaseEnd p s
  | .wireTestPeriodic p => Sys2Proof.Machine.execWireTestPeriodic p s
  | .wireTestCommand p => Sys2Proof.Machine.execWireTestCommand p s
  | .wireTestComplete p w => Sys2Proof.Machine.execWireTestComplete p w s
  | .wireTestConfirm p w => Sys2Proof.Machine.execWireTestConfirm p w s
  | .packetTransmitStart p => Sys2Proof.Machine.execPacketTransmitStart p s
  | .packetTransmitEnd p => Sys2Proof.Machine.execPacketTransmitEnd p s
  | .collision p => Sys2Proof.Machine.execCollision p s
  | .packetReceive p set body ended => Sys2Proof.Machine.execPacketReceive p set body ended s
  | .ackSend p => Sys2Proof.Machine.execAckSend p s
  | .ackReceived p id => Sys2Proof.Machine.execAckReceived p id s
  | .ackTimeout p => Sys2Proof.Machine.execAckTimeout p s
  | .hardResetSend p => Sys2Proof.Machine.execHardResetSend p s
  | .hardResetForced p => Sys2Proof.Machine.execHardResetForced p s
  | .hardResetReceive p => Sys2Proof.Machine.execHardResetReceive p s
  | .acceptReceived p => Sys2Proof.Machine.execAcceptReceived p s
  | .rejectReceived p => Sys2Proof.Machine.execRejectReceived p s
  | .readyReceived p => Sys2Proof.Machine.execReadyReceived p s
  | .getcapsReceived p => Sys2Proof.Machine.execGetcapsReceived p s
  | .swapReceived p => Sys2Proof.Machine.execSwapReceived p s
  | .waitReceived p => Sys2Proof.Machine.execWaitReceived p s
  | .waitResend p => Sys2Proof.Machine.execWaitResend p s
  | .sresetReceived p => Sys2Proof.Machine.execSresetReceived p s
  | .notsuppReceived p => Sys2Proof.Machine.execNotsuppReceived p s
  | .offerReceived p objs => Sys2Proof.Machine.execOfferReceived p objs s
  | .requestReceived p w => Sys2Proof.Machine.execRequestReceived p w s
  | .identReceived p o0 o1 o2 => Sys2Proof.Machine.execIdentReceived p o0 o1 o2 s
  | .intentReceived p o0 o1 o2 o3 => Sys2Proof.Machine.execIntentReceived p o0 o1 o2 o3 s
  | .gapReceived p o0 o1 o2 o3 => Sys2Proof.Machine.execGapReceived p o0 o1 o2 o3 s
  | .relayReceived p objs => Sys2Proof.Machine.execRelayReceived p objs s
  | .unknownTypeReceived p => Sys2Proof.Machine.execUnknownTypeReceived p s
  | .senderResponseTimeout p => Sys2Proof.Machine.execSenderResponseTimeout p s
  | .transitionTimeout p => Sys2Proof.Machine.execTransitionTimeout p s
  | .sinkWaitCapTimeout p => Sys2Proof.Machine.execSinkWaitCapTimeout p s
  | .swapOffTimeout p => Sys2Proof.Machine.execSwapOffTimeout p s
  | .swapOnTimeout p => Sys2Proof.Machine.execSwapOnTimeout p s
  | .safe0Timeout p => Sys2Proof.Machine.execSafe0Timeout p s
  | .reqRetryTimeout p => Sys2Proof.Machine.execReqRetryTimeout p s
  | .sourceSettled p => Sys2Proof.Machine.execSourceSettled p s
  | .lineDischarged p => Sys2Proof.Machine.execLineDischarged p s
  | .swapLineReleased p => Sys2Proof.Machine.execSwapLineReleased p s
  | .forcedDetachRelease p => Sys2Proof.Machine.execForcedDetachRelease p s
  | .swapCommand p => Sys2Proof.Machine.execSwapCommand p s
  | .renegCommand p => Sys2Proof.Machine.execRenegCommand p s
  | .sresetCommand p => Sys2Proof.Machine.execSresetCommand p s
  | .hresetCommand p => Sys2Proof.Machine.execHresetCommand p s
  | .unblockCommand p => Sys2Proof.Machine.execUnblockCommand p s
  | .identResend p => Sys2Proof.Machine.execIdentResend p s
  | .mailboxSendIntent ports => Sys2Proof.Machine.execMailboxSendIntent ports s
  | .mailboxSendGap ports => Sys2Proof.Machine.execMailboxSendGap ports s
  | .frameTransmitStart n => Sys2Proof.Machine.execFrameTransmitStart n s
  | .frameTransmitDone n => Sys2Proof.Machine.execFrameTransmitDone n s
  | .c0FrameCut n => Sys2Proof.Machine.execC0FrameCut n s
  | .pollDue k => Sys2Proof.Machine.execPollDue k s
  | .grantEnd n => Sys2Proof.Machine.execGrantEnd n s
  | .missedPoll n => Sys2Proof.Machine.execMissedPoll n s
  | .discoverPeriod n => Sys2Proof.Machine.execDiscoverPeriod n s
  | .helloReceived f => Sys2Proof.Machine.execHelloReceived f s
  | .reportReceive f => Sys2Proof.Machine.execReportReceive f s
  | .elemrepReceived f => Sys2Proof.Machine.execElemrepReceived f s
  | .idleFrameReceived f => Sys2Proof.Machine.execIdleFrameReceived f s
  | .leaveReceived f => Sys2Proof.Machine.execLeaveReceived f s
  | .slIntentReceived f => Sys2Proof.Machine.execSlIntentReceived f s
  | .gapfwdReceived f => Sys2Proof.Machine.execGapfwdReceived f s
  | .hostmsgReceived f => Sys2Proof.Machine.execHostmsgReceived f s
  | .pollReceived f => Sys2Proof.Machine.execPollReceived f s
  | .assignReceived f ctlId => Sys2Proof.Machine.execAssignReceived f ctlId s
  | .discoverReceived f => Sys2Proof.Machine.execDiscoverReceived f s
  | .timeReceived f => Sys2Proof.Machine.execTimeReceived f s
  | .forgetReceived f => Sys2Proof.Machine.execForgetReceived f s
  | .joinTimeout k => Sys2Proof.Machine.execJoinTimeout k s
  | .segmentDown g => Sys2Proof.Machine.execSegmentDown g s
  | .timeFramePeriod n => Sys2Proof.Machine.execTimeFramePeriod n s
  | .controllerLost n => Sys2Proof.Machine.execControllerLost n s
  | .pmbPollCycle k => Sys2Proof.Machine.execPmbPollCycle k s
  | .pmbTransactionDone reply data => Sys2Proof.Machine.execPmbTransactionDone reply data s
  | .pmbTransactionTimeout sdaLow => Sys2Proof.Machine.execPmbTransactionTimeout sdaLow s
  | .pmbHostTransaction addr code op pec => Sys2Proof.Machine.execPmbHostTransaction addr code op pec s
  | .lingerEnd k => Sys2Proof.Machine.execLingerEnd k s
  | .contextForget k => Sys2Proof.Machine.execContextForget k s
  | .contextSlotRead => Sys2Proof.Machine.execContextSlotRead s
  | .lostRecordWrite k => Sys2Proof.Machine.execLostRecordWrite k s
  | .spillDrain => Sys2Proof.Machine.execSpillDrain s
  | .spillStall k => Sys2Proof.Machine.execSpillStall k s
  | .ringPortRead => Sys2Proof.Machine.execRingPortRead s
  | .hostReadIndexWrite k v => Sys2Proof.Machine.execHostReadIndexWrite k v s
  | .ringCheckpoint => Sys2Proof.Machine.execRingCheckpoint s
  | .waveSample m => Sys2Proof.Machine.execWaveSample m s
  | .ctxstatePeriod => Sys2Proof.Machine.execCtxstatePeriod s
  | .noteWrite len => Sys2Proof.Machine.execNoteWrite len s
  | .hostTriggerFire fire => Sys2Proof.Machine.execHostTriggerFire fire s
  | .windowEnd tag => Sys2Proof.Machine.execWindowEnd tag s
  | .sealStart => Sys2Proof.Machine.execSealStart s
  | .flashPageProgrammed => Sys2Proof.Machine.execFlashPageProgrammed s
  | .flashEraseDone => Sys2Proof.Machine.execFlashEraseDone s
  | .flashOperationTimeout => Sys2Proof.Machine.execFlashOperationTimeout s
  | .reserveErase => Sys2Proof.Machine.execReserveErase s
  | .areaScan => Sys2Proof.Machine.execAreaScan s
  | .areaFormat => Sys2Proof.Machine.execAreaFormat s
  | .flashRead => Sys2Proof.Machine.execFlashRead s
  | .pairStartListenEnd highFor => Sys2Proof.Machine.execPairStartListenEnd highFor s
  | .pairIdleSend guyLow => Sys2Proof.Machine.execPairIdleSend guyLow s
  | .pairIdleReceived x => Sys2Proof.Machine.execPairIdleReceived x s
  | .stakeSend => Sys2Proof.Machine.execStakeSend s
  | .stakeReceived gen => Sys2Proof.Machine.execStakeReceived gen s
  | .stakeAckReceived => Sys2Proof.Machine.execStakeAckReceived s
  | .selfRenew => Sys2Proof.Machine.execSelfRenew s
  | .leaseLapse => Sys2Proof.Machine.execLeaseLapse s
  | .partnerLeaseLapsed => Sys2Proof.Machine.execPartnerLeaseLapsed s
  | .guylineClaim highFor => Sys2Proof.Machine.execGuylineClaim highFor s
  | .claimEnd => Sys2Proof.Machine.execClaimEnd s
  | .lockstepMismatch => Sys2Proof.Machine.execLockstepMismatch s
  | .uncorrectableError mem addr => Sys2Proof.Machine.execUncorrectableError mem addr s
  | .correctableErrorBurst mem n => Sys2Proof.Machine.execCorrectableErrorBurst mem n s
  | .yieldReceived => Sys2Proof.Machine.execYieldReceived s
  | .takeReceived => Sys2Proof.Machine.execTakeReceived s
  | .noTakerTimeout => Sys2Proof.Machine.execNoTakerTimeout s
  | .yieldCommand iface => Sys2Proof.Machine.execYieldCommand iface s
  | .handoverCommand iface => Sys2Proof.Machine.execHandoverCommand iface s
  | .handoverOfferReceived b => Sys2Proof.Machine.execHandoverOfferReceived b s
  | .handoverBoundary => Sys2Proof.Machine.execHandoverBoundary s
  | .handoverAbandon => Sys2Proof.Machine.execHandoverAbandon s
  | .alignReceived stamp phases => Sys2Proof.Machine.execAlignReceived stamp phases s
  | .appliedReceived vs => Sys2Proof.Machine.execAppliedReceived vs s
  | .slframeReceived n q f => Sys2Proof.Machine.execSlframeReceived n q f s
  | .mirrorReceived q m => Sys2Proof.Machine.execMirrorReceived q m s
  | .fireReceived q j fault addr => Sys2Proof.Machine.execFireReceived q j fault addr s
  | .bulkReceived q m => Sys2Proof.Machine.execBulkReceived q m s
  | .pairFrameResend => Sys2Proof.Machine.execPairFrameResend s
  | .pairLaneDown lane => Sys2Proof.Machine.execPairLaneDown lane s
  | .resyncComplete => Sys2Proof.Machine.execResyncComplete s
  | .mirrorOutage => Sys2Proof.Machine.execMirrorOutage s
  | .faultMessage source kind addr => Sys2Proof.Machine.execFaultMessage source kind addr s
  | .faultBookkeeping => Sys2Proof.Machine.execFaultBookkeeping s
  | .incidentClose iface v => Sys2Proof.Machine.execIncidentClose iface v s
  | .trapHandledClose source => Sys2Proof.Machine.execTrapHandledClose source s
  | .incidentAutoClose source => Sys2Proof.Machine.execIncidentAutoClose source s
  | .hnmiPulseEnd => Sys2Proof.Machine.execHnmiPulseEnd s
  | .errMinWidthEnd => Sys2Proof.Machine.execErrMinWidthEnd s
  | .bivouacCommand iface key => Sys2Proof.Machine.execBivouacCommand iface key s
  | .bivouacAck iface => Sys2Proof.Machine.execBivouacAck iface s
  | .faultInject iface source kind => Sys2Proof.Machine.execFaultInject iface source kind s
  | .incidentRead iface => Sys2Proof.Machine.execIncidentRead iface s
  | .refclkLost => Sys2Proof.Machine.execRefclkLost s
  | .refclkOutOfRange => Sys2Proof.Machine.execRefclkOutOfRange s
  | .supervisorService run => Sys2Proof.Machine.execSupervisorService run s
  | .supervisorServiceLate run => Sys2Proof.Machine.execSupervisorServiceLate run s
  | .taskCheckIn iface k site => Sys2Proof.Machine.execTaskCheckIn iface k site s
  | .hostCycleClose => Sys2Proof.Machine.execHostCycleClose s
  | .evidenceClear iface sup host => Sys2Proof.Machine.execEvidenceClear iface sup host s
  | .wdgWakeTimer => Sys2Proof.Machine.execWdgWakeTimer s
  | .aoOscillatorStop => Sys2Proof.Machine.execAoOscillatorStop s
  | .crystalReturn => Sys2Proof.Machine.execCrystalReturn s
  | .updateStart iface kind => Sys2Proof.Machine.execUpdateStart iface kind s
  | .bankEraseDone ok => Sys2Proof.Machine.execBankEraseDone ok s
  | .blockCommit iface => Sys2Proof.Machine.execBlockCommit iface s
  | .blockProgrammed ok => Sys2Proof.Machine.execBlockProgrammed ok s
  | .updateFinish iface => Sys2Proof.Machine.execUpdateFinish iface s
  | .verificationDone => Sys2Proof.Machine.execVerificationDone s
  | .updateAbort iface => Sys2Proof.Machine.execUpdateAbort iface s
  | .updateActivate iface tgt => Sys2Proof.Machine.execUpdateActivate iface tgt s
  | .updateConfirm iface => Sys2Proof.Machine.execUpdateConfirm iface s
  | .autoConfirm => Sys2Proof.Machine.execAutoConfirm s
  | .ownerLockWrite iface code => Sys2Proof.Machine.execOwnerLockWrite iface code s
  | .motionChange edge => Sys2Proof.Machine.execMotionChange edge s
  | .motionStuck => Sys2Proof.Machine.execMotionStuck s
  | .motionChatterEnd => Sys2Proof.Machine.execMotionChatterEnd s
  | .msixMessageSend v => Sys2Proof.Machine.execMsixMessageSend v s
  | .endOfInterrupt iface w => Sys2Proof.Machine.execEndOfInterrupt iface w s
  | .ringInterruptTimeout k => Sys2Proof.Machine.execRingInterruptTimeout k s
  | .pcieReset err => Sys2Proof.Machine.execPcieReset err s
  | .macFrameReceive n addr frame fcs => Sys2Proof.Machine.execMacFrameReceive n addr frame fcs s
  | .macTailWrite n rx v => Sys2Proof.Machine.execMacTailWrite n rx v s
  | .macFrameTransmit n len frame => Sys2Proof.Machine.execMacFrameTransmit n len frame s
  | .ptpSyncOnly iface => Sys2Proof.Machine.execPtpSyncOnly iface s
  | .ptpFullExchange iface => Sys2Proof.Machine.execPtpFullExchange iface s
  | .spiWriteFrame bytes => Sys2Proof.Machine.execSpiWriteFrame bytes s
  | .spiReadFrame addr n => Sys2Proof.Machine.execSpiReadFrame addr n s
  | .spiStatusRead => Sys2Proof.Machine.execSpiStatusRead s
  | .railOutOfWindow code seen => Sys2Proof.Machine.execRailOutOfWindow code seen s
  | .railEpisodeEnd code => Sys2Proof.Machine.execRailEpisodeEnd code s
  | .powerOnReset rail => Sys2Proof.Machine.execPowerOnReset rail s
  | .powerOnResetRelease banks33 => Sys2Proof.Machine.execPowerOnResetRelease banks33 s
  | .aoReset => Sys2Proof.Machine.execAoReset s
  | .vaoLow vao => Sys2Proof.Machine.execVaoLow vao s
  | .temperatureSample cen sup ana io steady => Sys2Proof.Machine.execTemperatureSample cen sup ana io steady s
  | .earlyWarning => Sys2Proof.Machine.execEarlyWarning s
  | .earlyWarningRecovered => Sys2Proof.Machine.execEarlyWarningRecovered s
  | .rstNAssert => Sys2Proof.Machine.execRstNAssert s
  | .chipResetKey iface => Sys2Proof.Machine.execChipResetKey iface s
  | .supervisorResetKey iface => Sys2Proof.Machine.execSupervisorResetKey iface s
  | .chipResetApply => Sys2Proof.Machine.execChipResetApply s
  | .chipResetEnd => Sys2Proof.Machine.execChipResetEnd s
  | .bootRomComplete recov pos => Sys2Proof.Machine.execBootRomComplete recov pos s
  | .imageChecksComplete sopen sclose coefs => Sys2Proof.Machine.execImageChecksComplete sopen sclose coefs s
  | .configCommitComplete sec => Sys2Proof.Machine.execConfigCommitComplete sec s
  | .hibernateRequest iface => Sys2Proof.Machine.execHibernateRequest iface s
  | .hibernateEntry => Sys2Proof.Machine.execHibernateEntry s
  | .psenHoldEnd => Sys2Proof.Machine.execPsenHoldEnd s
  | .wakeEvent src => Sys2Proof.Machine.execWakeEvent src s
  | .ibatComparatorAssert seen => Sys2Proof.Machine.execIbatComparatorAssert seen s
  | .gapNoticeWindowEnd => Sys2Proof.Machine.execGapNoticeWindowEnd s
  | .hardResetSent p => Sys2Proof.Machine.execHardResetSent p s
  | .safetyOscillatorFault => Sys2Proof.Machine.execSafetyOscillatorFault s
  | .pcieLinkUp speed width bme msixEn fmask => Sys2Proof.Machine.execPcieLinkUp speed width bme msixEn fmask s
  | .macLinkChange n seen speed => Sys2Proof.Machine.execMacLinkChange n seen speed s

end Sys2Proof.Machine
end

