-- ==== Sys2Proof/Safety.lean ====
section
/-! DEFINITION. The terms that claims use: when a host access is accepted, when a step is safe, and what every step keeps. -/

namespace Sys2Proof.Machine

/-! ### Host accesses -/

/-- The host reaches a word over an interface: the chip is awake, the page is there for the interface, and SPI writes are
enabled for a write over SPI (R428, R437, R448). -/
def hostReaches (iface : Iface) (c : Chip) (off : Nat) : Bool :=
  awake c && !isMsix iface off && pageReach iface c (off / 4096) && (iface == .pcie || spiOn c && c.flag F.HIF_CTL_SPIWR)

/-- A host write to a word is accepted: the host reaches it, the page is unlocked or the write needs no key (R453), and the
chip is no standby that refuses it (R370). -/
def hostMay (iface : Iface) (c : Chip) (off : Nat) : Bool :=
  hostReaches iface c off && (keyless off || unlocked iface c (off / 4096)) && !(hostStandby c && !standbyTakes off)

/-- A word may stand in a register that can be written: every field is in its range (R510), and no reserved bit is 1 (R7). -/
def wordFits (off v : Nat) : Bool :=
  match accessRow off with
  | none => false
  | some r =>
    let held := r.rw ||| r.rws ||| r.w1c ||| r.wo
    held != 0 && !outOfRange off v && (v &&& (0xFFFFFFFF ^^^ (held ||| r.rc ||| r.ro))) == 0

/-- A register command is accepted and carried out: the write is accepted, its word fits, and the page's logic runs. -/
def hostRuns (iface : Iface) (c : Chip) (off v : Nat) : Bool := hostMay iface c off && wordFits off v && operates c off

/-- A host read reaches a word whose page runs (R437, R448). -/
def hostSees (iface : Iface) (c : Chip) (off : Nat) : Bool :=
  awake c && !isMsix iface off && pageReach iface c (off / 4096) && pageAlive c (off / 4096) && (iface == .pcie || spiOn c)

/-! ### Frames -/

/-- Every register but those at the offsets listed reads as before. -/
def RegsKept (as : List Nat) (c c' : Chip) : Prop := ∀ r : Reg, r.addr ∉ as → c'.rdR r = c.rdR r

/-! ### Safe steps -/

/-- A step is safe: it answers a next state. No command of the W480 stops the machine (log 5). -/
def SafeStep (s : State) : Prop := ∃ t, step s = .next t

/-! ### What every step keeps -/

/-- The flash keeps its canonical form: addresses strictly rising, and no byte listed that is erased (R341). -/
def flashWf (nv : Nv) : Bool := Tab.wf 0xFF nv.flash

/-- The fraction of the nanosecond time is below one nanosecond (R53), and a stopped angle clock holds no stamp (R37). -/
def timeWf (t : Time) : Bool := decide (t.nsFrac < 131072000000) && (t.running || t.acc == 0)

/-- Nothing waits to be carried out, and nothing is asked of the time base: what a command sets off is done before the command
ends (R29, R376). -/
def quiet (c : Chip) : Bool := c.due.isEmpty && c.timeReq.isNone

/-- What every step keeps: the canonical form of what is kept without power, the form of the time base, and that nothing is left
half done between two commands. -/
def StateInv (s : State) : Prop := flashWf s.nv = true ∧ timeWf s.time = true ∧ quiet s.chip = true

end Sys2Proof.Machine
end

