-- ==== Sys2Proof/Certificates/Slice0/Obligations.lean ====
section
/-! DEFINITION. The statements for the provers. -/

open Sys2Proof Sys2Proof.Machine

/-! ### The machine: steps, invariants, and what is kept -/

/-- A step of a state with a command at the front of its queue is that command on the state with the queue's rest (log 1). -/
def Obligations.StepRunsTheFrontCommand : Prop :=
  ∀ (i : Instr) (l : List Instr) (s : State), step { s with pending := i :: l } = exec i { s with pending := l }

/-- With no command waiting a step is one tick (the model's choice, log 1): the nanosecond time and its fraction, in
1/131,072,000,000 ns, advance by 2.5 ns × (1 + ANG_NSADJ) (R53); the accumulator advances by the present increment (R37), and a
pause holds it (R47). What the engine (R95), an entry into hibernate (R477) and what waits for the end of the tick (R317, R433)
bring is all else that a tick changes. -/
def Obligations.EmptyQueueIsOneTick : Prop :=
  (∀ s : State, s.pending = [] → s.chip.engine = none → s.chip.pwr.entering = false → (seg s.chip 1).hellos = [] →
    s.chip.upd.confirmed = [] →
    ∃ t : Time, step s = .next { s with time := t } ∧ t.tick = s.time.tick + 1 ∧ t.running = s.time.running ∧
      (s.time.running = false → t.acc = s.time.acc ∧ t.ns = s.time.ns ∧ t.nsFrac = s.time.nsFrac) ∧
      (s.time.running = true →
        t.acc = (if s.chip.ang.paused then s.time.acc else s.time.acc + BitVec.ofNat 80 (effInc s.chip)) ∧
        t.nsFrac < 131072000000 ∧
        ∃ n : Int, t.ns = s.time.ns + BitVec.ofInt 64 n ∧
          n * 131072000000 + t.nsFrac = s.time.nsFrac + 5 * (65536000000 + s.chip.rdI F.ANG_NSADJ_ADJ))) ∧
  (∀ s : State, s.pending = [] → s.chip.engine.isSome = true ∨ s.chip.pwr.entering = true → (seg s.chip 1).hellos = [] →
    s.chip.upd.confirmed = [] →
    step s = .next (State.settled { s with time := s.time.next s.chip } s.nv
      (hibRows (s.time.next s.chip) (engineTick (s.time.next s.chip) s.chip)))) ∧
  (∀ s : State, s.pending = [] → ∃ u, step s = .next u ∧ u.pending = [] ∧ u.time.tick = s.time.tick + 1) ∧
  (∀ s : State, s.pending = [] → (seg s.chip 1).hellos = [] → s.chip.upd.confirmed ≠ [] →
    ∃ u, step s = .next u ∧ u.nv = (confirmEnd s.nv s.chip).1) ∧
  (∀ s : State, s.pending = [] → (seg s.chip 1).hellos = [] → s.chip.upd.confirmed = [] → ∃ u, step s = .next u ∧ u.nv = s.nv)

/-- Every command of the table completes in every state, and leaves the waiting commands as they are (log 5); every step is safe. -/
def Obligations.EveryCommandCompletes : Prop :=
  (∀ (i : Instr) (s : State), ∃ t, exec i s = .next t ∧ t.pending = s.pending) ∧ ∀ s : State, SafeStep s

/-- What every step keeps holds after reset. -/
def Obligations.InvariantHoldsAtReset : Prop := StateInv State.reset

/-- Every step keeps the canonical form of the flash (R341), the form of the time base (R37, R53), and that nothing a command has
set off is left waiting (R29, R376). -/
def Obligations.EveryStepKeepsInvariant : Prop := ∀ s t : State, StateInv s → step s = .next t → StateInv t

/-- The floor never falls (R420), and neither row of fuses does (R419). -/
def Obligations.SecurityFloorNeverFalls : Prop :=
  ∀ s t : State, step s = .next t →
    secFloor s.nv ≤ secFloor t.nv ∧ s.nv.rowA ≤ t.nv.rowA ∧ s.nv.rowB ≤ t.nv.rowB

/-- A command takes no time, and the stamp is where it was, at or later than it was (R37, R10), or at the start 1∠0x0000 of R37. -/
def Obligations.OnlyTheClockMovesTheStamp : Prop :=
  ∀ (i : Instr) (s t : State), exec i s = .next t →
    t.time.tick = s.time.tick ∧
    (s.time.running = true → t.time.running = true →
      Stamp.reached t.time.stamp s.time.stamp = true ∨ (t.time.stamp = 0x000000010000#48 ∧ t.time.ns = 0 ∧ t.time.nsFrac = 0))

/-- What is kept without power (flash, directory, fuses) changes only by these commands (R340, R419–R427, R474). -/
def Obligations.OnlyFlashCommandsChangeFlash : Prop :=
  ∀ (i : Instr) (s t : State), exec i s = .next t →
    t.nv = s.nv ∨ i = .flashPageProgrammed ∨ i = .flashEraseDone ∨ (∃ ok, i = .bankEraseDone ok) ∨ (∃ ok, i = .blockProgrammed ok) ∨
      i = .verificationDone ∨ (∃ f b, i = .updateActivate f b) ∨
      (∃ b x, i = .bootRomComplete b x) ∨ (∃ f o v w, i = .registerWrite f o v w) ∨ (∃ l, i = .spiWriteFrame l) ∨ ∃ x, i = .configCommitComplete x

/-- What a flash operation stores, and that it stores nothing else (R340, R341, R421, R422): reading one byte is
`Tab.get 0xFF nv.flash`. -/
def Obligations.FlashBytesOutsideAreKept : Prop :=
  (∀ s t : State, pageAlive s.chip 0x17 = true → s.chip.recd.sealing.isSome = true →
    exec .flashPageProgrammed s = .next t →
    ∀ a, (a < s.chip.rdR R.REC_FBASE + s.chip.recd.wpoint % max 1 (s.chip.rdR R.REC_FSIZE) ∨
        s.chip.rdR R.REC_FBASE + s.chip.recd.wpoint % max 1 (s.chip.rdR R.REC_FSIZE) + flashPage s.chip ≤ a) →
      Tab.get 0xFF t.nv.flash a = Tab.get 0xFF s.nv.flash a) ∧
  (∀ s t : State, pageAlive s.chip 0x17 = true → opLate s.time s.chip = false → s.chip.recd.formatting = true → exec .flashEraseDone s = .next t →
    ∀ a, Tab.get 0xFF t.nv.flash a =
      if s.chip.rdR R.REC_FBASE ≤ a ∧ a < s.chip.rdR R.REC_FBASE + max 1 (s.chip.rdR R.REC_FSIZE) then 0xFF
      else Tab.get 0xFF s.nv.flash a) ∧
  (∀ s t : State, pageAlive s.chip 0x17 = true → opLate s.time s.chip = false → s.chip.recd.formatting = false →
    s.chip.recd.erasing = true →
    exec .flashEraseDone s = .next t →
    ∀ a, Tab.get 0xFF t.nv.flash a =
      if s.chip.rdR R.REC_FBASE + (s.chip.recd.wpoint + s.chip.recd.erased) % max 1 (s.chip.rdR R.REC_FSIZE) ≤ a ∧
          a < s.chip.rdR R.REC_FBASE + (s.chip.recd.wpoint + s.chip.recd.erased) % max 1 (s.chip.rdR R.REC_FSIZE) + flashBlock s.chip
      then 0xFF else Tab.get 0xFF s.nv.flash a) ∧
  (∀ s t : State, pageAlive s.chip 0x06 = true → s.chip.upd.op = some .erase → exec (.bankEraseDone true) s = .next t →
    ∀ a, Tab.get 0xFF t.nv.flash a =
      if bankBase s.nv s.chip.upd.bank ≤ a ∧ a < bankBase s.nv s.chip.upd.bank + bankSize s.nv s.chip.upd.bank then 0xFF
      else Tab.get 0xFF s.nv.flash a) ∧
  (∀ (s t : State) (ofs : Nat), pageAlive s.chip 0x06 = true → s.chip.upd.op = some (.block ofs) →
    s.chip.recd.sealing.isSome = false → exec (.blockProgrammed true) s = .next t →
    ∀ a, (a < bankBase s.nv s.chip.upd.bank + ofs ∨
        bankBase s.nv s.chip.upd.bank + ofs + s.chip.upd.block.length ≤ a) →
      Tab.get 0xFF t.nv.flash a = Tab.get 0xFF s.nv.flash a) ∧
  (∀ s t : State, opLate s.time s.chip = true →
    exec .flashPageProgrammed s = .next t ∨ exec .flashEraseDone s = .next t → t.nv = s.nv)

/-! ### What commands do -/

/-- Angle stamps are compared as serial numbers modulo 2^48 (R10); a difference of exactly 2^47 is treated as earlier. -/
def Obligations.StampOrderIsSerial : Prop :=
  ∀ a b : Stamp,
    (Stamp.later a b = true ↔ 1 ≤ (a - b).toNat ∧ (a - b).toNat ≤ 2 ^ 47 - 1) ∧
    (Stamp.later b a = true ↔ 2 ^ 47 + 1 ≤ (a - b).toNat ∧ (a - b).toNat ≤ 2 ^ 48 - 1) ∧
    ((a - b).toNat = 2 ^ 47 → Stamp.later a b = false ∧ Stamp.reached a b = false)

/-- R452: PGID.CODE equals the fault source code of the page's first source in R377, and pages that share a code differ in INST. -/
def Obligations.PageIdentifiersNameTheirSource : Prop :=
  (∀ (iface : Iface) (p : Fin 25) (s : State), awake s.chip = true → pageReach iface s.chip p.val = true →
    (iface = .pcie ∨ spiOn s.chip = true) →
    exec (.rcRegisterRead iface (BitVec.ofNat 24 (p.val * 4096))) s =
      .next (s.settled s.nv (returns [pageId p.val] (hostAccess s.chip)))) ∧
  (∀ p : Fin 25, bits (pageId p.val) 23 16 =
    [0x16, 0x16, 0x16, 0x14, 0x17, 0x18, 0x15, 0x13, 0x01, 0x12, 0x02, 0x03, 0x04, 0x05, 0x06, 0x07, 0x08, 0x09, 0x0A, 0x0B, 0x0D,
      0x0E, 0x0F, 0x10, 0x11].getD p.val 0) ∧
  (∀ p q : Fin 25, p ≠ q → bits (pageId p.val) 23 16 = bits (pageId q.val) 23 16 →
    bits (pageId p.val) 15 8 ≠ bits (pageId q.val) 15 8)

/-- R99: the cost of one iteration, 96 at full dimension, and COST of every slot after the commit of CEN. -/
def Obligations.IterationCostIsReported : Prop :=
  (∀ (c : Chip) (s n m p q g b1 e : Nat), c.rd (F.CEN_LPs_CFG_NST s) = n → c.rd (F.CEN_LPs_CFG_NIN s) = m →
    c.rd (F.CEN_LPs_CFG_NOUT s) = p → c.rd (F.CEN_LPs_CFG_NREF s) = q → c.rd (F.CEN_LPs_CFG_GEN s) = g →
    c.rd (F.CEN_LPs_CFG_B1EN s) = b1 → c.rd (F.CEN_LPs_CFG_EEN s) = e →
    slotCost c s = 35 + (n + q + g) + n + (n + m + p + m * (b1 + e)) ∧
    (n = 12 → m = 4 → p = 8 → q = 4 → g = 1 → b1 = 1 → e = 1 → slotCost c s = 96)) ∧
  (∀ (t : Time) (was c : Chip) (s : Nat), s < 32 → slotCost (cenCommitted t was c) s < 128 →
    (cenCommitted t was c).rd (F.CEN_LPs_STAT_COST s) = slotCost (cenCommitted t was c) s)

/-- Write-back of an accumulator value by a shift of 20 or 24 bits (R92): half to even, then saturated, and WSAT. -/
def Obligations.WriteBackRoundsHalfToEven : Prop :=
  ∀ (sh : Nat) (q r : Int), 1 ≤ sh → 0 ≤ r → r < 2 ^ sh →
    ∃ x : Int,
      (2 * r < 2 ^ sh → x = q) ∧ (2 ^ sh < 2 * r → x = q + 1) ∧ (2 * r = 2 ^ sh → x % 2 = 0 ∧ (x = q ∨ x = q + 1)) ∧
      (writeBack sh (q * 2 ^ sh + r)).v = (if x < -sigMax - 1 then -sigMax - 1 else if sigMax < x then sigMax else x) ∧
      ((writeBack sh (q * 2 ^ sh + r)).sat = true ↔ x < -sigMax - 1 ∨ sigMax < x)

/-- What a store and a load of a word do, bit by bit, by its access codes (R6) and the order of R8 within one clock, and that nothing else
changes. -/
def Obligations.RegisterBitsFollowAccessCodes : Prop :=
  (∀ (t : Time) (off v i : Nat) (r : MapRow) (c : Chip), i < 32 →
    ((storeWord t off v r c).rdR (wordAt off)).testBit i =
      (if r.w1c.testBit i && v.testBit i && !(Tab.get 0 (sameOf t c).sets off).testBit i then false
       else if r.rw.testBit i then v.testBit i else (c.rdR (wordAt off)).testBit i) ∧
    ((storeWord t off v r c).shR (wordAt off)).testBit i =
      (if r.rws.testBit i then v.testBit i else (c.shR (wordAt off)).testBit i)) ∧
  (∀ (t : Time) (off v : Nat) (r : MapRow) (c : Chip),
    RegsKept [off] c (storeWord t off v r c) ∧
    (∀ g : Reg, g.addr ≠ off → (storeWord t off v r c).shR g = c.shR g) ∧
    { storeWord t off v r c with regs := c.regs, shadow := c.shadow, same := c.same } = c) ∧
  (∀ (off i : Nat) (r : MapRow) (c : Chip), i < 32 →
    (loadWord off r c).2.testBit i =
      (((r.rw.testBit i || r.ro.testBit i || r.w1c.testBit i || r.rc.testBit i) && (c.rdR (wordAt off)).testBit i) ||
        (r.rws.testBit i && (c.shR (wordAt off)).testBit i)) ∧
    ((loadWord off r c).1.rdR (wordAt off)).testBit i =
      (if r.rc.testBit i then false else (c.rdR (wordAt off)).testBit i)) ∧
  (∀ (off : Nat) (r : MapRow) (c : Chip), RegsKept [off] c (loadWord off r c).1 ∧
    { (loadWord off r c).1 with regs := c.regs } = c)

/-- Host writes that are turned away (R7, R437, R453, R510): the report is all they do, and a reserved bit is reported beside the
fields' effect. -/
def Obligations.WritesTurnedAwayAreReported : Prop :=
  (∀ (iface : Iface) (off : BitVec 24) (v : Word) (s : State), awake s.chip = true → (iface = .pcie ∨ spiOn s.chip = true) →
    exec (.registerWrite iface off v false) s = .next (s.settled s.nv (accessFault s.time off.toNat s.chip))) ∧
  (∀ (iface : Iface) (off : BitVec 24) (v : Word) (s : State), off.toNat % 4 = 0 → hostReaches iface s.chip off.toNat = true →
    keyless off.toNat = false → unlocked iface s.chip (off.toNat / 4096) = false →
    lapsedNow s.time iface s.chip (off.toNat / 4096) = false → (hostStandby s.chip && !standbyTakes off.toNat) = false →
    exec (.registerWrite iface off v true) s = .next (s.settled s.nv (hostAccess (lockFault s.time off.toNat s.chip)))) ∧
  (∀ (iface : Iface) (off : BitVec 24) (v : Word) (r : MapRow) (s : State), off.toNat % 4 = 0 →
    hostMay iface s.chip off.toNat = true → accessRow off.toNat = some r → r.rw ||| r.rws ||| r.w1c ||| r.wo ≠ 0 →
    outOfRange off.toNat v.toNat = true →
    exec (.registerWrite iface off v true) s =
      .next (s.settled s.nv (accessFault s.time off.toNat (hostTaken s.time iface off.toNat s.chip)))) ∧
  (∀ (iface : Iface) (off : BitVec 24) (v : Word) (r : MapRow) (s : State), off.toNat % 4 = 0 →
    hostMay iface s.chip off.toNat = true → accessRow off.toNat = some r → r.rw ||| r.rws ||| r.w1c ||| r.wo ≠ 0 →
    outOfRange off.toNat v.toNat = false →
    v.toNat &&& (0xFFFFFFFF ^^^ (r.rw ||| r.rws ||| r.w1c ||| r.wo ||| r.rc ||| r.ro)) ≠ 0 →
    let c := noticed s.time off.toNat (hostTaken s.time iface off.toNat s.chip)
    headerWrite s.time iface s.nv (off.toNat / 4096) (off.toNat % 4096) v.toNat c = none →
    specialWrite s.time off.toNat v.toNat s.nv c = none →
    exec (.registerWrite iface off v true) s = .next (s.settled s.nv (accessFault s.time off.toNat
      (noteSpi s.time iface off.toNat (storeWord s.time off.toNat (spiStands s.time iface off.toNat v.toNat r c) r c)))))

/-- A commit (R454): the merge of the shadow into the page, what a refusal leaves, and which of the two it is. -/
def Obligations.CommitAppliesAllOrNothing : Prop :=
  (∀ (p off i : Nat) (c : Chip), p ≠ 0x0E → i < 32 →
    ((mergeShadow p c).rdR ⟨off, resetWord off⟩).testBit i =
      (if off / 4096 = p ∧ (rwsMask off).testBit i = true then (c.shR ⟨off, resetWord off⟩).testBit i
       else (c.rdR ⟨off, resetWord off⟩).testBit i)) ∧
  (∀ (p : Fin 25) (tag : Nat) (done : Bool) (c : Chip), tag < 2 ^ 16 →
    RegsKept [(F.PGSTAT_PEND p.val).reg.addr] c (commitShow p.val tag done c) ∧
    (commitShow p.val tag done c).rd (F.PGSTAT_PEND p.val) = 0 ∧
    (commitShow p.val tag done c).rd (F.PGSTAT_DONE p.val) = done.toNat ∧
    (commitShow p.val tag done c).rd (F.PGSTAT_REFUSED p.val) = (!done).toNat ∧
    (commitShow p.val tag done c).rd (F.PGSTAT_TAG p.val) = tag ∧
    (commitShow p.val tag done c).shadow = c.shadow) ∧
  (∀ (iface : Iface) (p : Fin 25) (s : State), hostMay iface s.chip (pageWord p 0x28) = true →
    (p.val = 0x0A → s.chip.ang.early = 0) →
    let c := commitMark s.time p.val
      (pendingFirst s.time s.nv p.val (noticed s.time (pageWord p 0x28) (hostTaken s.time iface (pageWord p 0x28) s.chip)))
    let shown := commitShow p.val (c.rd (F.SEQ_TAG p.val)) true (mergeShadow p.val c)
    (∀ off, judgePage s.nv p.val c (mergeShadow p.val c) = some off →
      exec (.commitImmediate iface p) s = .next (s.settled s.nv (endUnlock iface p.val
        (((refuseIrq p.val).map fun b => irq s.time p.val b).getD id
          (raise s.time (refuseSource p.val off) 0x80 off (commitShow p.val (c.rd (F.SEQ_TAG p.val)) false c)))))) ∧
    (judgePage s.nv p.val c (mergeShadow p.val c) = none → shown.blockOn p.val = false →
      shown.rdR (R.FLTMAP p.val) = c.rdR (R.FLTMAP p.val) → p.val ≠ 0x0A → p.val ≠ 0x0B → p.val ≠ 0x0E → p.val ≠ 0x11 →
      exec (.commitImmediate iface p) s = .next (s.settled s.nv (endUnlock iface p.val (showProducers shown)))))

/-- A ring with CONS 0b01 read through RNG_RPDATA (R329). -/
def Obligations.RingPortReadsWholeWords : Prop :=
  (∀ s : State, hostSees .pcie s.chip 0x1804C = true →
    let c := hostAccess s.chip
    let k := c.rd F.RNG_RPSEL_RING
    ringOn c k = true → ringCons c k = 1 → 4 ≤ ringFill c k →
      exec .ringPortRead s = .next (s.settled s.nv (returns [leNat (ringPeek c k (ring c k).outW 4)] (readPort s.time c).1)) ∧
      (ring (readPort s.time c).1 k).outW = (ring c k).outW + 4 ∧
      (∀ j, j ≠ k → ring (readPort s.time c).1 j = ring c j) ∧
      (readPort s.time c).1.ringMem = c.ringMem ∧ (readPort s.time c).1.hostMem = c.hostMem) ∧
  (∀ s : State, hostSees .pcie s.chip 0x1804C = true → ringFill s.chip (s.chip.rd F.RNG_RPSEL_RING) < 4 →
    exec .ringPortRead s = .next (s.settled s.nv (returns [0] (hostAccess s.chip))))

/-- Writes through CEN_CDATA (R115, R116): the three that are ignored and reported, and the one word that any other write
stores. -/
def Obligations.CoefficientWritesAreGuarded : Prop :=
  ∀ (t : Time) (v : Nat) (c : Chip),
    let s := c.rd F.CEN_CADDR_SLOT
    let w := c.rd F.CEN_CADDR_WORD
    let states := c.flag F.CEN_CADDR_REGION
    let inUse := slotOn c s && (c.flag (F.CEN_LPs_CFG_SHEDSW s) || c.rd (F.CEN_LPs_CFG_SET s) == c.rd F.CEN_CADDR_SET)
    ((states = false ∧ w < 0x2AA ∧ inUse = true ∨ states = true ∧ w < 0x20 ∧ (slotOn c s = true ∨ 0x0C ≤ w)) →
      (cdataWrite t v c).cenMem = c.cenMem ∧ (cdataWrite t v c).cenSt = c.cenSt ∧
      cdataWrite t v c = caddrNext (raise t 0x06 0x20 (c.rdR R.CEN_CADDR) (irq t 0x0E 6 c))) ∧
    (states = false → w < 0x2AA → inUse = false →
      Tab.get 0 (cdataWrite t v c).cenMem (coefKey s (c.rd F.CEN_CADDR_SET) w) = coefStore w v ∧
      (∀ k, k ≠ coefKey s (c.rd F.CEN_CADDR_SET) w → Tab.get 0 (cdataWrite t v c).cenMem k = Tab.get 0 c.cenMem k) ∧
      (cdataWrite t v c).cenSt = c.cenSt) ∧
    (states = true → w < 0x0C → slotOn c s = false →
      Tab.get 0 (cdataWrite t v c).cenSt (32 * s + w) = BitVec.ofNat 32 v ∧
      (∀ k, k ≠ 32 * s + w → Tab.get 0 (cdataWrite t v c).cenSt k = Tab.get 0 c.cenSt k) ∧
      (cdataWrite t v c).cenMem = c.cenMem)

/-- The gate outputs of a leg (R58, R353): never both high, and both low where the leg is off or the chip does not act. -/
def Obligations.GatesAreNeverBothHigh : Prop :=
  ∀ (t : Time) (c : Chip) (n : Nat),
    gatePins t c n ≠ (true, true) ∧
    (groupOfLeg c n = none ∨ legLive c n = false ∨ acts c = false → gatePins t c n = (false, false))

/-- OVERCURRENT_TRIP (R184) and its frame: channel `n` alone, and of it the pin and the latched trip. -/
def Obligations.OvercurrentLowersEnableAtOnce : Prop :=
  ∀ (n : Fin 16) (s : State), awake s.chip = true →
    exec (.overcurrentTrip n) s = .next (s.settled s.nv (efOvercurrent n.val s.chip)) ∧
    ((efCh s.chip n.val).pin = true → isStandby s.chip = false →
      efCh (efOvercurrent n.val s.chip) n.val = { efCh s.chip n.val with pin := false, oc := true }) ∧
    ((efCh s.chip n.val).pin = false → efOvercurrent n.val s.chip = s.chip) ∧
    (∀ m, m ≠ n.val → efCh (efOvercurrent n.val s.chip) m = efCh s.chip m) ∧
    (efOvercurrent n.val s.chip).efu.copy = s.chip.efu.copy ∧
    { efOvercurrent n.val s.chip with efu := s.chip.efu } = s.chip

/-- The retry policy of a trip (R187): the state, the pin, the retries left and the wait, in 100 ns. -/
def Obligations.TripFollowsRetryPolicy : Prop :=
  ∀ (t : Time) (n : Fin 16) (kinds : Nat) (c : Chip),
    let left := c.rd (F.EFU_CHn_STAT_RLEFT n.val)
    let rcnt := efRd c n.val (F.EFU_CHn_RTY_RCNT n.val)
    let c' := efTrip t n.val kinds c
    (efCh c' n.val).pin = false ∧
    (left = 0 → rcnt ≠ 255 → efState c' n.val = 5) ∧
    (left ≠ 0 ∨ rcnt = 255 →
      efState c' n.val = 4 ∧
      c'.rd (F.EFU_CHn_STAT_RLEFT n.val) = (if rcnt = 255 then left else left - 1) ∧
      (efCh c' n.val).wait = max (efRd c n.val (F.EFU_CHn_RTY_RMIN n.val) * 100000) (99 * (efCh c n.val).on))

/-- R359: a give-up cause of R358 is latched if it is the first, and raises kind 0x10; the chip no longer acts (R360). -/
def Obligations.GiveUpLatchesItsFirstCause : Prop :=
  ∀ (t : Time) (cause : Nat) (c : Chip), 1 ≤ cause → cause ≤ 8 →
    let barred := prState c = prSOLO ∨ prState c = prOUT ∨ c.par.giving.isSome = true ∨ c.flag F.PAR_STAT_BIV = true
    (barred → giveUp t cause c = c) ∧
    (¬barred →
      (giveUp t cause c).rd F.PAR_CAUSE_GIVE = (if c.rd F.PAR_CAUSE_GIVE = 0 then cause else c.rd F.PAR_CAUSE_GIVE) ∧
      bit ((giveUp t cause c).rdR (irqRaw 9)) 1 = true ∧
      (lane (giveUp t cause c) 0x12).isOpen = true ∧ bit (lane (giveUp t cause c) 0x12).kinds 4 = true ∧
      (prState c = prCLAIM ∨ prState c = prACTIVE →
        acts (giveUp t cause c) = false ∧ (giveUp t cause c).par.giving = some cause))

/-- LEASE_LAPSE (R353, R354): ACT_N and GUY are released, and every gate output is low. -/
def Obligations.LapsedLeaseStopsTheChip : Prop :=
  (∀ s : State, awake s.chip = true → pairOn s.chip = true → hasStake s.chip = true → s.chip.par.leaseEnd ≤ s.time.tick →
    exec .leaseLapse s = .next (s.settled s.nv (leaseLapse s.time s.chip)) ∧
    acts (leaseLapse s.time s.chip) = false ∧
    (leaseLapse s.time s.chip).rd F.PAR_STAT_GUYDRV = 0 ∧ hasStake (leaseLapse s.time s.chip) = false ∧
    (∀ n, gatePins s.time (leaseLapse s.time s.chip) n = (false, false)) ∧
    RegsKept [F.PAR_STAT_ACT.reg.addr, F.PAR_STAKE_LEFT.reg.addr] s.chip (leaseLapse s.time s.chip)) ∧
  (∀ (t : Time) (c : Chip), t.tick < c.par.leaseEnd → leaseLapse t c = c)

/-- The judgement of a supervisor service in its window (R402) or in the start window (R403), and the window that it starts. -/
def Obligations.SupervisorWindowIsJudged : Prop :=
  ∀ (t : Time) (pc : Nat) (c : Chip),
    let age := tickDiff (wdgTick t c) c.wdg.sAt
    let first := c.flag F.WDG_SSTAT_START
    let opens := if first then 0 else c.rd F.WDG_SWIN_SOPEN
    let closes := if first then 65535 else c.rd F.WDG_SWIN_SCLOSE
    let ended := c.wrB F.WDG_SSTAT_START (first && c.flag F.UPD_STAT_RECOV)
    (closes ≤ age → supService t pc c = supFailure t 1 pc ended) ∧
    (age < opens → age < closes → supService t pc c = supFailure t 2 pc c) ∧
    (opens ≤ age → age < closes →
      (supService t pc c).flt = c.flt ∧ (supService t pc c).par = c.par ∧
      (supService t pc c).flag F.WDG_SSTAT_START = (first && c.flag F.UPD_STAT_RECOV) ∧
      (supService t pc c).wdg.supLast = some t.stamps ∧ RegsKept [F.WDG_SSTAT_START.reg.addr] c (supService t pc c)) ∧
    (supService t pc c).wdg.sAt = wdgTick t c

/-- The owner lock (R429): set by a code while LOCKED is 0, cleared only by a write of the same code. -/
def Obligations.OwnerLockNeedsItsCode : Prop :=
  (∀ (iface : Iface) (code : Word) (s : State), hostRuns iface s.chip 0x6048 code.toNat = true →
    exec (.ownerLockWrite iface code) s =
      .next (s.settled s.nv (ownerLock code.toNat (hostTaken s.time iface 0x6048 s.chip)))) ∧
  (∀ (code : Word) (c : Chip),
    (ownerLock code.toNat c).upd.lock =
      (match c.upd.lock with
       | none => some code.toNat
       | some k => if code.toNat = k then none else some k) ∧
    (ownerLock code.toNat c).rdR R.UPD_LOCK = (ownerLock code.toNat c).upd.lock.isSome.toNat ∧
    RegsKept [R.UPD_LOCK.addr] c (ownerLock code.toNat c) ∧
    { ownerLock code.toNat c with regs := c.regs, upd := c.upd } = c)

/-- The judgement of a hibernate request (R476). -/
def Obligations.HibernateIsRefusedOrEntered : Prop :=
  (∀ c : Chip, hibJudge c = 0 ↔
    ¬(c.flag F.PAR_CTL_EN = true ∧ c.flag F.PAR_STAT_ACT = true ∧ c.flag F.PAR_PEER_VALID = true) ∧
    c.flt.biv = false ∧ c.flt.held = false ∧ c.rd F.REC_SEALST_STATE = 1 ∧ c.recd.windows = [] ∧
    c.flag F.UPD_RES_OPEN = false ∧ sealOnly c = false ∧ c.rd F.AO_WAKEEN_EN ≠ 0 ∧
    (∀ p, p < 4 → inForce c p = false ∧ pst c p ≠ pSRCTRANS ∧ pst c p ≠ pSNKTRANS ∧ pst c p ≠ pSWAPWAIT ∧ pst c p ≠ pSWAPOFF ∧
      pst c p ≠ pSWAPON)) ∧
  (∀ (iface : Iface) (s : State), hostRuns iface s.chip 0x405C 0xC5E70048 = true → s.chip.pwr.entering = false →
    let c := hostTaken s.time iface 0x405C s.chip
    (hibJudge c ≠ 0 →
      exec (.hibernateRequest iface) s = .next (s.settled s.nv (irq s.time 4 4 (c.wr F.PWR_STAT_HIBREF (hibJudge c))))) ∧
    (hibJudge c = 0 →
      exec (.hibernateRequest iface) s = .next (s.settled s.nv (hibRequest s.time 0xC5E70048 c)) ∧
      (hibRequest s.time 0xC5E70048 c).pwr.entering = true ∧ (hibRequest s.time 0xC5E70048 c).pwr.hibAt = s.time.tick ∧
      (hibRequest s.time 0xC5E70048 c).pwr.hibRow = 1 ∧
      RegsKept [F.PWR_STAT_HIBREF.reg.addr] c (hibRequest s.time 0xC5E70048 c))) ∧
  (∀ (t : Time) (c : Chip), c.pwr.entering = true → c.pwr.rstReq = none →
    (c.pwr.hibRow = 1 → t.tick < c.pwr.hibAt + 400 → hibRows t c = c) ∧
    (c.pwr.hibRow = 1 → c.pwr.hibAt + 400 ≤ t.tick → (hibRows t c).hibHold = true) ∧
    (c.pwr.hibRow = 2 → c.pwr.hibAt + 800 ≤ t.tick → (hibRows t c).rdR R.AO_WAKESRC = 0 ∧ (hibRows t c).pwr.hibRow = 3))

/-- Received frames that use no descriptor (R444, R445). -/
def Obligations.UnusableFramesAreDropped : Prop :=
  ∀ (n : Fin 2) (addr : BitVec 64) (frame : List Byte) (fcs : Word) (s : State), pageAlive s.chip (1 + n.val) = true →
    macOn s.chip n.val = true → s.chip.flag (F.HIF_Mn_STAT_LINK n.val) = true → sealOnly s.chip = false →
    (fcs.toNat ≠ (crc32 frame).toNat ∨ 1518 < frame.length →
      exec (.macFrameReceive n addr frame fcs) s = .next (s.settled s.nv
        (irq s.time (n.val + 1) 4 (raise s.time 0x16 0x08 n.val (s.chip.count (F.HIF_Mn_CNT_RXERR n.val)))))) ∧
    (fcs.toNat = (crc32 frame).toNat → frame.length ≤ 1518 → 60 ≤ frame.length → macAccepts s.chip n.val frame = true → rxOwned s.chip n.val = 0 →
      exec (.macFrameReceive n addr frame fcs) s = .next (s.settled s.nv
        (irq s.time (n.val + 1) 2 (s.chip.count (F.HIF_Mn_CNT_RXDROP n.val))))) ∧
    ((fcs.toNat ≠ (crc32 frame).toNat ∨ 1518 < frame.length) ∨
        60 ≤ frame.length ∧ macAccepts s.chip n.val frame = true ∧ rxOwned s.chip n.val = 0 →
      (macReceive s.time n.val addr.toNat frame fcs.toNat s.chip).hostMem = s.chip.hostMem ∧
      (macReceive s.time n.val addr.toNat frame fcs.toNat s.chip).hif.macWait = s.chip.hif.macWait)

/-- SPI write frames (R449): what a well-formed frame carries is what is written, and a frame whose CRC does not match is
discarded. -/
def Obligations.SpiWriteFramesRoundTrip : Prop :=
  ∀ (addr : BitVec 24) (ws : List Word), addr.toNat % 4 = 0 → 1 ≤ ws.length → ws.length ≤ 64 →
    let body : List Byte := [0x02, addr.extractLsb' 16 8, addr.extractLsb' 8 8, addr.extractLsb' 0 8, BitVec.ofNat 8 ws.length] ++
      ws.flatMap fun w => [w.extractLsb' 0 8, w.extractLsb' 8 8, w.extractLsb' 16 8, w.extractLsb' 24 8]
    spiWriteParse (body ++ [crc8 body]) = some (addr.toNat, ws.map BitVec.toNat) ∧
    (∀ (x : Byte) (s : State), x ≠ crc8 body → spiOn s.chip = true →
      exec (.spiWriteFrame (body ++ [x])) s = .next (s.settled s.nv (spiDiscard s.time s.chip)))

/-- A message meets the incident of its source (R376, R379, R383, R384). -/
def Obligations.MessagesOpenOrJoinTheirIncident : Prop :=
  ∀ (t : Time) (source kind addr : Nat) (c : Chip), forcedReact source kind = 0 → c.flt.queue.length < 39 →
    let l := lane c source
    let c' := raise t source kind addr c
    (l.isOpen = false → l.autoAt ≠ some t.tick →
      (lane c' source).isOpen = true ∧ (lane c' source).kinds = kind ∧
      (lane c' source).taken = selectedReact c source kind &&& 255 ∧
      c'.flt.queue = c.flt.queue ++
        [⟨source, kind, addr, t.stamps, true, selectedReact c source kind &&& 255, false, 0, addr, t.stamps, kind, t.tick⟩]) ∧
    (l.isOpen = true ∨ l.autoAt = some t.tick →
      (lane c' source).isOpen = true ∧ (lane c' source).kinds = l.kinds ||| kind ∧
      (lane c' source).taken = l.taken ||| (selectedReact c source kind &&& (255 - l.taken)) ∧
      c'.flt.queue = placeMsg
        ⟨source, kind, addr, t.stamps, false, selectedReact c source kind &&& (255 - l.taken), false, 0, addr, t.stamps, kind, t.tick⟩
        c.flt.queue) ∧
    (∀ x, x ≠ source → lane c' x = lane c x)

/-- ERR_N (R387). -/
def Obligations.ErrPinFollowsItsCauses : Prop :=
  ∀ (t : Time) (c : Chip),
    (errCause c = true → (errUpdate t c).flag F.FLT_STAT_ERR = true) ∧
    (errCause c = true → c.flag F.FLT_STAT_ERR = false → (errUpdate t c).flt.minRun = true ∧ (errUpdate t c).flt.errAt = t.tick) ∧
    (errCause c = false → c.flt.minRun = false → (errUpdate t c).flag F.FLT_STAT_ERR = false) ∧
    (errCause c = false → c.flt.minRun = true → errUpdate t c = c) ∧
    RegsKept [F.FLT_STAT_ERR.reg.addr] c (errUpdate t c) ∧
    { errUpdate t c with regs := c.regs, flt := { (errUpdate t c).flt with minRun := c.flt.minRun, errAt := c.flt.errAt } } = c

/-- BIVOUAC_COMMAND within the Bivouac (R393), and with a wrong key. -/
def Obligations.BivouacEntryWithinOnlyCounts : Prop :=
  (∀ (iface : Iface) (key : Word) (s : State), hostRuns iface s.chip 0x8068 key.toNat = true →
    let c := hostTaken s.time iface 0x8068 s.chip
    (key = 0xB1F00001 → c.flt.biv = true →
      exec (.bivouacCommand iface key) s = .next (s.settled s.nv (c.count F.FLT_BIVST_COUNT))) ∧
    (key ≠ 0xB1F00001 → exec (.bivouacCommand iface key) s = .next (s.settled s.nv c))) ∧
  (∀ c : Chip,
    (c.count F.FLT_BIVST_COUNT).rd F.FLT_BIVST_COUNT =
      min (2 ^ (F.FLT_BIVST_COUNT.hi + 1 - F.FLT_BIVST_COUNT.lo) - 1) (c.rd F.FLT_BIVST_COUNT + 1) ∧
    RegsKept [R.FLT_BIVST.addr] c (c.count F.FLT_BIVST_COUNT))

/-- REGISTRY_LOOKUP and its end (R171): lookups do not write entries. -/
def Obligations.RegistryLookupAnswersTheEntry : Prop :=
  (∀ (a : Word) (s : State), hostRuns .pcie s.chip 0x10090 a.toNat = true →
    let c := hostTaken s.time .pcie 0x10090 s.chip
    exec (.registryLookup a) s = .next (s.settled s.nv (lookupStart a.toNat c)) ∧
    (lookupStart a.toNat c).flag F.CAP_RLST_BUSY = true ∧ (lookupStart a.toNat c).rdR R.CAP_RLA = a.toNat ∧
    RegsKept [R.CAP_RLA.addr, F.CAP_RLST_BUSY.reg.addr] c (lookupStart a.toNat c)) ∧
  (∀ (t : Time) (a : Nat) (w0 w1 w2 w3 : Nat) (c : Chip), c.cap.lookup = some a → entryRead c a = some [w0, w1, w2, w3] →
    (inShelf c a && reservedElement c a) = false → w0 < 2 ^ 32 → w1 < 2 ^ 32 → w2 < 2 ^ 32 → w3 < 2 ^ 32 →
    (lookupDone t c).flag F.CAP_RLST_BUSY = false ∧
    (lookupDone t c).rdR R.CAP_RLD0 = w0 ∧ (lookupDone t c).rdR R.CAP_RLD1 = w1 ∧ (lookupDone t c).rdR R.CAP_RLD2 = w2 ∧
    (lookupDone t c).rdR R.CAP_RLD3 = w3 ∧
    (lookupDone t c).ddr = c.ddr ∧ (lookupDone t c).ctxs = c.ctxs ∧
    { lookupDone t c with regs := c.regs, cap := { (lookupDone t c).cap with lookup := some a } } = c) ∧
  (∀ (t : Time) (a : Nat) (c : Chip), c.cap.lookup = some a → (inShelf c a && reservedElement c a) = true →
    (lookupDone t c).flag F.CAP_RLST_BUSY = false ∧ (lookupDone t c).rdR R.CAP_RLD0 = 0 ∧ (lookupDone t c).ddr = c.ddr)

/-- NS_TIME_STEP (R53). -/
def Obligations.NanosecondStepAddsItsStep : Prop :=
  (∀ (hi : Word) (s : State), StateInv s → hostRuns .pcie s.chip 0xA0AC hi.toNat = true →
    let c := hostTaken s.time .pcie 0xA0AC s.chip
    exec (.nsTimeStep hi) s = .next (s.settled s.nv (nsStep hi.toNat c)) ∧
    (s.settled s.nv (nsStep hi.toNat c)).time = { s.time with ns := s.time.ns + (hi ++ BitVec.ofNat 32 (s.chip.rdR R.ANG_NSSTEP_LO)) }) ∧
  (∀ (hi : Word) (c : Chip),
    (nsStep hi.toNat c).flag F.ANG_STAT_NSDISC = true ∧ (nsStep hi.toNat c).rdR R.ANG_NSSTEP_HI = hi.toNat ∧
    RegsKept [R.ANG_NSSTEP_HI.addr, F.ANG_STAT_NSDISC.reg.addr] c (nsStep hi.toNat c) ∧
    { nsStep hi.toNat c with regs := c.regs, timeReq := c.timeReq } = c)

/-- PMB_HOST_TRANSACTION (R311). -/
def Obligations.HostTransactionWaitsItsTurn : Prop :=
  ∀ (t : Time) (v : Nat) (c : Chip), bit v 31 = true →
    (pmbOn c = true → c.flag F.PMB_HRES_BUSY = false → sealOnly c = false →
      (pmbHost t v c).flag F.PMB_HRES_BUSY = true ∧
      (pmbHost t v c).xacts =
        aheadOfCycles ⟨none, bits v 18 16, bits v 15 8, bits v 6 0, bit v 19, c.rd F.PMB_HDATA_DATA, false⟩ c.xacts ∧
      (c.xacts = [] → (pmbHost t v c).xactAt = t.tick) ∧
      RegsKept [R.PMB_HCMD.addr, F.PMB_HRES_BUSY.reg.addr] c (pmbHost t v c)) ∧
    (pmbOn c = false ∨ c.flag F.PMB_HRES_BUSY = true ∨ sealOnly c = true →
      (pmbHost t v c).xacts = c.xacts ∧ RegsKept [R.PMB_HCMD.addr] c (pmbHost t v c)) ∧
    { pmbHost t v c with regs := c.regs, xacts := c.xacts, xactAt := c.xactAt } = c

/-- MSIX_MESSAGE_SEND (R440) and its frame. -/
def Obligations.MessageReachesHostMemoryOnce : Prop :=
  ∀ (v : Fin 32) (s : State), pageAlive s.chip 0 = true →
    let c := s.chip
    let word := fun i : Nat => (Tab.get 0 c.hif.msix (4 * v.val + i)).toNat
    let addr := word 0 + 2 ^ 32 * word 1
    let may := bit c.msixDue v.val && hostReach c && c.flag F.HIF_STAT_MSIXEN && !c.flag F.HIF_STAT_FMASK && bit c.hif.msixOpen v.val
    exec (.msixMessageSend v) s = .next (s.settled s.nv (msixSend v.val c)) ∧
    (may = false → msixSend v.val c = c) ∧
    (may = true →
      (∀ i, i < 4 → Tab.get 0 (msixSend v.val c).hostMem (addr + i) = BitVec.ofNat 8 (word 2 / 2 ^ (8 * i))) ∧
      (∀ a, a < addr ∨ addr + 4 ≤ a → Tab.get 0 (msixSend v.val c).hostMem a = Tab.get 0 c.hostMem a) ∧
      bit (msixSend v.val c).msixDue v.val = false ∧
      { msixSend v.val c with hostMem := c.hostMem, msixDue := c.msixDue } = c)

/-- The reported state of charge of a module (R205), with the cut-off of R208. -/
def Obligations.ChargeNeverRisesInDischarge : Prop :=
  ∀ (t : Time) (m : Nat) (c : Chip),
    let est := socI { batMod c m with vocv := vocvOf c m (modIb c m) }
    let new := (batMod (stateStep t m c) m).socr
    (atLeast (modIb c m) (c.rd F.BAT_EST_IREST) = true → new ≤ (batMod c m).socr ∧ new ≤ est) ∧
    (atLeast (modIb c m) (c.rd F.BAT_EST_IREST) = false → new = est ∨ new = 0)

/-- ACK_RECEIVED on the wire (R253–R255). -/
def Obligations.AcknowledgementsMatchTheirPacket : Prop :=
  ∀ (p id : Nat) (c : Chip),
    ((port c p).waiting = none → ackReceived p id c = (c, none)) ∧
    (∀ k, linkUp c p = true → (port c p).waiting = some k →
      (id ≠ (if k.ty = 0x08 then 0 else (port c p).tx) → ackReceived p id c = (c, none)) ∧
      (id = (if k.ty = 0x08 then 0 else (port c p).tx) →
        (ackReceived p id c).2 = some k ∧
        (port (ackReceived p id c).1 p).waiting = none ∧ (port (ackReceived p id c).1 p).tries = 0 ∧
        (port (ackReceived p id c).1 p).tx = (if k.ty = 0x08 then 1 else ((port c p).tx + 1) % 8) ∧
        (∀ q, q ≠ p → port (ackReceived p id c).1 q = port c q) ∧
        RegsKept [(F.CPp_CNT2_TXOK p).reg.addr] c (ackReceived p id c).1))

/-- What reset leaves (R37, R470); the words of the three registers that show the supplies and the cause are the model's (log 4). -/
def Obligations.ResetLeavesWhatTheSpecSays : Prop :=
  State.reset.pending = [] ∧ State.reset.time.running = true ∧ State.reset.time.stamp = 0x000000010000#48 ∧
  State.reset.time.ns = 0 ∧ State.reset.time.nsFrac = 0 ∧
  State.reset.chip.shadow = [] ∧ State.reset.chip.flt.lanes = [] ∧ State.reset.chip.flt.biv = false ∧
  State.reset.chip.due = [] ∧ State.reset.chip.msixDue = 0 ∧ State.reset.chip.hostMem = [] ∧
  State.reset.nv.flash = [] ∧ secFloor State.reset.nv = 0 ∧
  (∀ r : Reg, r.addr ∉ [R.PWR_STAT.addr, R.PWR_MON.addr, R.PWR_RSTCAUSE.addr] →
    State.reset.chip.rdR r = r.reset.toNat)

/-- The line code of packets (R245–R248, R251) and their reception up to check 4 of R252. -/
def Obligations.PacketsReadBackAsSent : Prop :=
  (∀ (hdr : Nat) (objs : List Nat), hdr < 2 ^ 16 → objs.length = hdrObjs hdr → (∀ x ∈ objs, x < 2 ^ 32) →
    let b := packetBytes hdr objs
    let body := symsOf (b ++ bytesLE 4 (crc32 b).toNat)
    packetSyms hdr objs = startSet ++ body ++ [symET] ∧
    (packetBits hdr objs).length = 64 + 20 + 10 * (6 + 4 * objs.length) + 5 ∧
    (∀ set : List Sym, isSet startSet set = true → heard set body true = .packet hdr objs ∧ heard set body false = .bad) ∧
    (∀ (set : List Sym) (x : Nat), isSet startSet set = true → x < 2 ^ 32 → x ≠ (crc32 b).toNat →
      heard set (symsOf (b ++ bytesLE 4 x)) true = .bad)) ∧
  (∀ set : List Sym, isSet startSet set = true → isSet resetSet set = false)

/-- The five windows (R230), and what a change of level leaves of them. -/
def Obligations.WindowsFollowTheThresholds : Prop :=
  (∀ (c : Chip) (mv : Nat),
    let l := 20 * c.rd F.CPT_WIN_LOWTOP
    let s := 20 * c.rd F.CPT_WIN_SINKTOP
    let m := 20 * c.rd F.CPT_WIN_MARKTOP
    let o := 20 * c.rd F.CPT_WIN_OPENTOP
    l ≤ s → s ≤ m → m ≤ o →
    (windowOf c mv = 0 ↔ mv < l) ∧ (windowOf c mv = 1 ↔ l ≤ mv ∧ mv < s) ∧ (windowOf c mv = 2 ↔ s ≤ mv ∧ mv < m) ∧
    (windowOf c mv = 3 ↔ m ≤ mv ∧ mv < o) ∧ (windowOf c mv = 4 ↔ o ≤ mv)) ∧
  (∀ (t : Time) (p : Fin 4) (wire : Fin 3) (mv : Nat) (c : Chip), portOn c p.val = true → bankUp c 2 = true →
    let win := fun (q w : Nat) => match w with
      | 0 => F.CPp_STAT_WINA q | 1 => F.CPp_STAT_WINB q | _ => F.CPp_STAT_WINCL q
    (windowChange t p.val wire.val mv c).1.rd (win p.val wire.val) = windowOf c mv ∧
    (∀ (q : Fin 4) (w : Fin 3), q ≠ p ∨ w ≠ wire →
      (windowChange t p.val wire.val mv c).1.rd (win q.val w.val) = c.rd (win q.val w.val)) ∧
    (c.rd (win p.val wire.val) = windowOf c mv → windowChange t p.val wire.val mv c = (c, false)))

/-- Checks 1–5 of R298 and what a failing frame leaves. -/
def Obligations.BadFramesReachNoContext : Prop :=
  (∀ (t : Time) (f : RxFrame) (cls ty : Nat) (lenOk up down : Bool) (c : Chip), segOn c f.seg = true →
    (f.clean = false ∨ crc32 (rxBytes c f cls ty) ≠ f.crc ∨ lenOk = false ∨ (segCtl c f.seg = true ∧ up = false) ∨
      (segPart c f.seg = true ∧ down = false)) →
    let r := receive t f cls ty lenOk up down c
    r.2 = none ∧
    r.1.rd (F.SLK_SEGn_CNT_DISC f.seg) =
      min (2 ^ ((F.SLK_SEGn_CNT_DISC f.seg).hi + 1 - (F.SLK_SEGn_CNT_DISC f.seg).lo) - 1) (c.rd (F.SLK_SEGn_CNT_DISC f.seg) + 1) ∧
    RegsKept [(F.SLK_SEGn_CNT_DISC f.seg).reg.addr] c r.1 ∧
    (∀ i, ({ ctx r.1 i with rxdisc := (ctx c i).rxdisc } : Ctx) = ctx c i)) ∧
  (∀ (t : Time) (f : RxFrame) (cls ty : Nat) (lenOk up down : Bool) (c : Chip), segOn c f.seg = false →
    receive t f cls ty lenOk up down c = (c, none))

/-- The allocation of a demand (R126, R127). -/
def Obligations.SharesMakeUpTheDemand : Prop :=
  ∀ (c : Chip) (d : Int),
    ((List.range 8).map fun i => Tab.get 0 (divide c d).1 i).sum + (divide c d).2 = d ∧
    (∀ i, srcAvail c i = false → Tab.get 0 (divide c d).1 i = 0) ∧
    (∀ i, i < 8 → srcAvail c i = true → srcKind c i ≠ 1 ∨ exportNow c ≤ 0 → (limitsOf c i).1 ≤ (limitsOf c i).2 →
      (limitsOf c i).1 ≤ Tab.get 0 (divide c d).1 i ∧ Tab.get 0 (divide c d).1 i ≤ (limitsOf c i).2)

/-- Happenings of time that come before their time (R42, R48, R80, R123, R161, R217, R255, R302, R427, R430, R453, R473, R470,
R477); the ticks are those of log 9. -/
def Obligations.EventsThatComeEarlyChangeNothing : Prop :=
  ∀ (t : Time) (c : Chip),
    (∀ a, c.ang.badAt = some a → t.tick < a + c.rd F.ANG_PLL_UNLKTIME * 400000 → unlockDeclared t c = c) ∧
    (t.tick < c.ang.holdAt + c.rd F.ANG_HOLD_MAXT * 40000000 → holdoverExpired t c = c) ∧
    (∀ k, t.tick < (group c k).annAt + 400000 * c.rd (F.LEG_Gk_SHED_ANNTO k) → shedTimeout t k c = c) ∧
    (∀ a, c.bus.uvAt = some a → t.tick < a + 4000000 * c.rd F.BUS_MONT_UVT → busUnder t c = c) ∧
    (∀ level, t.tick < Tab.get 0 c.cap.gotAt level + grantTo c → grantLost t level c = c) ∧
    (∀ a, c.bat.calmAt = some a → t.tick < a + 400000000 * c.rd F.BAT_HIB_THIB → idleEnter t c = c) ∧
    (∀ p, t.tick < (port c p).clk.waitAt + 4000 * c.rd F.CPT_LINK_ACKWAIT → ackTimeout t p c = (c, none)) ∧
    (∀ n g a, (seg c n).grant = some g → g.sentAt = some a → t.tick ≤ a + 1000 → missedPoll t n c = (c, none)) ∧
    (t.tick ≤ c.pwr.runFrom + c.rd F.UPD_CTL_CONFT * 24000000000 → autoConfirm t c = c) ∧
    (t.tick < c.upd.since + 240000000000 → motionStuck t c = c) ∧
    (∀ (iface : Iface) (p : Nat), t.tick < Tab.get 0 c.wroteAt (ifaceKey iface p) + 400000 → unlockLapse t iface p c = c) ∧
    (t.tick < c.pwr.rstAt + 800 → resetApply t c = c) ∧
    (t.tick < c.pwr.heldAt + 4000 → resetEnd t c = c) ∧
    (t.tick < c.pwr.psenAt + 800000 → psenHoldEnd t c = c)

/-! ### Where each command completes -/

/-- Page header, lock, commit and host interface commands: where each completes, and its own effect. -/
def Obligations.PageAndHostCommandsComplete : Prop :=
  (∀ (iface : Iface) (off : BitVec 24) (v : Word) (s : State), off.toNat % 4 = 0 →
      let c := noticed s.time off.toNat (hostTaken s.time iface off.toNat s.chip)
      (∀ r, hostMay iface s.chip off.toNat = true → wordFits off.toNat v.toNat = true → accessRow off.toNat = some r →
        headerWrite s.time iface s.nv (off.toNat / 4096) (off.toNat % 4096) v.toNat c = none → specialWrite s.time off.toNat
            v.toNat s.nv c = none →
        exec (.registerWrite iface off v true) s = .next (s.settled s.nv
          (noteSpi s.time iface off.toNat (storeWord s.time off.toNat (spiStands s.time iface off.toNat v.toNat r c) r c)))) ∧
      (∀ x, hostMay iface s.chip off.toNat = true → wordFits off.toNat v.toNat = true →
        headerWrite s.time iface s.nv (off.toNat / 4096) (off.toNat % 4096) v.toNat c = some x →
        exec (.registerWrite iface off v true) s = .next (s.settled s.nv x)) ∧
      (∀ x, hostRuns iface s.chip off.toNat v.toNat = true →
        headerWrite s.time iface s.nv (off.toNat / 4096) (off.toNat % 4096) v.toNat c = none → specialWrite s.time off.toNat
            v.toNat s.nv c = some x →
        exec (.registerWrite iface off v true) s = .next (s.settled x.1 x.2))) ∧
  (∀ (iface : Iface) (off : BitVec 24) (s : State),
      let o := off.toNat / 4 * 4
      let c := hostAccess s.chip
      hostSees iface s.chip o = true →
      (o % 4096 = 0 → exec (.rcRegisterRead iface off) s = .next (s.settled s.nv (returns [pageId (o / 4096)] c))) ∧
      (o % 4096 = 4 → exec (.rcRegisterRead iface off) s = .next (s.settled s.nv (returns [pageCap (o / 4096)] c))) ∧
      (o % 4096 = 0x18 → exec (.rcRegisterRead iface off) s = .next (s.settled s.nv (returns [irqPend c (o / 4096)] c))) ∧
      (∀ r, o % 4096 ≠ 0 → o % 4096 ≠ 4 → o % 4096 ≠ 0x18 → specialRead s.time o s.nv c = none → accessRow o = some r →
        exec (.rcRegisterRead iface off) s = .next (s.settled s.nv
          (returns [(loadWord o r (liveRefresh s.time (o / 4096) c)).2] (loadWord o r (liveRefresh s.time (o / 4096) c)).1)))
              ∧
      (∀ x, o % 4096 ≠ 0 → o % 4096 ≠ 4 → o % 4096 ≠ 0x18 → specialRead s.time o s.nv c = some x →
        exec (.rcRegisterRead iface off) s = .next (s.settled s.nv (returns [x.2] x.1)))) ∧
  (∀ (iface : Iface) (p : Fin 25) (v : Word) (s : State), hostMay iface s.chip (pageWord p 0x20) = true →
      let c := hostTaken s.time iface (pageWord p 0x20) s.chip
      exec (.pageUnlock iface p v) s = .next (s.settled s.nv (keyWrite s.time iface p.val v.toNat (noticed s.time (pageWord p
          0x20) c)))) ∧
  (∀ (iface : Iface) (p : Fin 25) (s : State), awake s.chip = true →
      exec (.pageUnlockTimeout iface p) s = .next (s.settled s.nv (unlockLapse s.time iface p.val s.chip))) ∧
  (∀ (iface : Iface) (p : Fin 25) (s : State), hostMay iface s.chip (pageWord p 0x08) = true →
      let c := hostTaken s.time iface (pageWord p 0x08) s.chip
      exec (.pageLock iface p) s = .next (s.settled s.nv (ctlWrite s.time s.nv p.val (ctlWith p 4 c) (noticed s.time (pageWord
          p 0x08) c)))) ∧
  (∀ (iface : Iface) (p : Fin 25) (s : State), hostMay iface s.chip (pageWord p 0x08) = true →
      let c := hostTaken s.time iface (pageWord p 0x08) s.chip
      exec (.pageBlockReset iface p) s = .next (s.settled s.nv (ctlWrite s.time s.nv p.val (ctlWith p 2 c) (noticed s.time
          (pageWord p 0x08) c)))) ∧
  (∀ (iface : Iface) (p : Fin 25) (s : State), hostMay iface s.chip (pageWord p 0x08) = true →
      let c := hostTaken s.time iface (pageWord p 0x08) s.chip
      exec (.blockLogicHold iface p) s = .next (s.settled s.nv (ctlWrite s.time s.nv p.val 0 (noticed s.time (pageWord p 0x08)
          c)))) ∧
  (∀ (iface : Iface) (p : Fin 25) (s : State), hostMay iface s.chip (pageWord p 0x08) = true →
      let c := hostTaken s.time iface (pageWord p 0x08) s.chip
      exec (.blockLogicRelease iface p) s = .next (s.settled s.nv (ctlWrite s.time s.nv p.val 1 (noticed s.time (pageWord p
          0x08) c)))) ∧
  (∀ (iface : Iface) (p : Fin 25) (s : State), hostMay iface s.chip (pageWord p 0x28) = true → (p.val = 0x0A →
      s.chip.ang.early = 0) →
      let c := hostTaken s.time iface (pageWord p 0x28) s.chip
      exec (.commitImmediate iface p) s = .next (s.settled s.nv (endUnlock iface p.val (commitWrite s.time s.nv p.val 1
          (noticed s.time (pageWord p 0x28) c))))) ∧
    (∀ (iface : Iface) (p : Fin 25) (s : State), p.val = 0x0A → s.chip.ang.early ≠ 0 →
      exec (.commitImmediate iface p) s = .next (s.settled s.nv (modAng (fun a => { a with early := a.early - 1 }) s.chip))) ∧
  (∀ (iface : Iface) (p : Fin 25) (k : Fin 8) (s : State), hostMay iface s.chip (pageWord p 0x28) = true →
      let c := hostTaken s.time iface (pageWord p 0x28) s.chip
      exec (.commitAtBoundary iface p k) s = .next (s.settled s.nv (endUnlock iface p.val (commitWrite s.time s.nv p.val (2 +
          16 * k.val) (noticed s.time (pageWord p 0x28) c))))) ∧
  (∀ (iface : Iface) (p : Fin 25) (angle : BitVec 16) (cyc : Byte) (s : State), hostMay iface s.chip (pageWord p 0x28) = true
      →
      let c := hostTaken s.time iface (pageWord p 0x28) s.chip
      exec (.commitAtAngle iface p angle cyc) s = .next (s.settled s.nv (endUnlock iface p.val (commitWrite s.time s.nv p.val
          (3 + 256 * cyc.toNat + 65536 * angle.toNat) (noticed s.time (pageWord p 0x28) c))))) ∧
  (∀ (p : Fin 25) (s : State), awake s.chip = true →
      exec (.pendingCommitApply p) s = .next (s.settled s.nv (pendingApply s.time s.nv p.val s.chip))) ∧
  (∀ (v : Fin 32) (s : State), pageAlive s.chip 0 = true →
      exec (.msixMessageSend v) s = .next (s.settled s.nv (msixSend v.val s.chip))) ∧
  (∀ (iface : Iface) (w : Word) (s : State), hostRuns iface s.chip 0x84 w.toNat = true →
      let c := hostTaken s.time iface 0x84 s.chip
      exec (.endOfInterrupt iface w) s = .next (s.settled s.nv (endOfInterrupt w.toNat c))) ∧
  (∀ (k : Fin 32) (s : State), pageAlive s.chip 0 = true →
      exec (.ringInterruptTimeout k) s = .next (s.settled s.nv (ringTimeout s.time k.val s.chip))) ∧
  (∀ (err : Bool) (s : State), pageAlive s.chip 0 = true →
      exec (.pcieReset err) s = .next (s.settled s.nv (pcieReset s.time err s.chip))) ∧
  (∀ (n : Fin 2) (addr : BitVec 64) (frame : List Byte) (fcs : Word) (s : State), pageAlive s.chip (1 + n.val) = true →
      exec (.macFrameReceive n addr frame fcs) s = .next (s.settled s.nv (macReceive s.time n.val addr.toNat frame fcs.toNat
          s.chip))) ∧
  (∀ (n : Fin 2) (rx : Bool) (v : Word) (s : State), hostRuns .pcie s.chip ((1 + n.val) * 4096 + (if rx then 0x68 else 0x64))
      v.toNat = true →
      let c := hostTaken s.time .pcie ((1 + n.val) * 4096 + (if rx then 0x68 else 0x64)) s.chip
      exec (.macTailWrite n rx v) s = .next (s.settled s.nv (macTail n.val rx v.toNat c))) ∧
  (∀ (n : Fin 2) (len : BitVec 16) (frame : List Byte) (s : State), pageAlive s.chip (1 + n.val) = true →
      exec (.macFrameTransmit n len frame) s = .next (s.settled s.nv (macTransmit s.time n.val len.toNat frame s.chip))) ∧
  (∀ (iface : Iface) (s : State), hostRuns iface s.chip 0xB8 1 = true →
      let c := hostTaken s.time iface 0xB8 s.chip
      exec (.ptpSyncOnly iface) s = .next (s.settled s.nv (ptpOp s.time 1 c))) ∧
  (∀ (iface : Iface) (s : State), hostRuns iface s.chip 0xB8 2 = true →
      let c := hostTaken s.time iface 0xB8 s.chip
      exec (.ptpFullExchange iface) s = .next (s.settled s.nv (ptpOp s.time 2 c))) ∧
  (∀ (bytes : List Byte) (x : Nat × List Nat) (s : State), spiOn s.chip = true → spiWriteParse bytes = some x → s.chip.flag
      F.HIF_CTL_SPIWR = true →
      exec (.spiWriteFrame bytes) s = .next (s.settled (spiWriteWords s.time x.1 x.2 s.nv (modHif (fun h =>
          { h with spiDone := true, spiBad := false }) (s.chip.count F.HIF_SPICNT_OK))).1
        (spiWriteWords s.time x.1 x.2 s.nv (modHif (fun h => { h with spiDone := true, spiBad := false }) (s.chip.count
            F.HIF_SPICNT_OK))).2)) ∧
  (∀ (addr : BitVec 24) (n : Fin 65) (s : State), spiOn s.chip = true →
      let c := spiReadWords s.time s.nv addr.toNat n.val (spiReadCount (hostAccess s.chip))
      exec (.spiReadFrame addr n) s = .next (s.settled s.nv (returns (spiAnswer addr.toNat n.val c.2) c.1))) ∧
  (∀ (s : State), spiOn s.chip = true →
      exec .spiStatusRead s = .next (s.settled s.nv (spiStatus s.chip))) ∧
  (∀ (speed : Fin 8) (width : Fin 4) (bme : Bool) (msixEn : Bool) (fmask : Bool) (s : State), pageAlive s.chip 0 = true →
      exec (.pcieLinkUp speed width bme msixEn fmask) s = .next (s.settled s.nv (pcieUp s.time speed.val width.val bme msixEn
          fmask s.chip))) ∧
  (∀ (n : Fin 2) (seen : LinkSeen) (speed : Fin 4) (s : State), pageAlive s.chip (1 + n.val) = true →
      exec (.macLinkChange n seen speed) s = .next (s.settled s.nv (macLink s.time n.val seen speed.val s.chip)))

/-- Angle clock, nanosecond time and schedule commands: where each completes, and its own effect. -/
def Obligations.AngleCommandsComplete : Prop :=
  (∀ (k : Fin 1024) (s : State), pageAlive s.chip 0x0A = true →
      exec (.schedNone k) s = .next (s.settled s.nv (schedDue s.time 0x00 k.val (dueCommits s.time s.nv 0x18 s.chip)))) ∧
  (∀ (k : Fin 1024) (s : State), pageAlive s.chip 0x0A = true →
      exec (.schedTriggerSlot k) s = .next (s.settled s.nv (schedDue s.time 0x01 k.val (dueCommits s.time s.nv 0x18 s.chip)))) ∧
  (∀ (k : Fin 1024) (s : State), pageAlive s.chip 0x0A = true →
      exec (.schedStartConversion k) s = .next (s.settled s.nv (schedDue s.time 0x02 k.val (dueCommits s.time s.nv 0x18
          s.chip)))) ∧
  (∀ (k : Fin 1024) (s : State), pageAlive s.chip 0x0A = true →
      exec (.schedDropShedPhase k) s = .next (s.settled s.nv (schedDue s.time 0x03 k.val (dueCommits s.time s.nv 0x18
          s.chip)))) ∧
  (∀ (k : Fin 1024) (s : State), pageAlive s.chip 0x0A = true →
      exec (.schedAddPhases k) s = .next (s.settled s.nv (schedDue s.time 0x04 k.val (dueCommits s.time s.nv 0x18 s.chip)))) ∧
  (∀ (k : Fin 1024) (s : State), pageAlive s.chip 0x0A = true →
      exec (.schedEfuseOn k) s = .next (s.settled s.nv (schedDue s.time 0x05 k.val (dueCommits s.time s.nv 0x18 s.chip)))) ∧
  (∀ (k : Fin 1024) (s : State), pageAlive s.chip 0x0A = true →
      exec (.schedEfuseOff k) s = .next (s.settled s.nv (schedDue s.time 0x06 k.val (dueCommits s.time s.nv 0x18 s.chip)))) ∧
  (∀ (k : Fin 1024) (s : State), pageAlive s.chip 0x0A = true →
      exec (.schedReleaseFrames k) s = .next (s.settled s.nv (schedDue s.time 0x07 k.val (dueCommits s.time s.nv 0x18
          s.chip)))) ∧
  (∀ (k : Fin 1024) (s : State), pageAlive s.chip 0x0A = true →
      exec (.schedRecorderMarker k) s = .next (s.settled s.nv (schedDue s.time 0x08 k.val (dueCommits s.time s.nv 0x18
          s.chip)))) ∧
  (∀ (k : Fin 1024) (s : State), pageAlive s.chip 0x0A = true →
      exec (.schedHostEvent k) s = .next (s.settled s.nv (schedDue s.time 0x09 k.val (dueCommits s.time s.nv 0x18 s.chip)))) ∧
  (∀ (s : State), pageAlive s.chip 0x0A = true →
      exec .bankCopyDone s = .next (s.settled s.nv (bankCopyDone s.time s.chip))) ∧
  (∀ (auto : Bool) (s : State), hostRuns .pcie s.chip 0xA09C (1 + 16 * auto.toNat) = true →
      let c := hostTaken s.time .pcie 0xA09C s.chip
      exec (.scheduleReadEntry auto) s = .next (s.settled s.nv (schedHostWrite s.time 0x9C (1 + 16 * auto.toNat) c))) ∧
  (∀ (auto : Bool) (s : State), hostRuns .pcie s.chip 0xA09C (2 + 16 * auto.toNat) = true →
      let c := hostTaken s.time .pcie 0xA09C s.chip
      exec (.scheduleWriteEntry auto) s = .next (s.settled s.nv (schedHostWrite s.time 0x9C (2 + 16 * auto.toNat) c))) ∧
  (∀ (auto : Bool) (s : State), hostRuns .pcie s.chip 0xA09C (3 + 16 * auto.toNat) = true →
      let c := hostTaken s.time .pcie 0xA09C s.chip
      exec (.scheduleClearBank auto) s = .next (s.settled s.nv (schedHostWrite s.time 0x9C (3 + 16 * auto.toNat) c))) ∧
  (∀ (s : State), pageAlive s.chip 0x0A = true →
      let x := angCommits s.time s.pending s.nv s.chip
      exec .lockAcquired s = .next (s.settled x.1 (angToBus s.time x.2 (lockAcquired s.time x.2)))) ∧
  (∀ (s : State), pageAlive s.chip 0x0A = true →
      let x := angCommits s.time s.pending s.nv s.chip
      exec .unlockDeclared s = .next (s.settled x.1 (angToBus s.time x.2 (unlockDeclared s.time x.2)))) ∧
  (∀ (s : State), pageAlive s.chip 0x0A = true →
      let x := angCommits s.time s.pending s.nv s.chip
      exec .supplyLossDeclared s = .next (s.settled x.1 (supplyLossToBus s.time x.2))) ∧
  (∀ (s : State), pageAlive s.chip 0x0A = true →
      let x := angCommits s.time s.pending s.nv s.chip
      exec .supplyPresent s = .next (s.settled x.1 (angToBus s.time x.2 (supplyPresent s.time x.2)))) ∧
  (∀ (reversed : Bool) (s : State), pageAlive s.chip 0x0A = true →
      let x := angCommits s.time s.pending s.nv s.chip
      exec (.outOfBand reversed) s = .next (s.settled x.1 (angToBus s.time x.2 (outOfBand s.time reversed x.2)))) ∧
  (∀ (s : State), pageAlive s.chip 0x0A = true →
      let x := angCommits s.time s.pending s.nv s.chip
      exec .dcDetected s = .next (s.settled x.1 (angToBus s.time x.2 (dcDetected s.time x.2)))) ∧
  (∀ (s : State), pageAlive s.chip 0x0A = true →
      exec .pauseEnd s = .next (s.settled s.nv (pauseEnd s.time s.chip))) ∧
  (∀ (s : State), pageAlive s.chip 0x0A = true →
      let x := angCommits s.time s.pending s.nv s.chip
      exec .holdoverExpired s = .next (s.settled x.1 (angToBus s.time x.2 (if presentWaits s.pending x.2 then x.2 else
          holdoverExpired s.time x.2)))) ∧
  (∀ (s : State), pageAlive s.chip 0x0A = true →
      let x := angCommits s.time s.pending s.nv s.chip
      exec .plannedHoldoverStart s = .next (s.settled x.1 (plannedToBus s.time x.2))) ∧
  (∀ (s : State), pageAlive s.chip 0x0A = true →
      let x := angCommits s.time s.pending s.nv s.chip
      exec .plannedWindowEnd s = .next (s.settled x.1 (windowEndToBus s.time x.2))) ∧
  (∀ (s : State), pageAlive s.chip 0x0A = true →
      exec .driftUpdate s = .next (s.settled s.nv (driftUpdate s.time s.chip))) ∧
  (∀ (s : State), pageAlive s.chip 0x0A = true →
      exec .cycleStart s = .next (s.settled s.nv (cycleBegins s.time s.chip))) ∧
  (∀ (s : State), hostSees .pcie s.chip 0xA06C = true →
      let c := hostAccess s.chip
      exec .angleNowRead s = .next (s.settled s.nv (returns [(angleNow s.time c).2] (angleNow s.time c).1))) ∧
  (∀ (hi : Word) (s : State), hostRuns .pcie s.chip 0xA0AC hi.toNat = true →
      let c := hostTaken s.time .pcie 0xA0AC s.chip
      exec (.nsTimeStep hi) s = .next (s.settled s.nv (nsStep hi.toNat c))) ∧
  (∀ (v : Word) (s : State), hostRuns .pcie s.chip 0xA0A4 v.toNat = true →
      let c := hostTaken s.time .pcie 0xA0A4 s.chip
      exec (.nsRateAdjust v) s = .next (s.settled s.nv (nsRate v.toNat c)))

/-- Leg, sensing and Step Catch commands: where each completes, and its own effect. -/
def Obligations.LegAndSensingCommandsComplete : Prop :=
  (∀ (j : Fin 4) (code : BitVec 16) (s : State), pageAlive s.chip 0x0C = true →
      exec (.slowConversion j code) s = .next (s.settled s.nv (slowReading s.time j.val code.toNat s.chip))) ∧
  (∀ (k : Fin 6) (half : Bool) (s : State), pageAlive s.chip 0x0B = true →
      exec (.pwmPeriodBoundary k half) s = .next (s.settled s.nv (boundary s.time s.nv k.val half s.chip))) ∧
  (∀ (k : Fin 6) (s : State), pageAlive s.chip 0x0B = true →
      exec (.shedAnnounceTimeout k) s = .next (s.settled s.nv (shedTimeout s.time k.val s.chip))) ∧
  (∀ (v : Word) (s : State), hostRuns .pcie s.chip 0xB300 v.toNat = true →
      let c := hostTaken s.time .pcie 0xB300 s.chip
      exec (.legForceOff v) s = .next (s.settled s.nv (forceOff v.toNat c))) ∧
  (∀ (n : Fin 16) (s : State), pageAlive s.chip 0x0C = true →
      exec (.fastConversionStart n) s = .next (s.settled s.nv (finStart s.time n.val s.chip))) ∧
  (∀ (n : Fin 16) (raw : BitVec 14) (s : State), pageAlive s.chip 0x0C = true →
      exec (.fastReadingReady n raw) s = .next (s.settled s.nv (fastReading s.time n.val raw.toInt s.chip))) ∧
  (∀ (fast : Bool) (n : Fin 32) (moved : BitVec 16) (s : State), pageAlive s.chip 0x0C = true → (fast = true → n.val < 16) →
      exec (.openWireTest fast n moved) s = .next (s.settled s.nv (openWireTest s.time fast n.val moved.toNat s.chip))) ∧
  (∀ (e : CmpSeen) (s : State), pageAlive s.chip 0x0D = true →
      exec (.comparatorAssert e) s = .next (s.settled s.nv (if seenAssert s.chip e then cmpAssert s.time e.n.val s.chip else
          s.chip))) ∧
  (∀ (e : CmpSeen) (s : State), pageAlive s.chip 0x0D = true →
      exec (.comparatorRelease e) s = .next (s.settled s.nv (if seenRelease s.chip e then cmpRelease s.time e.n.val s.chip
          else s.chip))) ∧
  (∀ (v : Word) (s : State), hostRuns .pcie s.chip 0xD074 v.toNat = true →
      let c := hostTaken s.time .pcie 0xD074 s.chip
      exec (.tripClear v) s = .next (s.settled s.nv (tripClear s.time v.toNat c))) ∧
  (∀ (n : Fin 24) (s : State), pageAlive s.chip 0x0D = true →
      exec (.heldClearApply n) s = .next (s.settled s.nv (heldClearApply s.time n.val s.chip))) ∧
  (∀ (n : Fin 24) (s : State), pageAlive s.chip 0x0D = true →
      exec (.chatterDetected n) s = .next (s.settled s.nv (cmpChatter s.time n.val s.chip))) ∧
  (∀ (k : Fin 6) (s : State), pageAlive s.chip 0x0B = true →
      exec (.stepCatchFire k) s = .next (s.settled s.nv (catchFire s.time k.val s.chip))) ∧
  (∀ (k : Fin 6) (s : State), pageAlive s.chip 0x0B = true →
      exec (.stepCatchEnd k) s = .next (s.settled s.nv (catchEnd s.time k.val s.chip))) ∧
  (∀ (k : Fin 6) (s : State), pageAlive s.chip 0x0B = true →
      exec (.catchHoldoffEnd k) s = .next (s.settled s.nv (holdoffEnd s.time k.val s.chip))) ∧
  (∀ (k : Fin 6) (s : State), pageAlive s.chip 0x0B = true →
      exec (.shedFreezeEnd k) s = .next (s.settled s.nv (freezeEnd s.time k.val s.chip))) ∧
  (∀ (s : State), pageAlive s.chip 0x0B = true →
      exec .pwmAlignmentLost s = .next (s.settled s.nv (alignLost s.time s.chip)))

/-- Control engine commands: where each completes, and its own effect. -/
def Obligations.EngineCommandsComplete : Prop :=
  (∀ (v : Word) (s : State), hostRuns .pcie s.chip 0xE04C v.toNat = true →
      let c := hostTaken s.time .pcie 0xE04C s.chip
      exec (.cenHostTrigger v) s = .next (s.settled s.nv (hostTriggers s.time v.toNat c))) ∧
  (∀ (sl : Fin 32) (s : State), pageAlive s.chip 0x0E = true →
      exec (.deferredHostTrigger sl) s = .next (s.settled s.nv (deferredTrigger s.time sl.val s.chip))) ∧
  (∀ (s : State), pageAlive s.chip 0x0E = true →
      exec .cenIteration s = .next (s.settled s.nv (engineRun s.time s.nv s.chip))) ∧
  (∀ (v : Word) (s : State), hostRuns .pcie s.chip 0xE050 v.toNat = true →
      let c := hostTaken s.time .pcie 0xE050 s.chip
      exec (.seedRequest v) s = .next (s.settled s.nv (seedRequest v.toNat c))) ∧
  (∀ (v : Word) (s : State), hostRuns .pcie s.chip 0xE058 v.toNat = true →
      let c := hostTaken s.time .pcie 0xE058 s.chip
      exec (.coefficientWrite v) s = .next (s.settled s.nv (cdataWrite s.time v.toNat c))) ∧
  (∀ (s : State), hostSees .pcie s.chip 0xE058 = true →
      let c := hostAccess s.chip
      exec .coefficientRead s = .next (s.settled s.nv (returns [(cdataRead c).2] (cdataRead c).1)))

/-- Bus regulation and hold-up commands: where each completes, and its own effect. -/
def Obligations.BusCommandsComplete : Prop :=
  (∀ (s : State), pageAlive s.chip 0x0F = true →
      exec .busUndervoltage s = .next (s.settled s.nv (busUnder s.time s.chip))) ∧
  (∀ (s : State), pageAlive s.chip 0x0F = true →
      exec .busOvervoltage s = .next (s.settled s.nv (busOver s.time s.chip))) ∧
  (∀ (s : State), pageAlive s.chip 0x0F = true →
      exec .demandUnmet s = .next (s.settled s.nv (demandUnmet s.time s.chip))) ∧
  (∀ (k : Fin 8) (s : State), pageAlive s.chip 0x0F = true →
      exec (.sharingError k) s = .next (s.settled s.nv (sharingError s.time k.val s.chip))) ∧
  (∀ (s : State), pageAlive s.chip 0x0F = true →
      exec .setpointSend s = .next (s.settled s.nv (setPointSend s.time (busRefresh s.time s.chip)))) ∧
  (∀ (n : Fin 8) (s : State), pageAlive s.chip 0x0F = true →
      exec (.channelDroopEnter n) s = .next (s.settled s.nv (reportLost s.time n.val s.chip))) ∧
  (∀ (s : State), pageAlive s.chip 0x0F = true →
      exec .busDipDetect s = .next (s.settled s.nv (busDip s.time s.chip))) ∧
  (∀ (s : State), pageAlive s.chip 0x0F = true →
      exec .takeoverLate s = .next (s.settled s.nv (takeoverLate s.time s.chip))) ∧
  (∀ (s : State), pageAlive s.chip 0x0F = true →
      exec .noticePrepStart s = .next (s.settled s.nv (prepPassed s.time s.chip))) ∧
  (∀ (s : State), pageAlive s.chip 0x0F = true →
      exec .rampStart s = .next (s.settled s.nv (rampStart s.time s.chip))) ∧
  (∀ (s : State), pageAlive s.chip 0x0F = true →
      exec .rampEnd s = .next (s.settled s.nv (openWindow s.time (rampEnd s.time s.chip)))) ∧
  (∀ (s : State), pageAlive s.chip 0x0F = true →
      exec .lineFactorStep s = .next (s.settled s.nv (openWindow s.time (lineStep s.time s.chip)))) ∧
  (∀ (s : State), pageAlive s.chip 0x0F = true →
      exec .returnStart s = .next (s.settled s.nv (returnStart s.time s.chip))) ∧
  (∀ (form : Fin 2) (id : BitVec 4) (dur : BitVec 24) (s : State), hostRuns .pcie s.chip 0xF098 (2 ^ 30 * form.val + 2 ^ 28 *
      1 + 2 ^ 24 * id.toNat + dur.toNat) = true →
      let c := hostTaken s.time .pcie 0xF098 s.chip
      exec (.gapNoticePost form id dur) s = .next (s.settled s.nv (postNotice s.time false id.toNat dur.toNat (noticeStart
          s.time (form.val == 1) c) c))) ∧
  (∀ (id : BitVec 4) (s : State), hostRuns .pcie s.chip 0xF098 (2 ^ 28 * 2 + 2 ^ 24 * id.toNat) = true →
      let c := hostTaken s.time .pcie 0xF098 s.chip
      exec (.gapNoticeCancel id) s = .next (s.settled s.nv (cancelNotice s.time id.toNat c))) ∧
  (∀ (s : State), pageAlive s.chip 0x0F = true →
      exec .gapNoticeWindowEnd s = .next (s.settled s.nv (noticeEnd s.time (openWindow s.time s.chip))))

/-- Capping and registry commands: where each completes, and its own effect. -/
def Obligations.CappingCommandsComplete : Prop :=
  (∀ (s : State), pageAlive s.chip 0x10 = true →
      exec .capReportPeriod s = .next (s.settled s.nv (capFlush s.time (reportPeriod s.time s.chip)))) ∧
  (∀ (f : RxFrame) (b c : Chip) (g : RxFrame) (i : Nat) (s : State), pageAlive s.chip 0x14 = true → b = slActive s.time f.seg
      s.chip → g = routed b f →
      receive s.time g 2 0x30 (g.words.length == 6) true true b = (c, some i) →
      exec (.grantReceive f) s = .next (s.settled s.nv (capFlush s.time (grantObject s.time (some (.link i)) g.words c)))) ∧
  (∀ (f : RxFrame) (b c : Chip) (g : RxFrame) (i : Nat) (s : State), pageAlive s.chip 0x14 = true → b = slActive s.time f.seg
      s.chip → g = routed b f →
      receive s.time g 2 0x31 (g.words.length == 6) true true b = (c, some i) →
      exec (.capReportReceive f) s = .next (s.settled s.nv (capFlush s.time (reportObject s.time (some (.link i)) g.words
          c)))) ∧
  (∀ (level : Fin 4) (s : State), pageAlive s.chip 0x10 = true →
      exec (.grantEffective level) s = .next (s.settled s.nv (capFlush s.time (grantEffective s.time level.val (dueCommits
          s.time s.nv 0x10 s.chip))))) ∧
  (∀ (level : Fin 4) (s : State), pageAlive s.chip 0x10 = true →
      exec (.grantLost level) s = .next (s.settled s.nv (capFlush s.time (grantLost s.time level.val s.chip)))) ∧
  (∀ (s : State), pageAlive s.chip 0x10 = true →
      exec .overBudget s = .next (s.settled s.nv (capFlush s.time (overBudget s.time s.chip)))) ∧
  (∀ (s : State), pageAlive s.chip 0x10 = true →
      exec .capShedStep s = .next (s.settled s.nv (capFlush s.time (shedStep s.time s.chip)))) ∧
  (∀ (ns : Bool) (s : State), hostRuns .pcie s.chip 0x100B8 (1 + 2 * ns.toNat) = true →
      let c := hostTaken s.time .pcie 0x100B8 s.chip
      exec (.loadIntentPost ns) s = .next (s.settled s.nv (capFlush s.time (intentPost s.time (1 + 2 * ns.toNat) c)))) ∧
  (∀ (f : RxFrame) (b c : Chip) (g : RxFrame) (i : Nat) (s : State), pageAlive s.chip 0x14 = true → b = slActive s.time f.seg
      s.chip → g = routed b f →
      receive s.time g 2 0x32 (g.words.length == 4) true true b = (c, some i) →
      exec (.electionObjectReceive f) s = .next (s.settled s.nv (capFlush s.time (electObject s.time (some (.link i)) g.words
          c)))) ∧
  (∀ (s : State), pageAlive s.chip 0x10 = true →
      exec .electionSettle s = .next (s.settled s.nv (capFlush s.time (electSettle s.time s.chip)))) ∧
  (∀ (s : State), pageAlive s.chip 0x10 = true →
      exec .carHeadFailover s = .next (s.settled s.nv (capFlush s.time (carHeadFailover s.time s.chip)))) ∧
  (∀ (a : Word) (s : State), hostRuns .pcie s.chip 0x10090 a.toNat = true →
      let c := hostTaken s.time .pcie 0x10090 s.chip
      exec (.registryLookup a) s = .next (s.settled s.nv (lookupStart a.toNat c))) ∧
  (∀ (s : State), pageAlive s.chip 0x10 = true →
      exec .registryLookupDone s = .next (s.settled s.nv (lookupDone s.time s.chip))) ∧
  (∀ (a : Word) (s : State), pageAlive s.chip 0x10 = true →
      exec (.entryStale a) s = .next (s.settled s.nv (entryStale s.time a.toNat s.chip))) ∧
  (∀ (s : State), hostRuns .pcie s.chip 0x100E0 1 = true →
      let c := hostTaken s.time .pcie 0x100E0 s.chip
      exec .xinGrantDeliver s = .next (s.settled s.nv (capFlush s.time (xinDeliver s.time 1 c)))) ∧
  (∀ (s : State), hostRuns .pcie s.chip 0x100E0 2 = true →
      let c := hostTaken s.time .pcie 0x100E0 s.chip
      exec .xinReportDeliver s = .next (s.settled s.nv (capFlush s.time (xinDeliver s.time 2 c)))) ∧
  (∀ (s : State), hostRuns .pcie s.chip 0x100E0 3 = true →
      let c := hostTaken s.time .pcie 0x100E0 s.chip
      exec .xinElectionDeliver s = .next (s.settled s.nv (capFlush s.time (xinDeliver s.time 3 c))))

/-- E-fuse channel commands: where each completes, and its own effect. -/
def Obligations.FuseCommandsComplete : Prop :=
  (∀ (codes : List (BitVec 12 × BitVec 12)) (s : State), awake s.chip = true →
      exec (.efuSenseFrame codes) s = .next (s.settled s.nv (senseFrame s.time codes s.chip))) ∧
  (∀ (isV : List Nat) (gsV : List Nat) (s : State), awake s.chip = true →
      exec (.efuEvaluationTick isV gsV) s = .next (s.settled s.nv (efTicks s.time isV gsV s.chip))) ∧
  (∀ (v : Word) (s : State), hostRuns .pcie s.chip 0x11044 v.toNat = true →
      let c := hostTaken s.time .pcie 0x11044 s.chip
      exec (.channelEnableCommand v) s = .next (s.settled s.nv (efEnables s.time v.toNat c))) ∧
  (∀ (v : Word) (s : State), hostRuns .pcie s.chip 0x11054 v.toNat = true →
      let c := hostTaken s.time .pcie 0x11054 s.chip
      exec (.damageClear v) s = .next (s.settled s.nv (damageClear s.time v.toNat c))) ∧
  (∀ (n : Fin 16) (s : State), awake s.chip = true →
      exec (.gateRiseTimeout n) s = .next (s.settled s.nv (gateRiseTimeout s.time n.val s.chip))) ∧
  (∀ (n : Fin 16) (s : State), awake s.chip = true →
      exec (.gateLostInOn n) s = .next (s.settled s.nv (gateLostInOn s.time n.val s.chip))) ∧
  (∀ (n : Fin 16) (s : State), awake s.chip = true →
      exec (.offStateCurrent n) s = .next (s.settled s.nv (offStateCurrent s.time n.val s.chip))) ∧
  (∀ (n : Fin 16) (s : State), awake s.chip = true →
      exec (.faultTimerTrip n) s = .next (s.settled s.nv (faultTimerTrip s.time n.val s.chip))) ∧
  (∀ (n : Fin 16) (s : State), awake s.chip = true →
      exec (.overcurrentTrip n) s = .next (s.settled s.nv (efOvercurrent n.val s.chip))) ∧
  (∀ (n : Fin 16) (s : State), awake s.chip = true →
      exec (.shortDuringRamp n) s = .next (s.settled s.nv (shortDuringRamp s.time n.val s.chip))) ∧
  (∀ (n : Fin 16) (s : State), awake s.chip = true →
      exec (.reversalCleared n) s = .next (s.settled s.nv (reversalClearedNow s.time n.val s.chip))) ∧
  (∀ (n : Fin 16) (s : State), awake s.chip = true →
      exec (.retryWaitEnd n) s = .next (s.settled s.nv (retryWaitEnd s.time n.val s.chip))) ∧
  (∀ (n : Fin 16) (s : State), awake s.chip = true →
      exec (.retryReload n) s = .next (s.settled s.nv (retryReload n.val s.chip))) ∧
  (∀ (n : Fin 16) (s : State), awake s.chip = true →
      exec (.powerGoodAssert n) s = .next (s.settled s.nv (powerGoodAssert s.time n.val s.chip))) ∧
  (∀ (k : Fin 8) (s : State), awake s.chip = true →
      exec (.pairShareUpdate k) s = .next (s.settled s.nv (pairShareUpdate s.time k.val s.chip))) ∧
  (∀ (k : Fin 8) (s : State), awake s.chip = true →
      exec (.pairShareError k) s = .next (s.settled s.nv (pairShareError s.time k.val s.chip))) ∧
  (∀ (n : Fin 16) (mean : Nat) (s : State), awake s.chip = true →
      exec (.capExceeded n mean) s = .next (s.settled s.nv (capExceeded s.time n.val mean s.chip)))

/-- Battery shelf commands: where each completes, and its own effect. -/
def Obligations.BatteryCommandsComplete : Prop :=
  (∀ (s : State), pageAlive s.chip 0x12 = true →
      exec .estimatorStep s = .next (s.settled s.nv (estimatorStep s.time s.chip))) ∧
  (∀ (m : Fin 16) (s : State), pageAlive s.chip 0x12 = true →
      exec (.restAnchor m) s = .next (s.settled s.nv (restAnchor s.time m.val s.chip))) ∧
  (∀ (m : Fin 16) (s : State), pageAlive s.chip 0x12 = true →
      exec (.chargingCorrection m) s = .next (s.settled s.nv (chargingCorrection s.time m.val s.chip))) ∧
  (∀ (m : Fin 16) (s : State), pageAlive s.chip 0x12 = true →
      exec (.moduleStale m) s = .next (s.settled s.nv (moduleStale s.time m.val s.chip))) ∧
  (∀ (k : Fin 4) (s : State), pageAlive s.chip 0x12 = true →
      exec (.impedanceWindowJudge k) s = .next (s.settled s.nv (windowJudge s.time k.val s.chip))) ∧
  (∀ (s : State), pageAlive s.chip 0x12 = true →
      exec .prechargeTimeout s = .next (s.settled s.nv (prechargeTimeout s.time s.chip))) ∧
  (∀ (s : State), pageAlive s.chip 0x12 = true →
      exec .bulkTimeout s = .next (s.settled s.nv (bulkTimeout s.time s.chip))) ∧
  (∀ (s : State), pageAlive s.chip 0x12 = true →
      exec .chargeTaperDone s = .next (s.settled s.nv (taperDone s.time s.chip))) ∧
  (∀ (s : State), pageAlive s.chip 0x12 = true →
      exec .absorptionUpdate s = .next (s.settled s.nv (absorptionUpdate s.time s.chip))) ∧
  (∀ (m : Fin 16) (s : State), pageAlive s.chip 0x12 = true →
      exec (.deepDischarge m) s = .next (s.settled s.nv (deepDischarge s.time m.val s.chip))) ∧
  (∀ (m : Fin 16) (s : State), pageAlive s.chip 0x12 = true →
      exec (.deepRelease m) s = .next (s.settled s.nv (deepRelease s.time m.val s.chip))) ∧
  (∀ (s : State), pageAlive s.chip 0x12 = true →
      exec .idleEnter s = .next (s.settled s.nv (idleEnter s.time s.chip))) ∧
  (∀ (s : State), hostRuns .pcie s.chip 0x12088 1 = true →
      let c := hostTaken s.time .pcie 0x12088 s.chip
      exec .recordSave s = .next (s.settled s.nv (recordSave s.time (idleExit s.time c)))) ∧
  (∀ (s : State), hostRuns .pcie s.chip 0x12088 2 = true →
      let c := hostTaken s.time .pcie 0x12088 s.chip
      exec .stagingClear s = .next (s.settled s.nv (stagingClear (idleExit s.time c)))) ∧
  (∀ (cw : Word) (s : State), hostRuns .pcie s.chip 0x1208C cw.toNat = true →
      let c := hostTaken s.time .pcie 0x1208C s.chip
      exec (.restoreCommit cw) s = .next (s.settled s.nv (restoreCommit s.time cw.toNat (idleExit s.time c)))) ∧
  (∀ (v : Word) (s : State), hostRuns .pcie s.chip 0x12084 v.toNat = true →
      let c := hostTaken s.time .pcie 0x12084 s.chip
      exec (.recordBufferAccess (some v)) s = .next (s.settled s.nv (recordWrite v.toNat (idleExit s.time c)))) ∧
    (∀ (s : State), hostSees .pcie s.chip 0x12084 = true →
      exec (.recordBufferAccess none) s = .next (s.settled s.nv (returns [(recordRead s.chip).2] (recordRead s.chip).1)))

/-- Coupler messages received: where each completes, and its own effect. -/
def Obligations.PortMessageCommandsComplete : Prop :=
  (∀ (p : Fin 4) (s : State), pageAlive s.chip 0x13 = true →
      let x := delivered s.time p.val tyACCEPT [] s.chip
      exec (.acceptReceived p) s = .next (s.settled s.nv (capFlush s.time (acceptReceived s.time p.val x.1)))) ∧
  (∀ (p : Fin 4) (s : State), pageAlive s.chip 0x13 = true →
      let x := delivered s.time p.val tyREJECT [] s.chip
      exec (.rejectReceived p) s = .next (s.settled s.nv (capFlush s.time (rejectReceived s.time p.val x.1)))) ∧
  (∀ (p : Fin 4) (s : State), pageAlive s.chip 0x13 = true →
      let x := delivered s.time p.val tyREADY [] s.chip
      exec (.readyReceived p) s = .next (s.settled s.nv (capFlush s.time (readyReceived s.time p.val x.1)))) ∧
  (∀ (p : Fin 4) (s : State), pageAlive s.chip 0x13 = true →
      let x := delivered s.time p.val tyGETCAPS [] s.chip
      exec (.getcapsReceived p) s = .next (s.settled s.nv (capFlush s.time (getcapsReceived s.time p.val x.1)))) ∧
  (∀ (p : Fin 4) (s : State), pageAlive s.chip 0x13 = true →
      let x := delivered s.time p.val tySWAP [] s.chip
      exec (.swapReceived p) s = .next (s.settled s.nv (capFlush s.time (swapReceived s.time p.val x.1)))) ∧
  (∀ (p : Fin 4) (s : State), pageAlive s.chip 0x13 = true →
      let x := delivered s.time p.val tyWAIT [] s.chip
      exec (.waitReceived p) s = .next (s.settled s.nv (capFlush s.time (waitReceived s.time p.val x.1)))) ∧
  (∀ (p : Fin 4) (s : State), pageAlive s.chip 0x13 = true →
      let x := delivered s.time p.val tySRESET [] s.chip
      exec (.sresetReceived p) s = .next (s.settled s.nv (capFlush s.time (sresetReceived s.time p.val x.1)))) ∧
  (∀ (p : Fin 4) (s : State), pageAlive s.chip 0x13 = true →
      let x := delivered s.time p.val tyNOTSUPP [] s.chip
      exec (.notsuppReceived p) s = .next (s.settled s.nv (capFlush s.time (notsuppReceived s.time p.val x.1)))) ∧
  (∀ (p : Fin 4) (objs : List Word) (s : State), pageAlive s.chip 0x13 = true →
      let x := delivered s.time p.val tyOFFER (objs.map BitVec.toNat) s.chip
      exec (.offerReceived p objs) s = .next (s.settled s.nv (capFlush s.time (offerReceived s.time p.val x.2 x.1)))) ∧
  (∀ (p : Fin 4) (w : Word) (s : State), pageAlive s.chip 0x13 = true →
      let x := delivered s.time p.val tyREQUEST [w.toNat] s.chip
      exec (.requestReceived p w) s = .next (s.settled s.nv (capFlush s.time (requestReceived s.time p.val (x.2.headD 0)
          x.1)))) ∧
  (∀ (p : Fin 4) (o0 : Word) (o1 : Word) (o2 : Word) (s : State), pageAlive s.chip 0x13 = true →
      let x := delivered s.time p.val tyIDENT [o0.toNat, o1.toNat, o2.toNat] s.chip
      exec (.identReceived p o0 o1 o2) s = .next (s.settled s.nv (capFlush s.time (identReceived s.time p.val x.2 x.1)))) ∧
  (∀ (p : Fin 4) (o0 : Word) (o1 : Word) (o2 : Word) (o3 : Word) (s : State), pageAlive s.chip 0x13 = true →
      let x := delivered s.time p.val tyINTENT [o0.toNat, o1.toNat, o2.toNat, o3.toNat] s.chip
      exec (.intentReceived p o0 o1 o2 o3) s = .next (s.settled s.nv (capFlush s.time (intentReceived s.time p.val x.2 x.1)))) ∧
  (∀ (p : Fin 4) (o0 : Word) (o1 : Word) (o2 : Word) (o3 : Word) (s : State), pageAlive s.chip 0x13 = true →
      let x := delivered s.time p.val tyGAP [o0.toNat, o1.toNat, o2.toNat, o3.toNat] s.chip
      exec (.gapReceived p o0 o1 o2 o3) s = .next (s.settled s.nv (capFlush s.time (gapReceived s.time p.val x.2 x.1)))) ∧
  (∀ (p : Fin 4) (objs : List Word) (s : State), pageAlive s.chip 0x13 = true →
      let x := delivered s.time p.val tyRELAY (objs.map BitVec.toNat) s.chip
      exec (.relayReceived p objs) s = .next (s.settled s.nv (capFlush s.time (relayReceived s.time p.val x.2 x.1)))) ∧
  (∀ (p : Fin 4) (s : State), pageAlive s.chip 0x13 = true →
      exec (.unknownTypeReceived p) s = .next (s.settled s.nv (capFlush s.time (unknownReceived p.val s.chip))))

/-- Coupler wire, packet and contract policy commands: where each completes, and its own effect. -/
def Obligations.PortCommandsComplete : Prop :=
  (∀ (p : Fin 4) (wire : Fin 3) (mv : BitVec 13) (s : State), pageAlive s.chip 0x13 = true →
      exec (.wireWindowChange p wire mv) s = .next (s.settled s.nv (capFlush s.time (leftOr s.time p.val (windowChange s.time
          p.val wire.val mv.toNat s.chip))))) ∧
  (∀ (p : Fin 4) (s : State), pageAlive s.chip 0x13 = true →
      exec (.chatterHoldEnd p) s = .next (s.settled s.nv (capFlush s.time (chatterHoldEnd s.time p.val s.chip)))) ∧
  (∀ (p : Fin 4) (w : WireTest) (s : State), pageAlive s.chip 0x13 = true →
      exec (.attachDebounceEnd p w) s = .next (s.settled s.nv (capFlush s.time (attachDone w s.time p.val s.chip)))) ∧
  (∀ (p : Fin 4) (w : WireTest) (s : State), pageAlive s.chip 0x13 = true →
      exec (.detachDebounceEnd p w) s = .next (s.settled s.nv (capFlush s.time (wireEnds s.time p.val true (detachEnd s.time
          p.val w s.chip))))) ∧
  (∀ (p : Fin 4) (s : State), pageAlive s.chip 0x13 = true →
      exec (.sourceSelfMap p) s = .next (s.settled s.nv (capFlush s.time (sourceSelfMap s.time p.val s.chip)))) ∧
  (∀ (p : Fin 4) (s : State), pageAlive s.chip 0x13 = true →
      exec (.togglePhaseEnd p) s = .next (s.settled s.nv (capFlush s.time (togglePhase s.time p.val s.chip)))) ∧
  (∀ (p : Fin 4) (s : State), pageAlive s.chip 0x13 = true →
      exec (.wireTestPeriodic p) s = .next (s.settled s.nv (capFlush s.time (testPeriodic s.time p.val s.chip)))) ∧
  (∀ (p : Fin 4) (s : State), hostRuns .pcie s.chip (0x1310C + 0x40 * p.val) 1 = true →
      let c := hostTaken s.time .pcie (0x1310C + 0x40 * p.val) s.chip
      exec (.wireTestCommand p) s = .next (s.settled s.nv (testStart s.time p.val c))) ∧
  (∀ (p : Fin 4) (w : WireTest) (s : State), pageAlive s.chip 0x13 = true →
      exec (.wireTestComplete p w) s = .next (s.settled s.nv (capFlush s.time (testComplete s.time p.val w s.chip)))) ∧
  (∀ (p : Fin 4) (w : WireTest) (s : State), pageAlive s.chip 0x13 = true →
      exec (.wireTestConfirm p w) s = .next (s.settled s.nv (capFlush s.time (confirmed w s.time p.val s.chip)))) ∧
  (∀ (p : Fin 4) (s : State), pageAlive s.chip 0x13 = true →
      exec (.packetTransmitStart p) s = .next (s.settled s.nv (capFlush s.time (txPacket s.time p.val s.chip)))) ∧
  (∀ (p : Fin 4) (s : State), pageAlive s.chip 0x13 = true →
      exec (.packetTransmitEnd p) s = .next (s.settled s.nv (capFlush s.time (packetSent s.time p.val s.chip)))) ∧
  (∀ (p : Fin 4) (s : State), pageAlive s.chip 0x13 = true →
      exec (.collision p) s = .next (s.settled s.nv (capFlush s.time (failedOr s.time p.val (collision s.time p.val
          s.chip))))) ∧
  (∀ (p : Fin 4) (set : List (BitVec 5)) (body : List (BitVec 5)) (ended : Bool) (s : State), pageAlive s.chip 0x13 = true →
      exec (.packetReceive p set body ended) s = .next (s.settled s.nv (capFlush s.time (received set body ended s.time p.val
          s.chip)))) ∧
  (∀ (p : Fin 4) (s : State), pageAlive s.chip 0x13 = true →
      exec (.ackSend p) s = .next (s.settled s.nv (capFlush s.time (ackSend s.time p.val s.chip)))) ∧
  (∀ (p : Fin 4) (id : Fin 8) (s : State), pageAlive s.chip 0x13 = true →
      exec (.ackReceived p id) s = .next (s.settled s.nv (capFlush s.time (packetAcked id.val s.time p.val s.chip)))) ∧
  (∀ (p : Fin 4) (s : State), pageAlive s.chip 0x13 = true →
      exec (.ackTimeout p) s = .next (s.settled s.nv (capFlush s.time (failedOr s.time p.val (ackTimeout s.time p.val
          s.chip))))) ∧
  (∀ (p : Fin 4) (s : State), pageAlive s.chip 0x13 = true →
      exec (.hardResetSend p) s = .next (s.settled s.nv (capFlush s.time (hrSend s.time false p.val s.chip)))) ∧
  (∀ (p : Fin 4) (s : State), pageAlive s.chip 0x13 = true →
      exec (.hardResetForced p) s = .next (s.settled s.nv (capFlush s.time (hrSend s.time true p.val s.chip)))) ∧
  (∀ (p : Fin 4) (s : State), pageAlive s.chip 0x13 = true →
      exec (.hardResetReceive p) s = .next (s.settled s.nv (capFlush s.time (if attached s.chip p.val then hardReset s.time
          p.val s.chip else s.chip)))) ∧
  (∀ (p : Fin 4) (s : State), pageAlive s.chip 0x13 = true →
      exec (.hardResetSent p) s = .next (s.settled s.nv (capFlush s.time (if (port s.chip p.val).hrSending && bitsSent s.time
          s.chip p.val then hardReset s.time p.val s.chip else s.chip)))) ∧
  (∀ (p : Fin 4) (s : State), pageAlive s.chip 0x13 = true →
      exec (.waitResend p) s = .next (s.settled s.nv (capFlush s.time (waitResend s.time p.val s.chip)))) ∧
  (∀ (p : Fin 4) (s : State), pageAlive s.chip 0x13 = true →
      exec (.senderResponseTimeout p) s = .next (s.settled s.nv (capFlush s.time (responseTimeout s.time p.val s.chip)))) ∧
  (∀ (p : Fin 4) (s : State), pageAlive s.chip 0x13 = true →
      exec (.transitionTimeout p) s = .next (s.settled s.nv (capFlush s.time (transitionTimeout s.time p.val s.chip)))) ∧
  (∀ (p : Fin 4) (s : State), pageAlive s.chip 0x13 = true →
      exec (.sinkWaitCapTimeout p) s = .next (s.settled s.nv (capFlush s.time (waitCapTimeout s.time p.val s.chip)))) ∧
  (∀ (p : Fin 4) (s : State), pageAlive s.chip 0x13 = true →
      exec (.swapOffTimeout p) s = .next (s.settled s.nv (capFlush s.time (swapTimeout s.time p.val 1 s.chip)))) ∧
  (∀ (p : Fin 4) (s : State), pageAlive s.chip 0x13 = true →
      exec (.swapOnTimeout p) s = .next (s.settled s.nv (capFlush s.time (swapTimeout s.time p.val 2 s.chip)))) ∧
  (∀ (p : Fin 4) (s : State), pageAlive s.chip 0x13 = true →
      exec (.safe0Timeout p) s = .next (s.settled s.nv (capFlush s.time (safe0Timeout s.time p.val s.chip)))) ∧
  (∀ (p : Fin 4) (s : State), pageAlive s.chip 0x13 = true →
      exec (.reqRetryTimeout p) s = .next (s.settled s.nv (capFlush s.time (reqRetryTimeout s.time p.val s.chip)))) ∧
  (∀ (p : Fin 4) (s : State), pageAlive s.chip 0x13 = true →
      exec (.sourceSettled p) s = .next (s.settled s.nv (capFlush s.time (sourceSettled s.time p.val s.chip)))) ∧
  (∀ (p : Fin 4) (s : State), pageAlive s.chip 0x13 = true →
      exec (.lineDischarged p) s = .next (s.settled s.nv (capFlush s.time (lineDischarged s.time p.val s.chip)))) ∧
  (∀ (p : Fin 4) (s : State), pageAlive s.chip 0x13 = true →
      exec (.swapLineReleased p) s = .next (s.settled s.nv (capFlush s.time (swapLineReleased s.time p.val s.chip)))) ∧
  (∀ (p : Fin 4) (s : State), pageAlive s.chip 0x13 = true →
      exec (.forcedDetachRelease p) s = .next (s.settled s.nv (capFlush s.time (forcedRelease s.time p.val s.chip)))) ∧
  (∀ (p : Fin 4) (s : State), hostRuns .pcie s.chip (0x1323C + 0x40 * p.val) 1 = true →
      let c := hostTaken s.time .pcie (0x1323C + 0x40 * p.val) s.chip
      exec (.swapCommand p) s = .next (s.settled s.nv (swapCommand p.val c))) ∧
  (∀ (p : Fin 4) (s : State), hostRuns .pcie s.chip (0x1323C + 0x40 * p.val) 2 = true →
      let c := hostTaken s.time .pcie (0x1323C + 0x40 * p.val) s.chip
      exec (.renegCommand p) s = .next (s.settled s.nv (renegCommand s.time p.val c))) ∧
  (∀ (p : Fin 4) (s : State), hostRuns .pcie s.chip (0x1323C + 0x40 * p.val) 4 = true →
      let c := hostTaken s.time .pcie (0x1323C + 0x40 * p.val) s.chip
      exec (.sresetCommand p) s = .next (s.settled s.nv (sresetCommand s.time p.val c))) ∧
  (∀ (p : Fin 4) (s : State), hostRuns .pcie s.chip (0x1323C + 0x40 * p.val) 8 = true →
      let c := hostTaken s.time .pcie (0x1323C + 0x40 * p.val) s.chip
      exec (.hresetCommand p) s = .next (s.settled s.nv (commandHr p.val c))) ∧
  (∀ (p : Fin 4) (s : State), hostRuns .pcie s.chip (0x1323C + 0x40 * p.val) 16 = true →
      let c := hostTaken s.time .pcie (0x1323C + 0x40 * p.val) s.chip
      exec (.unblockCommand p) s = .next (s.settled s.nv (unblockCommand s.time p.val c))) ∧
  (∀ (p : Fin 4) (s : State), pageAlive s.chip 0x13 = true →
      exec (.identResend p) s = .next (s.settled s.nv (capFlush s.time (identResend p.val s.chip)))) ∧
  (∀ (ports : BitVec 4) (s : State), hostRuns .pcie s.chip 0x13070 (1 + 16 * ports.toNat) = true →
      let c := hostTaken s.time .pcie 0x13070 s.chip
      exec (.mailboxSendIntent ports) s = .next (s.settled s.nv (mailboxSend tyINTENT ports.toNat c))) ∧
  (∀ (ports : BitVec 4) (s : State), hostRuns .pcie s.chip 0x13070 (2 + 16 * ports.toNat) = true →
      let c := hostTaken s.time .pcie 0x13070 s.chip
      exec (.mailboxSendGap ports) s = .next (s.settled s.nv (mailboxSend tyGAP ports.toNat c)))

/-- Shelf-link frames received: where each completes, and its own effect. -/
def Obligations.ShelfLinkReceiptsComplete : Prop :=
  (∀ (f : RxFrame) (s : State), pageAlive s.chip 0x14 = true →
      let c := slActive s.time f.seg s.chip
      let g := routed c f
      exec (.helloReceived f) s = .next (s.settled s.nv (if g.seg = 1 then modSeg 1 (fun x =>
          { x with hellos := x.hellos ++ [g] }) c else helloTaken s.time g c))) ∧
  (∀ (f : RxFrame) (b c : Chip) (g : RxFrame) (i : Nat) (s : State), pageAlive s.chip 0x14 = true → b = slActive s.time f.seg
      s.chip → g = routed b f →
      receive s.time g 1 0x21 (g.words.length == 4 || g.words.length == 6) true false b = (c, some i) →
      exec (.reportReceive f) s = .next (s.settled s.nv (reportTaken s.time g i c))) ∧
  (∀ (f : RxFrame) (b c : Chip) (g : RxFrame) (i : Nat) (s : State), pageAlive s.chip 0x14 = true → b = slActive s.time f.seg
      s.chip → g = routed b f →
      receive s.time g 3 0x22 (decide (1 ≤ g.words.length) && decide (g.words.length ≤ 63)) true false b = (c, some i) →
      exec (.elemrepReceived f) s = .next (s.settled s.nv (if capOn c then capElements i g.words c else c))) ∧
  (∀ (f : RxFrame) (s : State), pageAlive s.chip 0x14 = true →
      let c := slActive s.time f.seg s.chip
      let g := routed c f
      exec (.idleFrameReceived f) s = .next (s.settled s.nv (idleReceived s.time g c))) ∧
  (∀ (f : RxFrame) (b c : Chip) (g : RxFrame) (i : Nat) (s : State), pageAlive s.chip 0x14 = true → b = slActive s.time f.seg
      s.chip → g = routed b f →
      receive s.time g 1 0x24 (g.words.isEmpty) true false b = (c, some i) →
      exec (.leaveReceived f) s = .next (s.settled s.nv (ctxLeaves s.time i c))) ∧
  (∀ (f : RxFrame) (b c : Chip) (g : RxFrame) (i : Nat) (s : State), pageAlive s.chip 0x14 = true → b = slActive s.time f.seg
      s.chip → g = routed b f →
      receive s.time g 2 0x33 (g.words.length == 4) true true b = (c, some i) →
      exec (.slIntentReceived f) s = .next (s.settled s.nv (loadIntent s.time 1 (g.words.getD 0 0) (toInt 32 (g.words.getD 1
          0))
        (stampOfNs s.time c (g.words.getD 2 0 + 2 ^ 32 * g.words.getD 3 0)) c))) ∧
  (∀ (f : RxFrame) (b c : Chip) (g : RxFrame) (i : Nat) (s : State), pageAlive s.chip 0x14 = true → b = slActive s.time f.seg
      s.chip → g = routed b f →
      receive s.time g 2 0x34 (g.words.length == 4) true true b = (c, some i) →
      exec (.gapfwdReceived f) s = .next (s.settled s.nv (gapMessage s.time none g.words c))) ∧
  (∀ (f : RxFrame) (s : State), pageAlive s.chip 0x14 = true →
      let c := slActive s.time f.seg s.chip
      let g := routed c f
      exec (.hostmsgReceived f) s = .next (s.settled s.nv (hostMsgReceived s.time g c))) ∧
  (∀ (f : RxFrame) (s : State), pageAlive s.chip 0x14 = true →
      let c := slActive s.time f.seg s.chip
      let g := routed c f
      exec (.pollReceived f) s = .next (s.settled s.nv (tickFree (pollReceived s.time g (ownReportWords s.time g.seg) c)))) ∧
  (∀ (f : RxFrame) (ctlId : BitVec 64) (s : State), pageAlive s.chip 0x14 = true →
      let c := slActive s.time f.seg s.chip
      let g := routed c f
      exec (.assignReceived f ctlId) s = .next (s.settled s.nv (assigned s.time g ctlId.toNat c))) ∧
  (∀ (f : RxFrame) (s : State), pageAlive s.chip 0x14 = true →
      let c := slActive s.time f.seg s.chip
      let g := routed c f
      exec (.discoverReceived f) s = .next (s.settled s.nv (discoverReceived s.time g c))) ∧
  (∀ (f : RxFrame) (s : State), pageAlive s.chip 0x14 = true →
      let c := slActive s.time f.seg s.chip
      let g := routed c f
      exec (.timeReceived f) s = .next (s.settled s.nv (timeReceived s.time g c))) ∧
  (∀ (f : RxFrame) (s : State), pageAlive s.chip 0x14 = true →
      let c := slActive s.time f.seg s.chip
      let g := routed c f
      exec (.forgetReceived f) s = .next (s.settled s.nv (forgotten s.time g c)))

/-- Shelf link, PMBus and partner context commands: where each completes, and its own effect. -/
def Obligations.ShelfLinkAndPartnerCommandsComplete : Prop :=
  (∀ (n : Fin 2) (s : State), pageAlive s.chip 0x14 = true →
      exec (.frameTransmitStart n) s = .next (s.settled s.nv (frameStart s.time n.val s.chip))) ∧
  (∀ (n : Fin 2) (s : State), pageAlive s.chip 0x14 = true →
      exec (.frameTransmitDone n) s = .next (s.settled s.nv (txDone s.time n.val s.chip))) ∧
  (∀ (n : Fin 2) (s : State), pageAlive s.chip 0x14 = true →
      exec (.c0FrameCut n) s = .next (s.settled s.nv (c0Cut s.time n.val s.chip))) ∧
  (∀ (k : Byte) (s : State), pageAlive s.chip 0x14 = true →
      exec (.pollDue k) s = .next (s.settled s.nv (if isStandby s.chip then s.chip else pollDue s.time k.toNat s.chip))) ∧
  (∀ (n : Fin 2) (s : State), pageAlive s.chip 0x14 = true →
      exec (.grantEnd n) s = .next (s.settled s.nv (if isStandby s.chip then s.chip else grantEnd s.time n.val s.chip))) ∧
  (∀ (n : Fin 2) (s : State), pageAlive s.chip 0x14 = true →
      exec (.missedPoll n) s = .next (s.settled s.nv (pollMissed s.time n.val s.chip))) ∧
  (∀ (n : Fin 2) (s : State), pageAlive s.chip 0x14 = true →
      exec (.discoverPeriod n) s = .next (s.settled s.nv (discover s.time n.val s.chip))) ∧
  (∀ (k : Byte) (s : State), pageAlive s.chip 0x16 = true →
      exec (.joinTimeout k) s = .next (s.settled s.nv (joinEnds s.time k.toNat s.chip))) ∧
  (∀ (g : SegSeen) (s : State), pageAlive s.chip 0x14 = true →
      exec (.segmentDown g) s = .next (s.settled s.nv (segmentDown s.time g.n.val g.dark s.chip))) ∧
  (∀ (n : Fin 2) (s : State), pageAlive s.chip 0x14 = true →
      exec (.timeFramePeriod n) s = .next (s.settled s.nv (timeFrame s.time n.val s.chip))) ∧
  (∀ (n : Fin 2) (s : State), pageAlive s.chip 0x14 = true →
      exec (.controllerLost n) s = .next (s.settled s.nv (controllerLost s.time n.val s.chip))) ∧
  (∀ (k : Fin 8) (s : State), pageAlive s.chip 0x15 = true →
      exec (.pmbPollCycle k) s = .next (s.settled s.nv (pmbPollCycle s.time k.val s.chip))) ∧
  (∀ (reply : PmbReply) (data : BitVec 16) (s : State), pageAlive s.chip 0x15 = true →
      exec (.pmbTransactionDone reply data) s = .next (s.settled s.nv (pmbEffects s.time s.chip.xacts.head? s.chip (pmbDone
          s.time reply data.toNat (pmbReclaims s.time s.chip))))) ∧
  (∀ (sdaLow : Bool) (s : State), pageAlive s.chip 0x15 = true →
      exec (.pmbTransactionTimeout sdaLow) s = .next (s.settled s.nv (pmbEffects s.time s.chip.xacts.head? s.chip (pmbTimeout
          s.time sdaLow s.chip)))) ∧
  (∀ (addr : BitVec 7) (code : Byte) (op : Fin 8) (pec : Bool) (s : State), hostRuns .pcie s.chip 0x15044 (2 ^ 31 + 2 ^ 19 *
      pec.toNat + 2 ^ 16 * op.val + 2 ^ 8 * code.toNat + addr.toNat) = true →
      let c := hostTaken s.time .pcie 0x15044 s.chip
      exec (.pmbHostTransaction addr code op pec) s = .next (s.settled s.nv (pmbHost s.time (2 ^ 31 + 2 ^ 19 * pec.toNat + 2 ^
          16 * op.val + 2 ^ 8 * code.toNat + addr.toNat) c))) ∧
  (∀ (k : Byte) (s : State), pageAlive s.chip 0x16 = true →
      exec (.lingerEnd k) s = .next (s.settled s.nv (if (ctx s.chip k.toNat).tEnd < s.time.tick then lingerEnds s.time k.toNat
          s.chip else s.chip))) ∧
  (∀ (k : Byte) (s : State), hostRuns .pcie s.chip 0x16064 (2 ^ 31 + k.toNat) = true →
      let c := hostTaken s.time .pcie 0x16064 s.chip
      exec (.contextForget k) s = .next (s.settled s.nv (forgetWrite s.time (2 ^ 31 + k.toNat) c))) ∧
  (∀ (s : State), hostSees .pcie s.chip 0x16058 = true →
      let c := hostAccess s.chip
      exec .contextSlotRead s = .next (s.settled s.nv (returns [(ctxRead s.time c).2] (ctxRead s.time c).1)))

/-- Recorder and ring commands: where each completes, and its own effect. -/
def Obligations.RecorderCommandsComplete : Prop :=
  (∀ (k : Fin 32) (s : State), pageAlive s.chip 0x17 = true →
      exec (.lostRecordWrite k) s = .next (s.settled s.nv (lostRecord s.time k.val s.chip))) ∧
  (∀ (s : State), pageAlive s.chip 0x18 = true →
      exec .spillDrain s = .next (s.settled s.nv (spillDrain s.time s.chip))) ∧
  (∀ (k : Fin 32) (s : State), pageAlive s.chip 0x18 = true →
      exec (.spillStall k) s = .next (s.settled s.nv (spillStall s.time k.val s.chip))) ∧
  (∀ (s : State), hostSees .pcie s.chip 0x1804C = true →
      let c := hostAccess s.chip
      exec .ringPortRead s = .next (s.settled s.nv (returns [(readPort s.time c).2] (readPort s.time c).1))) ∧
  (∀ (k : Fin 32) (v : Word) (s : State), hostRuns .pcie s.chip (0x18118 + 0x20 * k.val) v.toNat = true →
      let c := hostTaken s.time .pcie (0x18118 + 0x20 * k.val) s.chip
      exec (.hostReadIndexWrite k v) s = .next (s.settled s.nv (hostReadIndex s.time k.val v.toNat c))) ∧
  (∀ (s : State), pageAlive s.chip 0x17 = true →
      exec .ringCheckpoint s = .next (s.settled s.nv (checkpoint s.time s.chip))) ∧
  (∀ (m : Fin 16) (s : State), pageAlive s.chip 0x17 = true →
      exec (.waveSample m) s = .next (s.settled s.nv (waveSample s.time m.val s.chip))) ∧
  (∀ (s : State), pageAlive s.chip 0x17 = true →
      exec .ctxstatePeriod s = .next (s.settled s.nv (ctxStateRecords s.time s.chip))) ∧
  (∀ (len : Fin 8) (s : State), hostRuns .pcie s.chip 0x170C4 len.val = true →
      let c := hostTaken s.time .pcie 0x170C4 s.chip
      exec (.noteWrite len) s = .next (s.settled s.nv (noteWrite s.time len.val c))) ∧
  (∀ (fire : Byte) (s : State), hostRuns .pcie s.chip 0x170A8 fire.toNat = true →
      let c := hostTaken s.time .pcie 0x170A8 s.chip
      exec (.hostTriggerFire fire) s = .next (s.settled s.nv (hostTrigger fire.toNat c))) ∧
  (∀ (tag : Nat) (s : State), pageAlive s.chip 0x17 = true →
      exec (.windowEnd tag) s = .next (s.settled s.nv (windowReady s.time tag s.chip))) ∧
  (∀ (s : State), pageAlive s.chip 0x17 = true →
      exec .sealStart s = .next (s.settled s.nv (sealStart s.time s.chip))) ∧
  (∀ (s : State), pageAlive s.chip 0x17 = true →
      exec .flashPageProgrammed s = .next (s.settled (programEnds s.time s.nv s.chip).1 (programEnds s.time s.nv s.chip).2)) ∧
  (∀ (s : State), pageAlive s.chip 0x17 = true →
      exec .flashEraseDone s = .next (s.settled (eraseEnds s.time s.nv s.chip).1 (eraseEnds s.time s.nv s.chip).2)) ∧
  (∀ (s : State), pageAlive s.chip 0x17 = true →
      exec .flashOperationTimeout s = .next (s.settled s.nv (flashTimeout s.time s.chip))) ∧
  (∀ (s : State), pageAlive s.chip 0x17 = true →
      exec .reserveErase s = .next (s.settled s.nv (reserveErase s.time s.chip))) ∧
  (∀ (s : State), pageAlive s.chip 0x17 = true →
      exec .areaScan s = .next (s.settled s.nv (areaScan s.time s.nv s.chip))) ∧
  (∀ (s : State), hostRuns .pcie s.chip 0x170A4 1 = true →
      let c := hostTaken s.time .pcie 0x170A4 s.chip
      exec .areaFormat s = .next (s.settled s.nv (areaFormat s.time c))) ∧
  (∀ (s : State), hostSees .pcie s.chip 0x170B0 = true →
      let c := hostAccess s.chip
      exec .flashRead s = .next (s.settled s.nv (returns [(flashRead s.nv c).2] (flashRead s.nv c).1)))

/-- Pair frames received and pair commands: where each completes, and its own effect. -/
def Obligations.PairCommandsComplete : Prop :=
  (∀ (x : PairIdle) (s : State), pageAlive s.chip 0x09 = true →
      exec (.pairIdleReceived x) s = .next (s.settled s.nv (idleTaken s.time x s.chip))) ∧
  (∀ (gen : BitVec 16) (s : State), pageAlive s.chip 0x09 = true →
      exec (.stakeReceived gen) s = .next (s.settled s.nv (stakeReceived s.time gen.toNat s.chip))) ∧
  (∀ (s : State), pageAlive s.chip 0x09 = true →
      exec .stakeAckReceived s = .next (s.settled s.nv (stakeAck s.time s.chip))) ∧
  (∀ (s : State), pageAlive s.chip 0x09 = true →
      exec .yieldReceived s = .next (s.settled s.nv (yieldReceived s.time s.chip))) ∧
  (∀ (s : State), pageAlive s.chip 0x09 = true →
      exec .takeReceived s = .next (s.settled s.nv (takeReceived s.time s.chip))) ∧
  (∀ (b : Nat) (s : State), pageAlive s.chip 0x09 = true →
      exec (.handoverOfferReceived b) s = .next (s.settled s.nv (offerOfStake s.time b s.chip))) ∧
  (∀ (stamp : Stamp) (phases : List (Fin 6 × Nat)) (s : State), pageAlive s.chip 0x09 = true →
      exec (.alignReceived stamp phases) s = .next (s.settled s.nv (alignReceived stamp (pwmFollow s.time phases s.chip)))) ∧
  (∀ (vs : List (Byte × Word)) (s : State), pageAlive s.chip 0x09 = true →
      exec (.appliedReceived vs) s = .next (s.settled s.nv (appliedReceived (vs.map fun v => (v.1.toNat, v.2.toInt)) s.chip))) ∧
  (∀ (n : Fin 2) (q : BitVec 16) (f : Frame) (s : State), pageAlive s.chip 0x09 = true →
      exec (.slframeReceived n q f) s = .next (s.settled s.nv (copyTaken s.time n.val q.toNat f s.chip))) ∧
  (∀ (q : BitVec 16) (m : MirrorItem) (s : State), pageAlive s.chip 0x09 = true →
      exec (.mirrorReceived q m) s = .next (s.settled (mirrorFrame false q.toNat m s.time s.nv s.chip).1 (mirrorFrame false
          q.toNat m s.time s.nv s.chip).2)) ∧
  (∀ (q : BitVec 16) (j : Fin 8) (fault : BitVec 16) (addr : Word) (s : State), pageAlive s.chip 0x09 = true → pairOn s.chip =
      true → recOn s.chip = true → s.chip.flag F.REC_CTL_PAIRTRIG = true →
      exec (.fireReceived q j fault addr) s = .next (s.settled s.nv (fireEntry s.time j.val fault.toNat addr.toNat
          (acknowledge s.time 0x12 q.toNat s.chip)))) ∧
  (∀ (q : BitVec 16) (m : MirrorItem) (s : State), pageAlive s.chip 0x09 = true →
      exec (.bulkReceived q m) s = .next (s.settled (mirrorFrame true q.toNat m s.time s.nv s.chip).1 (mirrorFrame true
          q.toNat m s.time s.nv s.chip).2)) ∧
  (∀ (highFor : BitVec 32) (s : State), pageAlive s.chip 0x09 = true →
      exec (.pairStartListenEnd highFor) s = .next (s.settled s.nv (startListenEnd s.time highFor.toNat s.chip))) ∧
  (∀ (guyLow : Bool) (s : State), pageAlive s.chip 0x09 = true →
      exec (.pairIdleSend guyLow) s = .next (s.settled s.nv (idleSend s.time guyLow s.chip))) ∧
  (∀ (s : State), pageAlive s.chip 0x09 = true →
      exec .stakeSend s = .next (s.settled s.nv (stakeSend s.time s.chip))) ∧
  (∀ (s : State), awake s.chip = true →
      exec .selfRenew s = .next (s.settled s.nv (selfRenew s.time s.chip))) ∧
  (∀ (s : State), awake s.chip = true →
      exec .leaseLapse s = .next (s.settled s.nv (leaseLapse s.time s.chip))) ∧
  (∀ (s : State), pageAlive s.chip 0x09 = true →
      exec .partnerLeaseLapsed s = .next (s.settled s.nv (partnerLapsed s.time s.chip))) ∧
  (∀ (highFor : BitVec 32) (s : State), pageAlive s.chip 0x09 = true →
      exec (.guylineClaim highFor) s = .next (s.settled s.nv (guyClaim s.time highFor.toNat s.chip))) ∧
  (∀ (s : State), pageAlive s.chip 0x09 = true →
      exec .claimEnd s = .next (s.settled s.nv (claimEnd s.time s.chip))) ∧
  (∀ (s : State), awake s.chip = true →
      exec .lockstepMismatch s = .next (s.settled s.nv (lockstep s.time s.chip))) ∧
  (∀ (mem : Fin 3) (addr : Word) (s : State), awake s.chip = true →
      exec (.uncorrectableError mem addr) s = .next (s.settled s.nv (uncorrectable s.time (mem.val + 1) addr.toNat s.chip))) ∧
  (∀ (mem : Fin 4) (n : Nat) (s : State), awake s.chip = true →
      exec (.correctableErrorBurst mem n) s = .next (s.settled s.nv (correctables s.time (mem.val + 1) n s.chip))) ∧
  (∀ (s : State), awake s.chip = true →
      exec .noTakerTimeout s = .next (s.settled s.nv (noTaker s.time s.chip))) ∧
  (∀ (iface : Iface) (s : State), hostRuns iface s.chip 0x9058 2 = true →
      let c := hostTaken s.time iface 0x9058 s.chip
      exec (.yieldCommand iface) s = .next (s.settled s.nv (yieldCommand s.time c))) ∧
  (∀ (iface : Iface) (s : State), hostRuns iface s.chip 0x9058 1 = true →
      let c := hostTaken s.time iface 0x9058 s.chip
      exec (.handoverCommand iface) s = .next (s.settled s.nv (handoverCommand s.time c))) ∧
  (∀ (s : State), pageAlive s.chip 0x09 = true →
      exec .handoverBoundary s = .next (s.settled s.nv (handoverBoundary s.time s.chip))) ∧
  (∀ (s : State), pageAlive s.chip 0x09 = true →
      exec .handoverAbandon s = .next (s.settled s.nv (handoverAbandon s.time s.chip))) ∧
  (∀ (s : State), pageAlive s.chip 0x09 = true →
      exec .pairFrameResend s = .next (s.settled s.nv (pairResend s.time s.chip))) ∧
  (∀ (lane : Fin 2) (s : State), pageAlive s.chip 0x09 = true →
      exec (.pairLaneDown lane) s = .next (s.settled s.nv (laneDown s.time lane.val s.chip))) ∧
  (∀ (s : State), pageAlive s.chip 0x09 = true →
      exec .resyncComplete s = .next (s.settled s.nv (resyncComplete s.time s.chip))) ∧
  (∀ (s : State), pageAlive s.chip 0x09 = true →
      exec .mirrorOutage s = .next (s.settled s.nv (mirrorOutage s.time s.chip)))

/-- Fault collector and watchdog commands: where each completes, and its own effect. -/
def Obligations.FaultAndWatchdogCommandsComplete : Prop :=
  (∀ (source : Fin 26) (kind : Byte) (addr : Word) (s : State), pageAlive s.chip 0x08 = true → source.val ≠ 0 → kind ≠ 0 →
      exec (.faultMessage source kind addr) s = .next (s.settled s.nv (raise s.time source.val kind.toNat addr.toNat s.chip))) ∧
  (∀ (s : State), pageAlive s.chip 0x08 = true →
      exec .faultBookkeeping s = .next (s.settled s.nv (bookkeep s.time s.chip))) ∧
  (∀ (iface : Iface) (v : Word) (s : State), hostRuns iface s.chip 0x805C v.toNat = true →
      let c := hostTaken s.time iface 0x805C s.chip
      exec (.incidentClose iface v) s = .next (s.settled s.nv (hostClose s.time v.toNat c))) ∧
  (∀ (source : Fin 26) (s : State), pageAlive s.chip 0x08 = true →
      exec (.trapHandledClose source) s = .next (s.settled s.nv (trapClose s.time source.val s.chip))) ∧
  (∀ (source : Fin 26) (s : State), pageAlive s.chip 0x08 = true →
      exec (.incidentAutoClose source) s = .next (s.settled s.nv (autoClose s.time source.val s.chip))) ∧
  (∀ (s : State), pageAlive s.chip 0x08 = true →
      exec .hnmiPulseEnd s = .next (s.settled s.nv (hnmiEnd s.time s.chip))) ∧
  (∀ (s : State), pageAlive s.chip 0x08 = true →
      exec .errMinWidthEnd s = .next (s.settled s.nv (errMinEnd s.time s.chip))) ∧
  (∀ (iface : Iface) (key : Word) (s : State), hostRuns iface s.chip 0x8068 key.toNat = true →
      let c := hostTaken s.time iface 0x8068 s.chip
      exec (.bivouacCommand iface key) s = .next (s.settled s.nv (bivCommand s.time key.toNat c))) ∧
  (∀ (iface : Iface) (s : State), hostRuns iface s.chip 0x8070 1 = true →
      let c := hostTaken s.time iface 0x8070 s.chip
      exec (.bivouacAck iface) s = .next (s.settled s.nv (bivAck s.time 1 c))) ∧
  (∀ (iface : Iface) (source : Byte) (kind : Byte) (s : State), hostRuns iface s.chip 0x8078 (2 ^ 31 + 2 ^ 8 * kind.toNat +
      source.toNat) = true →
      let c := hostTaken s.time iface 0x8078 s.chip
      exec (.faultInject iface source kind) s = .next (s.settled s.nv (faultInject s.time (2 ^ 31 + 2 ^ 8 * kind.toNat +
          source.toNat) c))) ∧
  (∀ (iface : Iface) (s : State), hostSees iface s.chip 0x8058 = true →
      let c := hostAccess s.chip
      exec (.incidentRead iface) s = .next (s.settled s.nv (returns [(incidentRead c).2] (incidentRead c).1))) ∧
  (∀ (run : SupRun) (s : State),
      exec (.supervisorService run) s = .next (s.settled s.nv (supRuns run supService s.time s.chip))) ∧
  (∀ (run : SupRun) (s : State),
      exec (.supervisorServiceLate run) s = .next (s.settled s.nv (supRuns run supLate s.time s.chip))) ∧
  (∀ (iface : Iface) (k : Fin 16) (site : Word) (s : State), hostRuns iface s.chip (0x7100 + 16 * k.val) site.toNat = true →
      let c := hostTaken s.time iface (0x7100 + 16 * k.val) s.chip
      exec (.taskCheckIn iface k site) s = .next (s.settled s.nv (checkIn s.time k.val site.toNat c))) ∧
  (∀ (s : State), wdgRuns s.chip = true →
      exec .hostCycleClose s = .next (s.settled s.nv (hostCycleClose s.time s.chip))) ∧
  (∀ (iface : Iface) (sup : Bool) (host : Bool) (s : State), hostRuns iface s.chip 0x7060 (sup.toNat + 2 * host.toNat) = true
      →
      let c := hostTaken s.time iface 0x7060 s.chip
      exec (.evidenceClear iface sup host) s = .next (s.settled s.nv (evidenceClear s.time (sup.toNat + 2 * host.toNat) c))) ∧
  (∀ (s : State),
      exec .wdgWakeTimer s = .next (s.settled s.nv (wakeTimer s.time s.chip))) ∧
  (∀ (s : State),
      exec .aoOscillatorStop s = .next (s.settled s.nv (crystalStop s.time s.chip))) ∧
  (∀ (s : State),
      exec .crystalReturn s = .next (s.settled s.nv (crystalBack s.time s.chip)))

/-- Firmware update commands: where each completes, and its own effect. -/
def Obligations.UpdateCommandsComplete : Prop :=
  (∀ (iface : Iface) (kind : Fin 4) (s : State), hostRuns iface s.chip 0x604C (1 + 2 ^ 8 * kind.val) = true →
      let c := hostTaken s.time iface 0x604C s.chip
      exec (.updateStart iface kind) s = .next (s.settled s.nv (updStart s.time s.nv kind.val c))) ∧
  (∀ (ok : Bool) (s : State), pageAlive s.chip 0x06 = true →
      exec (.bankEraseDone ok) s = .next (s.settled (bankErased s.time ok s.nv s.chip).1 (bankErased s.time ok s.nv
          s.chip).2)) ∧
  (∀ (iface : Iface) (s : State), hostRuns iface s.chip 0x6064 1 = true →
      let c := hostTaken s.time iface 0x6064 s.chip
      exec (.blockCommit iface) s = .next (s.settled s.nv (blockCommit s.time c))) ∧
  (∀ (ok : Bool) (s : State), pageAlive s.chip 0x06 = true →
      exec (.blockProgrammed ok) s = .next (s.settled (blockProgrammed s.time ok s.nv s.chip).1 (blockProgrammed s.time ok
          s.nv s.chip).2)) ∧
  (∀ (iface : Iface) (s : State), hostRuns iface s.chip 0x604C 2 = true →
      let c := hostTaken s.time iface 0x604C s.chip
      exec (.updateFinish iface) s = .next (s.settled s.nv (updFinish s.time c))) ∧
  (∀ (s : State), pageAlive s.chip 0x06 = true →
      exec .verificationDone s = .next (s.settled (verified s.time s.nv s.chip).1 (verified s.time s.nv s.chip).2)) ∧
  (∀ (iface : Iface) (s : State), hostRuns iface s.chip 0x604C 3 = true →
      let c := hostTaken s.time iface 0x604C s.chip
      exec (.updateAbort iface) s = .next (s.settled s.nv (updAbort s.time c))) ∧
  (∀ (iface : Iface) (tgt : BitVec 4) (s : State), hostRuns iface s.chip 0x604C (4 + 2 ^ 8 * tgt.toNat) = true →
      let c := hostTaken s.time iface 0x604C s.chip
      exec (.updateActivate iface tgt) s = .next (s.settled (activate s.time tgt.toNat s.nv c).1 (activate s.time tgt.toNat
          s.nv c).2)) ∧
  (∀ (iface : Iface) (s : State), hostRuns iface s.chip 0x604C 5 = true →
      let c := hostTaken s.time iface 0x604C s.chip
      exec (.updateConfirm iface) s = .next (s.settled s.nv (confirm s.time c))) ∧
  (∀ (s : State), pageAlive s.chip 0x06 = true →
      exec .autoConfirm s = .next (s.settled s.nv (autoConfirm s.time s.chip))) ∧
  (∀ (iface : Iface) (code : Word) (s : State), hostRuns iface s.chip 0x6048 code.toNat = true →
      let c := hostTaken s.time iface 0x6048 s.chip
      exec (.ownerLockWrite iface code) s = .next (s.settled s.nv (ownerLock code.toNat c))) ∧
  (∀ (edge : MotionEdge) (s : State), pageAlive s.chip 0x06 = true →
      exec (.motionChange edge) s = .next (s.settled s.nv (motionChange s.time edge.level edge.ms s.chip))) ∧
  (∀ (s : State), pageAlive s.chip 0x06 = true →
      exec .motionStuck s = .next (s.settled s.nv (motionStuck s.time s.chip))) ∧
  (∀ (s : State), pageAlive s.chip 0x06 = true →
      exec .motionChatterEnd s = .next (s.settled s.nv (motionQuiet s.time s.chip)))

/-- Start-up, reset, hibernate, supply and clock commands: where each completes, and its own effect. -/
def Obligations.SupplyAndResetCommandsComplete : Prop :=
  (∀ (rail : RailLevel) (s : State),
      exec (.powerOnReset rail) s = .next (s.settled s.nv (powerOnReset rail.code.toNat rail.mv s.chip))) ∧
  (∀ (banks33 : Byte) (s : State),
      exec (.powerOnResetRelease banks33) s = .next (s.settled s.nv (powerOnRelease s.time banks33.toNat s.chip))) ∧
  (∀ (s : State),
      exec .aoReset s = .next (s.settled s.nv (aoReset s.time s.chip))) ∧
  (∀ (s : State),
      exec .rstNAssert s = .next (s.settled s.nv (rstN s.time s.chip))) ∧
  (∀ (iface : Iface) (s : State), hostRuns iface s.chip 0x4054 0xC5E70001 = true →
      let c := hostTaken s.time iface 0x4054 s.chip
      exec (.chipResetKey iface) s = .next (s.settled s.nv (resetRequest s.time 4 c))) ∧
  (∀ (iface : Iface) (s : State), hostRuns iface s.chip 0x4054 0xC5E70002 = true → s.chip.pwr.rstReq = none →
      let c := hostTaken s.time iface 0x4054 s.chip
      exec (.supervisorResetKey iface) s = .next (s.settled s.nv (supReset s.time c))) ∧
  (∀ (s : State),
      exec .chipResetApply s = .next (s.settled s.nv (resetApply s.time s.chip))) ∧
  (∀ (s : State),
      exec .chipResetEnd s = .next (s.settled s.nv (resetEnd s.time s.chip))) ∧
  (∀ (recov : Bool) (pos : Fin 2) (s : State),
      exec (.bootRomComplete recov pos) s = .next (s.settled (bootDone s.time recov pos.val s.nv s.chip).1 (bootDone s.time
          recov pos.val s.nv s.chip).2)) ∧
  (∀ (sopen : BitVec 16) (sclose : BitVec 16) (coefs : List ((Fin 64 × Fin 2 × Fin 1024) × Word)) (s : State), awake s.chip =
      true → s.chip.rd F.SUP_STAT_PHASE = 1 →
      exec (.imageChecksComplete sopen sclose coefs) s = .next (s.settled s.nv (imagesDone s.time sopen.toNat sclose.toNat
        (coefs.map fun x => (2048 * x.1.1.val + 1024 * x.1.2.1.val + x.1.2.2.val, x.2.toNat)) s.nv s.chip))) ∧
  (∀ (sec : ConfigSection) (s : State),
      exec (.configCommitComplete sec) s = .next (s.settled (configDone s.time sec s.nv s.chip).1 (configDone s.time sec s.nv
          s.chip).2)) ∧
  (∀ (iface : Iface) (s : State), hostRuns iface s.chip 0x405C 0xC5E70048 = true →
      let c := hostTaken s.time iface 0x405C s.chip
      exec (.hibernateRequest iface) s = .next (s.settled s.nv (hibRequest s.time 0xC5E70048 c))) ∧
  (∀ (s : State),
      exec .hibernateEntry s = .next (s.settled s.nv (hibEntry s.time s.chip))) ∧
  (∀ (s : State),
      exec .psenHoldEnd s = .next (s.settled s.nv (psenHoldEnd s.time s.chip))) ∧
  (∀ (src : BitVec 7) (s : State),
      exec (.wakeEvent src) s = .next (s.settled s.nv (wakeEvent s.time src.toNat s.chip))) ∧
  (∀ (seen : IbatSeen) (s : State),
      exec (.ibatComparatorAssert seen) s = .next (s.settled s.nv (ibat s.time seen.mv seen.ms s.chip))) ∧
  (∀ (s : State), awake s.chip = true →
      exec .refclkLost s = .next (s.settled s.nv (refclkLost s.time s.chip))) ∧
  (∀ (s : State), awake s.chip = true →
      exec .refclkOutOfRange s = .next (s.settled s.nv (refclkRange s.time s.chip))) ∧
  (∀ (code : BitVec 4) (seen : RailSeen) (s : State), pageAlive s.chip 4 = true →
      exec (.railOutOfWindow code seen) s = .next (s.settled s.nv (railOut s.time code.toNat seen.mv seen.gone s.chip))) ∧
  (∀ (code : BitVec 4) (s : State), pageAlive s.chip 4 = true →
      exec (.railEpisodeEnd code) s = .next (s.settled s.nv (railBack s.time code.toNat s.chip))) ∧
  (∀ (vao : BitVec 9) (s : State), pageAlive s.chip 5 = true →
      exec (.vaoLow vao) s = .next (s.settled s.nv (vaoLow s.time vao.toNat s.chip))) ∧
  (∀ (cen : BitVec 9) (sup : BitVec 9) (ana : BitVec 9) (io : BitVec 9) (steady : Bool) (s : State), pageAlive s.chip 4 = true
      →
      exec (.temperatureSample cen sup ana io steady) s = .next (s.settled s.nv (temperature s.time [cen.toInt, sup.toInt,
          ana.toInt, io.toInt] steady s.chip))) ∧
  (∀ (s : State), pageAlive s.chip 4 = true →
      exec .earlyWarning s = .next (s.settled s.nv (earlyWarning s.time s.chip))) ∧
  (∀ (s : State), pageAlive s.chip 4 = true →
      exec .earlyWarningRecovered s = .next (s.settled s.nv (warningOver s.chip))) ∧
  (∀ (s : State), pageAlive s.chip 8 = true →
      exec .safetyOscillatorFault s = .next (s.settled s.nv (safetyOsc s.time s.chip)))
end

