-- ==== Sys2Proof/Laws/Exec.lean ====
section
/-! SUPPORT. What runs around every command: the page that must be alive, and what is carried out before the command ends. -/

namespace Sys2Proof.Machine

theorem onPage_runs {p : Nat} {f : Time → Chip → Chip} {s : State} (h : pageAlive s.chip p = true) :
    onPage p f s = .next (s.settled s.nv (f s.time s.chip)) := by simp [onPage, onChip, h]

theorem onPageNv_runs {p : Nat} {f : Time → Nv → Chip → Nv × Chip} {s : State} (h : pageAlive s.chip p = true) :
    onPageNv p f s = .next (s.settled (f s.time s.nv s.chip).1 (f s.time s.nv s.chip).2) := by simp [onPageNv, onChipNv, h]

theorem onChipNv_eq {f : Time → Nv → Chip → Nv × Chip} {s : State} {nv : Nv} {c : Chip} (h : f s.time s.nv s.chip = (nv, c)) :
    onChipNv f s = .next (s.settled nv c) := by simp [onChipNv, h]

/-- Nothing waits once what waits has been carried out. -/
theorem settle_due (t : Time) (nv : Nv) (n : Nat) (c : Chip) : (settle t nv n c).due = [] := by
  induction n generalizing c with
  | zero => rfl
  | succ n ih =>
    simp only [settle]
    split
    · assumption
    · exact ih _

/-- With nothing waiting there is nothing to carry out. -/
theorem settle_quiet {t : Time} {nv : Nv} {n : Nat} {c : Chip} (h : c.due = []) : settle t nv n c = c := by
  cases n with
  | zero => cases c; simp_all [settle]
  | succ n => simp [settle, h]

/-- The gates that follow change the legs and nothing else. -/
theorem legsFollow_only (t : Time) (c : Chip) : legsFollow t c = { c with legs := (legsFollow t c).legs } := by
  unfold legsFollow
  split <;> rfl

/-- With no group that has a duty and no gate high, the gates have nothing to follow. -/
theorem legsFollow_idle {t : Time} {c : Chip} (hg : c.groups.any (fun g => g.2.delivered) = false)
    (hl : c.legs.any (fun l => l.2.gh || l.2.gl) = false) : legsFollow t c = c := by
  simp [legsFollow, hg, hl]

/-- Carrying out what waits changes nothing that is kept without power. -/
theorem settled_nv (s : State) (nv : Nv) (c : Chip) : (s.settled nv c).nv = nv := by
  unfold State.settled mirrored applyTime gatesFollow
  split
  · rfl
  · split <;> rfl

/-- Carrying out what waits does not touch the queue of commands. -/
theorem settled_pending (s : State) (nv : Nv) (c : Chip) : (s.settled nv c).pending = s.pending := by
  unfold State.settled mirrored applyTime gatesFollow
  split
  · rfl
  · split <;> rfl

/-- What is sent to a standby is on PAIR alone. -/
theorem forAll_sendItem (t : Time) (ty : Nat) (l : List MirrorItem) (c : Chip) :
    ∃ p n, Chip.forAll l (sendItem t ty) c = { c with par := p, free := n } := by
  induction l generalizing c with
  | nil => exact ⟨c.par, c.free, rfl⟩
  | cons x l ih =>
    have h1 : ∃ p n, sendItem t ty x c = { c with par := p, free := n } := by
      unfold sendItem pairSend
      split
      · exact ⟨_, _, rfl⟩
      · exact ⟨c.par, c.free, rfl⟩
    obtain ⟨p, n, hp⟩ := h1
    obtain ⟨q, m, hq⟩ := ih { c with par := p, free := n }
    exact ⟨q, m, by simpa [Chip.forAll, hp] using hq⟩

/-- Telling a standby changes PAR's frames, with the free values of their bytes, and nothing else. -/
theorem mirrorFollow_only (t : Time) (was c : Chip) : ∃ p n, mirrorFollow t was c = { c with par := p, free := n } := by
  unfold mirrorFollow
  split
  · split
    · exact forAll_sendItem _ _ _ _
    · exact forAll_sendItem _ _ _ _
  · exact ⟨c.par, c.free, rfl⟩

/-- A chip that does not act in a pair tells nobody. -/
theorem mirrorFollow_alone {t : Time} {was c : Chip} (h : prState c ≠ prACTIVE) : mirrorFollow t was c = c := by
  simp [mirrorFollow, h]

/-- What the host wrote in this clock changes register words alone. -/
theorem hostKept_only (t : Time) (c : Chip) : ∃ r x, hostKept t c = { c with regs := r, same := x } := by
  have h (l : List (Nat × Nat × Nat)) (f : Nat × Nat × Nat → Chip → Nat) (d : Chip) :
      ∃ r, Chip.forAll l (fun e c => c.wrR ⟨e.1, resetWord e.1⟩ (f e c)) d = { d with regs := r } := by
    induction l generalizing d with
    | nil => exact ⟨d.regs, rfl⟩
    | cons x l ih =>
      obtain ⟨r, hr⟩ := ih (d.wrR ⟨x.1, resetWord x.1⟩ (f x d))
      exact ⟨r, hr⟩
  unfold hostKept
  split
  · exact ⟨c.regs, _, rfl⟩
  · split
    · obtain ⟨r, hr⟩ := h c.same.wrote (fun e c => (c.rdR ⟨e.1, resetWord e.1⟩ &&& (0xFFFFFFFF ^^^ e.2.1)) ||| e.2.2) c
      exact ⟨r, c.same, hr⟩
    · exact ⟨c.regs, c.same, rfl⟩

/-- Where the host has written nothing in this clock, all stands. -/
theorem hostKept_none {t : Time} {c : Chip} (hh : c.same.host = false) (hw : c.same.wrote = []) : hostKept t c = c := by
  simp [hostKept, hh, hw, Chip.forAll]

/-- The times of the ports are a part of CPT's hidden state alone. -/
theorem portsFollow_only (t : Time) (was c : Chip) : ∃ x, portsFollow t was c = { c with cpt := x } := by
  have h (f : Nat → Chip → Port → Port) (l : List Nat) (e : Chip) :
      ∃ x, Chip.forAll l (fun p c => modPort p (f p c) c) e = { e with cpt := x } := by
    induction l generalizing e with
    | nil => exact ⟨e.cpt, rfl⟩
    | cons p l ih => exact ih _
  unfold portsFollow
  split
  · exact ⟨c.cpt, rfl⟩
  · exact h (fun p c x => { x with clk := portClock t was c p }) _ _

/-- Without CPT no time of a port runs. -/
theorem portsFollow_off {t : Time} {was c : Chip} (h : cptOn c = false) : portsFollow t was c = c := by simp [portsFollow, h]

@[simp] theorem portsFollow_due (t : Time) (was c : Chip) : (portsFollow t was c).due = c.due := by
  obtain ⟨x, h⟩ := portsFollow_only t was c; rw [h]

@[simp] theorem portsFollow_timeReq (t : Time) (was c : Chip) : (portsFollow t was c).timeReq = c.timeReq := by
  obtain ⟨x, h⟩ := portsFollow_only t was c; rw [h]

/-- The gates that follow leave nothing waiting where nothing waited. -/
theorem gatesFollow_quiet (s : State) : quiet (gatesFollow s).chip = quiet s.chip := by
  unfold gatesFollow
  rw [legsFollow_only]
  rfl

/-- Telling a standby leaves nothing waiting where nothing waited. -/
theorem mirrored_quiet (was : Chip) (s : State) : quiet (mirrored was s).chip = quiet s.chip := by
  obtain ⟨p, n, h⟩ := mirrorFollow_only s.time was s.chip
  simp [mirrored, h, quiet]

@[simp] theorem cycleStepped_due (t : Time) (c : Chip) : (cycleStepped t c).due = c.due := by unfold cycleStepped; split <;> rfl

@[simp] theorem cycleStepped_timeReq (t : Time) (c : Chip) : (cycleStepped t c).timeReq = c.timeReq := by
  unfold cycleStepped; split <;> rfl

/-- After every command nothing waits. -/
theorem settled_quiet (s : State) (nv : Nv) (c : Chip) : quiet (s.settled nv c).chip = true := by
  have hd : (hostKept s.time (settle s.time nv settleFuel c)).due = [] := by
    obtain ⟨r, x, h⟩ := hostKept_only s.time (settle s.time nv settleFuel c)
    rw [h]; exact settle_due _ _ _ _
  unfold State.settled
  rw [mirrored_quiet, gatesFollow_quiet]
  unfold applyTime
  split
  · rename_i h; simp only [portsFollow_timeReq] at h ⊢; simp [quiet, hd, h]
  · split <;> simp [quiet, settle_due, hd]

/-- An effect that sets nothing off, asks nothing of the time base and meets no host write of the same clock is the whole
effect, but for the times of the coupler ports, the gates and what a standby is told. -/
theorem settled_plain {s : State} {nv : Nv} {c : Chip} (hd : c.due = []) (ht : c.timeReq = none) (hh : c.same.host = false)
    (hw : c.same.wrote = []) :
    s.settled nv c = mirrored s.chip (gatesFollow { s with nv := nv, chip := portsFollow s.time s.chip c }) := by
  simp [State.settled, applyTime, settle_quiet hd, ht, hostKept_none hh hw]

theorem quiet_parts {c : Chip} (h : quiet c = true) : c.due = [] ∧ c.timeReq = none := by
  simpa [quiet, List.isEmpty_iff, Option.isNone_iff_eq_none] using h

end Sys2Proof.Machine
end

