-- ==== Sys2Proof/Laws/State.lean ====
section
/-! SUPPORT. What each plain change of the chip leaves as it was: registers, shadows, what waits and what is asked of the time
base, with no record update unfolded. -/

namespace Sys2Proof.Machine

/-! ### `Chip.wrR` -/

@[simp] theorem Chip.wrR_shadow (c : Chip) (r : Reg) (v : Nat) : (c.wrR r v).shadow = c.shadow := rfl
@[simp] theorem Chip.wrR_due (c : Chip) (r : Reg) (v : Nat) : (c.wrR r v).due = c.due := rfl
@[simp] theorem Chip.wrR_timeReq (c : Chip) (r : Reg) (v : Nat) : (c.wrR r v).timeReq = c.timeReq := rfl
@[simp] theorem Chip.wrR_free (c : Chip) (r : Reg) (v : Nat) : (c.wrR r v).free = c.free := rfl

/-! ### `Chip.wrShR` -/

@[simp] theorem Chip.wrShR_regs (c : Chip) (r : Reg) (v : Nat) : (c.wrShR r v).regs = c.regs := rfl
@[simp] theorem Chip.wrShR_due (c : Chip) (r : Reg) (v : Nat) : (c.wrShR r v).due = c.due := rfl
@[simp] theorem Chip.wrShR_timeReq (c : Chip) (r : Reg) (v : Nat) : (c.wrShR r v).timeReq = c.timeReq := rfl
@[simp] theorem Chip.wrShR_free (c : Chip) (r : Reg) (v : Nat) : (c.wrShR r v).free = c.free := rfl

/-! ### `Chip.wr` -/

@[simp] theorem Chip.wr_shadow (c : Chip) (f : Fld) (v : Nat) : (c.wr f v).shadow = c.shadow := rfl
@[simp] theorem Chip.wr_due (c : Chip) (f : Fld) (v : Nat) : (c.wr f v).due = c.due := rfl
@[simp] theorem Chip.wr_timeReq (c : Chip) (f : Fld) (v : Nat) : (c.wr f v).timeReq = c.timeReq := rfl
@[simp] theorem Chip.wr_free (c : Chip) (f : Fld) (v : Nat) : (c.wr f v).free = c.free := rfl

/-! ### `Chip.wrB` -/

@[simp] theorem Chip.wrB_shadow (c : Chip) (f : Fld) (b : Bool) : (c.wrB f b).shadow = c.shadow := rfl
@[simp] theorem Chip.wrB_due (c : Chip) (f : Fld) (b : Bool) : (c.wrB f b).due = c.due := rfl
@[simp] theorem Chip.wrB_timeReq (c : Chip) (f : Fld) (b : Bool) : (c.wrB f b).timeReq = c.timeReq := rfl
@[simp] theorem Chip.wrB_free (c : Chip) (f : Fld) (b : Bool) : (c.wrB f b).free = c.free := rfl

/-! ### `Chip.wrI` -/

@[simp] theorem Chip.wrI_shadow (c : Chip) (f : Fld) (v : Int) : (c.wrI f v).shadow = c.shadow := rfl
@[simp] theorem Chip.wrI_due (c : Chip) (f : Fld) (v : Int) : (c.wrI f v).due = c.due := rfl
@[simp] theorem Chip.wrI_timeReq (c : Chip) (f : Fld) (v : Int) : (c.wrI f v).timeReq = c.timeReq := rfl
@[simp] theorem Chip.wrI_free (c : Chip) (f : Fld) (v : Int) : (c.wrI f v).free = c.free := rfl

/-! ### `Chip.count` -/

@[simp] theorem Chip.count_shadow (c : Chip) (f : Fld) (n : Nat) : (c.count f n).shadow = c.shadow := rfl
@[simp] theorem Chip.count_due (c : Chip) (f : Fld) (n : Nat) : (c.count f n).due = c.due := rfl
@[simp] theorem Chip.count_timeReq (c : Chip) (f : Fld) (n : Nat) : (c.count f n).timeReq = c.timeReq := rfl
@[simp] theorem Chip.count_free (c : Chip) (f : Fld) (n : Nat) : (c.count f n).free = c.free := rfl

/-! ### `Chip.push` -/

@[simp] theorem Chip.push_regs (c : Chip) (d : Due) : (c.push d).regs = c.regs := rfl
@[simp] theorem Chip.push_shadow (c : Chip) (d : Due) : (c.push d).shadow = c.shadow := rfl
@[simp] theorem Chip.push_timeReq (c : Chip) (d : Due) : (c.push d).timeReq = c.timeReq := rfl
@[simp] theorem Chip.push_free (c : Chip) (d : Due) : (c.push d).free = c.free := rfl

/-! ### `Chip.askTime` -/

@[simp] theorem Chip.askTime_regs (c : Chip) (r : TimeReq) : (c.askTime r).regs = c.regs := rfl
@[simp] theorem Chip.askTime_shadow (c : Chip) (r : TimeReq) : (c.askTime r).shadow = c.shadow := rfl
@[simp] theorem Chip.askTime_due (c : Chip) (r : TimeReq) : (c.askTime r).due = c.due := rfl
@[simp] theorem Chip.askTime_free (c : Chip) (r : TimeReq) : (c.askTime r).free = c.free := rfl

/-! ### `modAng` -/

@[simp] theorem modAng_regs (c : Chip) (f : Ang → Ang) : (modAng f c).regs = c.regs := rfl
@[simp] theorem modAng_shadow (c : Chip) (f : Ang → Ang) : (modAng f c).shadow = c.shadow := rfl
@[simp] theorem modAng_due (c : Chip) (f : Ang → Ang) : (modAng f c).due = c.due := rfl
@[simp] theorem modAng_timeReq (c : Chip) (f : Ang → Ang) : (modAng f c).timeReq = c.timeReq := rfl
@[simp] theorem modAng_free (c : Chip) (f : Ang → Ang) : (modAng f c).free = c.free := rfl

/-! ### `modBat` -/

@[simp] theorem modBat_regs (c : Chip) (f : Bat → Bat) : (modBat f c).regs = c.regs := rfl
@[simp] theorem modBat_shadow (c : Chip) (f : Bat → Bat) : (modBat f c).shadow = c.shadow := rfl
@[simp] theorem modBat_due (c : Chip) (f : Bat → Bat) : (modBat f c).due = c.due := rfl
@[simp] theorem modBat_timeReq (c : Chip) (f : Bat → Bat) : (modBat f c).timeReq = c.timeReq := rfl
@[simp] theorem modBat_free (c : Chip) (f : Bat → Bat) : (modBat f c).free = c.free := rfl

/-! ### `modMod` -/

@[simp] theorem modMod_regs (c : Chip) (m : Nat) (f : BatMod → BatMod) : (modMod m f c).regs = c.regs := rfl
@[simp] theorem modMod_shadow (c : Chip) (m : Nat) (f : BatMod → BatMod) : (modMod m f c).shadow = c.shadow := rfl
@[simp] theorem modMod_due (c : Chip) (m : Nat) (f : BatMod → BatMod) : (modMod m f c).due = c.due := rfl
@[simp] theorem modMod_timeReq (c : Chip) (m : Nat) (f : BatMod → BatMod) : (modMod m f c).timeReq = c.timeReq := rfl
@[simp] theorem modMod_free (c : Chip) (m : Nat) (f : BatMod → BatMod) : (modMod m f c).free = c.free := rfl

/-! ### `modStr` -/

@[simp] theorem modStr_regs (c : Chip) (k : Nat) (f : BatStr → BatStr) : (modStr k f c).regs = c.regs := rfl
@[simp] theorem modStr_shadow (c : Chip) (k : Nat) (f : BatStr → BatStr) : (modStr k f c).shadow = c.shadow := rfl
@[simp] theorem modStr_due (c : Chip) (k : Nat) (f : BatStr → BatStr) : (modStr k f c).due = c.due := rfl
@[simp] theorem modStr_timeReq (c : Chip) (k : Nat) (f : BatStr → BatStr) : (modStr k f c).timeReq = c.timeReq := rfl
@[simp] theorem modStr_free (c : Chip) (k : Nat) (f : BatStr → BatStr) : (modStr k f c).free = c.free := rfl

/-! ### `modBus` -/

@[simp] theorem modBus_regs (c : Chip) (f : Bus → Bus) : (modBus f c).regs = c.regs := rfl
@[simp] theorem modBus_shadow (c : Chip) (f : Bus → Bus) : (modBus f c).shadow = c.shadow := rfl
@[simp] theorem modBus_due (c : Chip) (f : Bus → Bus) : (modBus f c).due = c.due := rfl
@[simp] theorem modBus_timeReq (c : Chip) (f : Bus → Bus) : (modBus f c).timeReq = c.timeReq := rfl
@[simp] theorem modBus_free (c : Chip) (f : Bus → Bus) : (modBus f c).free = c.free := rfl

/-! ### `modCap` -/

@[simp] theorem modCap_regs (c : Chip) (f : Cap → Cap) : (modCap f c).regs = c.regs := rfl
@[simp] theorem modCap_shadow (c : Chip) (f : Cap → Cap) : (modCap f c).shadow = c.shadow := rfl
@[simp] theorem modCap_due (c : Chip) (f : Cap → Cap) : (modCap f c).due = c.due := rfl
@[simp] theorem modCap_timeReq (c : Chip) (f : Cap → Cap) : (modCap f c).timeReq = c.timeReq := rfl
@[simp] theorem modCap_free (c : Chip) (f : Cap → Cap) : (modCap f c).free = c.free := rfl

/-! ### `modSlot` -/

@[simp] theorem modSlot_regs (c : Chip) (k : Nat) (f : Slot → Slot) : (modSlot k f c).regs = c.regs := rfl
@[simp] theorem modSlot_shadow (c : Chip) (k : Nat) (f : Slot → Slot) : (modSlot k f c).shadow = c.shadow := rfl
@[simp] theorem modSlot_due (c : Chip) (k : Nat) (f : Slot → Slot) : (modSlot k f c).due = c.due := rfl
@[simp] theorem modSlot_timeReq (c : Chip) (k : Nat) (f : Slot → Slot) : (modSlot k f c).timeReq = c.timeReq := rfl
@[simp] theorem modSlot_free (c : Chip) (k : Nat) (f : Slot → Slot) : (modSlot k f c).free = c.free := rfl

/-! ### `modEf` -/

@[simp] theorem modEf_regs (c : Chip) (n : Nat) (f : EfCh → EfCh) : (modEf n f c).regs = c.regs := rfl
@[simp] theorem modEf_shadow (c : Chip) (n : Nat) (f : EfCh → EfCh) : (modEf n f c).shadow = c.shadow := rfl
@[simp] theorem modEf_due (c : Chip) (n : Nat) (f : EfCh → EfCh) : (modEf n f c).due = c.due := rfl
@[simp] theorem modEf_timeReq (c : Chip) (n : Nat) (f : EfCh → EfCh) : (modEf n f c).timeReq = c.timeReq := rfl
@[simp] theorem modEf_free (c : Chip) (n : Nat) (f : EfCh → EfCh) : (modEf n f c).free = c.free := rfl

/-! ### `modFlt` -/

@[simp] theorem modFlt_regs (c : Chip) (f : Flt → Flt) : (modFlt f c).regs = c.regs := rfl
@[simp] theorem modFlt_shadow (c : Chip) (f : Flt → Flt) : (modFlt f c).shadow = c.shadow := rfl
@[simp] theorem modFlt_due (c : Chip) (f : Flt → Flt) : (modFlt f c).due = c.due := rfl
@[simp] theorem modFlt_timeReq (c : Chip) (f : Flt → Flt) : (modFlt f c).timeReq = c.timeReq := rfl
@[simp] theorem modFlt_free (c : Chip) (f : Flt → Flt) : (modFlt f c).free = c.free := rfl

/-! ### `modHif` -/

@[simp] theorem modHif_regs (c : Chip) (f : Hif → Hif) : (modHif f c).regs = c.regs := rfl
@[simp] theorem modHif_shadow (c : Chip) (f : Hif → Hif) : (modHif f c).shadow = c.shadow := rfl
@[simp] theorem modHif_due (c : Chip) (f : Hif → Hif) : (modHif f c).due = c.due := rfl
@[simp] theorem modHif_timeReq (c : Chip) (f : Hif → Hif) : (modHif f c).timeReq = c.timeReq := rfl
@[simp] theorem modHif_free (c : Chip) (f : Hif → Hif) : (modHif f c).free = c.free := rfl

/-! ### `modGroup` -/

@[simp] theorem modGroup_regs (c : Chip) (k : Nat) (f : Group → Group) : (modGroup k f c).regs = c.regs := rfl
@[simp] theorem modGroup_shadow (c : Chip) (k : Nat) (f : Group → Group) : (modGroup k f c).shadow = c.shadow := rfl
@[simp] theorem modGroup_due (c : Chip) (k : Nat) (f : Group → Group) : (modGroup k f c).due = c.due := rfl
@[simp] theorem modGroup_timeReq (c : Chip) (k : Nat) (f : Group → Group) : (modGroup k f c).timeReq = c.timeReq := rfl
@[simp] theorem modGroup_free (c : Chip) (k : Nat) (f : Group → Group) : (modGroup k f c).free = c.free := rfl

/-! ### `modLeg` -/

@[simp] theorem modLeg_regs (c : Chip) (n : Nat) (f : LegSt → LegSt) : (modLeg n f c).regs = c.regs := rfl
@[simp] theorem modLeg_shadow (c : Chip) (n : Nat) (f : LegSt → LegSt) : (modLeg n f c).shadow = c.shadow := rfl
@[simp] theorem modLeg_due (c : Chip) (n : Nat) (f : LegSt → LegSt) : (modLeg n f c).due = c.due := rfl
@[simp] theorem modLeg_timeReq (c : Chip) (n : Nat) (f : LegSt → LegSt) : (modLeg n f c).timeReq = c.timeReq := rfl
@[simp] theorem modLeg_free (c : Chip) (n : Nat) (f : LegSt → LegSt) : (modLeg n f c).free = c.free := rfl

/-! ### `modPar` -/

@[simp] theorem modPar_regs (c : Chip) (f : Par → Par) : (modPar f c).regs = c.regs := rfl
@[simp] theorem modPar_shadow (c : Chip) (f : Par → Par) : (modPar f c).shadow = c.shadow := rfl
@[simp] theorem modPar_due (c : Chip) (f : Par → Par) : (modPar f c).due = c.due := rfl
@[simp] theorem modPar_timeReq (c : Chip) (f : Par → Par) : (modPar f c).timeReq = c.timeReq := rfl
@[simp] theorem modPar_free (c : Chip) (f : Par → Par) : (modPar f c).free = c.free := rfl

/-! ### `modDev` -/

@[simp] theorem modDev_regs (c : Chip) (k : Nat) (f : PmbDev → PmbDev) : (modDev k f c).regs = c.regs := rfl
@[simp] theorem modDev_shadow (c : Chip) (k : Nat) (f : PmbDev → PmbDev) : (modDev k f c).shadow = c.shadow := rfl
@[simp] theorem modDev_due (c : Chip) (k : Nat) (f : PmbDev → PmbDev) : (modDev k f c).due = c.due := rfl
@[simp] theorem modDev_timeReq (c : Chip) (k : Nat) (f : PmbDev → PmbDev) : (modDev k f c).timeReq = c.timeReq := rfl
@[simp] theorem modDev_free (c : Chip) (k : Nat) (f : PmbDev → PmbDev) : (modDev k f c).free = c.free := rfl

/-! ### `modPwr` -/

@[simp] theorem modPwr_regs (c : Chip) (f : Pwr → Pwr) : (modPwr f c).regs = c.regs := rfl
@[simp] theorem modPwr_shadow (c : Chip) (f : Pwr → Pwr) : (modPwr f c).shadow = c.shadow := rfl
@[simp] theorem modPwr_due (c : Chip) (f : Pwr → Pwr) : (modPwr f c).due = c.due := rfl
@[simp] theorem modPwr_timeReq (c : Chip) (f : Pwr → Pwr) : (modPwr f c).timeReq = c.timeReq := rfl
@[simp] theorem modPwr_free (c : Chip) (f : Pwr → Pwr) : (modPwr f c).free = c.free := rfl

/-! ### `modFin` -/

@[simp] theorem modFin_regs (c : Chip) (n : Nat) (f : Fin16 → Fin16) : (modFin n f c).regs = c.regs := rfl
@[simp] theorem modFin_shadow (c : Chip) (n : Nat) (f : Fin16 → Fin16) : (modFin n f c).shadow = c.shadow := rfl
@[simp] theorem modFin_due (c : Chip) (n : Nat) (f : Fin16 → Fin16) : (modFin n f c).due = c.due := rfl
@[simp] theorem modFin_timeReq (c : Chip) (n : Nat) (f : Fin16 → Fin16) : (modFin n f c).timeReq = c.timeReq := rfl
@[simp] theorem modFin_free (c : Chip) (n : Nat) (f : Fin16 → Fin16) : (modFin n f c).free = c.free := rfl

/-! ### `modSin` -/

@[simp] theorem modSin_regs (c : Chip) (n : Nat) (f : Sin32 → Sin32) : (modSin n f c).regs = c.regs := rfl
@[simp] theorem modSin_shadow (c : Chip) (n : Nat) (f : Sin32 → Sin32) : (modSin n f c).shadow = c.shadow := rfl
@[simp] theorem modSin_due (c : Chip) (n : Nat) (f : Sin32 → Sin32) : (modSin n f c).due = c.due := rfl
@[simp] theorem modSin_timeReq (c : Chip) (n : Nat) (f : Sin32 → Sin32) : (modSin n f c).timeReq = c.timeReq := rfl
@[simp] theorem modSin_free (c : Chip) (n : Nat) (f : Sin32 → Sin32) : (modSin n f c).free = c.free := rfl

/-! ### `modCmp` -/

@[simp] theorem modCmp_regs (c : Chip) (n : Nat) (f : CmpSt → CmpSt) : (modCmp n f c).regs = c.regs := rfl
@[simp] theorem modCmp_shadow (c : Chip) (n : Nat) (f : CmpSt → CmpSt) : (modCmp n f c).shadow = c.shadow := rfl
@[simp] theorem modCmp_due (c : Chip) (n : Nat) (f : CmpSt → CmpSt) : (modCmp n f c).due = c.due := rfl
@[simp] theorem modCmp_timeReq (c : Chip) (n : Nat) (f : CmpSt → CmpSt) : (modCmp n f c).timeReq = c.timeReq := rfl
@[simp] theorem modCmp_free (c : Chip) (n : Nat) (f : CmpSt → CmpSt) : (modCmp n f c).free = c.free := rfl

/-! ### `modSeg` -/

@[simp] theorem modSeg_shadow (c : Chip) (n : Nat) (f : Seg → Seg) : (modSeg n f c).shadow = c.shadow := rfl
@[simp] theorem modSeg_due (c : Chip) (n : Nat) (f : Seg → Seg) : (modSeg n f c).due = c.due := rfl
@[simp] theorem modSeg_timeReq (c : Chip) (n : Nat) (f : Seg → Seg) : (modSeg n f c).timeReq = c.timeReq := rfl
@[simp] theorem modSeg_free (c : Chip) (n : Nat) (f : Seg → Seg) : (modSeg n f c).free = c.free := rfl

/-! ### `modUpd` -/

@[simp] theorem modUpd_regs (c : Chip) (f : Upd → Upd) : (modUpd f c).regs = c.regs := rfl
@[simp] theorem modUpd_shadow (c : Chip) (f : Upd → Upd) : (modUpd f c).shadow = c.shadow := rfl
@[simp] theorem modUpd_due (c : Chip) (f : Upd → Upd) : (modUpd f c).due = c.due := rfl
@[simp] theorem modUpd_timeReq (c : Chip) (f : Upd → Upd) : (modUpd f c).timeReq = c.timeReq := rfl
@[simp] theorem modUpd_free (c : Chip) (f : Upd → Upd) : (modUpd f c).free = c.free := rfl

/-! ### `modWdg` -/

@[simp] theorem modWdg_regs (c : Chip) (f : Wdg → Wdg) : (modWdg f c).regs = c.regs := rfl
@[simp] theorem modWdg_shadow (c : Chip) (f : Wdg → Wdg) : (modWdg f c).shadow = c.shadow := rfl
@[simp] theorem modWdg_due (c : Chip) (f : Wdg → Wdg) : (modWdg f c).due = c.due := rfl
@[simp] theorem modWdg_timeReq (c : Chip) (f : Wdg → Wdg) : (modWdg f c).timeReq = c.timeReq := rfl
@[simp] theorem modWdg_free (c : Chip) (f : Wdg → Wdg) : (modWdg f c).free = c.free := rfl

/-! ### `modPort` -/

@[simp] theorem modPort_regs (c : Chip) (p : Nat) (f : Port → Port) : (modPort p f c).regs = c.regs := rfl
@[simp] theorem modPort_shadow (c : Chip) (p : Nat) (f : Port → Port) : (modPort p f c).shadow = c.shadow := rfl
@[simp] theorem modPort_due (c : Chip) (p : Nat) (f : Port → Port) : (modPort p f c).due = c.due := rfl
@[simp] theorem modPort_timeReq (c : Chip) (p : Nat) (f : Port → Port) : (modPort p f c).timeReq = c.timeReq := rfl
@[simp] theorem modPort_free (c : Chip) (p : Nat) (f : Port → Port) : (modPort p f c).free = c.free := rfl

/-! ### `returns` -/

@[simp] theorem returns_regs (c : Chip) (ws : List Nat) : (returns ws c).regs = c.regs := rfl
@[simp] theorem returns_shadow (c : Chip) (ws : List Nat) : (returns ws c).shadow = c.shadow := rfl
@[simp] theorem returns_due (c : Chip) (ws : List Nat) : (returns ws c).due = c.due := rfl
@[simp] theorem returns_timeReq (c : Chip) (ws : List Nat) : (returns ws c).timeReq = c.timeReq := rfl
@[simp] theorem returns_free (c : Chip) (ws : List Nat) : (returns ws c).free = c.free := rfl

end Sys2Proof.Machine
end

