-- ==== Sys2Proof/Laws/Tab.lean ====
section
/-! SUPPORT. Sparse tables: what a write reads back as, what it leaves alone, and that every write keeps the canonical form. -/

namespace Sys2Proof.Tab

theorem get_insert_self {α : Type} (d v : α) (l : Tab α) (n : Nat) : get d (insert l n v) n = v := by
  induction l with
  | nil => simp [insert, get]
  | cons e l ih =>
    simp only [insert]
    split
    · simp [get]
    · split
      · simp [get]
      · simp only [get]; rw [if_neg (by assumption), ih]

theorem get_insert_ne {α : Type} (d v : α) (l : Tab α) {n m : Nat} (h : m ≠ n) : get d (insert l n v) m = get d l m := by
  induction l with
  | nil => simp [insert, get, h]
  | cons e l ih =>
    simp only [insert]
    split
    · subst_vars; simp [get, h]
    · split
      · simp [get, h]
      · simp only [get, ih]

/-- What is kept of a table reads as before. -/
theorem get_filter_keep {α : Type} {d : α} (p : Nat × α → Bool) (l : Tab α) {m : Nat} (hp : ∀ v, p (m, v) = true) :
    get d (l.filter p) m = get d l m := by
  induction l with
  | nil => rfl
  | cons e l ih =>
    simp only [List.filter]
    split
    · simp only [get, ih]
    · rename_i hf
      simp only [get]
      rw [if_neg, ih]
      rintro rfl; simp [hp] at hf

/-- What is not kept of a table reads as an unlisted key. -/
theorem get_filter_drop {α : Type} {d : α} (p : Nat × α → Bool) (l : Tab α) {m : Nat} (hp : ∀ v, p (m, v) = false) :
    get d (l.filter p) m = d := by
  induction l with
  | nil => rfl
  | cons e l ih =>
    simp only [List.filter]
    split
    · rename_i hf
      simp only [get]
      rw [if_neg, ih]
      rintro rfl; simp [hp] at hf
    · exact ih

theorem get_erase_self {α : Type} (d : α) (l : Tab α) (n : Nat) : get d (erase l n) n = d :=
  get_filter_drop _ l fun _ => by simp

theorem get_erase_ne {α : Type} (d : α) (l : Tab α) {n m : Nat} (h : m ≠ n) : get d (erase l n) m = get d l m :=
  get_filter_keep _ l fun _ => by simpa using h

/-- A write reads back. -/
@[simp] theorem get_set_self {α : Type} [DecidableEq α] (d : α) (l : Tab α) (n : Nat) (v : α) : get d (set d l n v) n = v := by
  unfold set
  split
  · subst_vars; exact get_erase_self _ _ _
  · exact get_insert_self d v l n

/-- A write leaves every other key alone, whatever an unlisted key reads as there. -/
theorem get_set_ne {α : Type} [DecidableEq α] (d d' : α) (l : Tab α) {n m : Nat} (v : α) (hm : m ≠ n) :
    get d' (set d l n v) m = get d' l m := by
  unfold set
  split
  · exact get_erase_ne _ _ hm
  · exact get_insert_ne d' v l hm

theorem get_upd_self {α : Type} [DecidableEq α] (d : α) (l : Tab α) (n : Nat) (f : α → α) :
    get d (upd d l n f) n = f (get d l n) := get_set_self _ _ _ _

theorem get_upd_ne {α : Type} [DecidableEq α] (d : α) (l : Tab α) {n m : Nat} (f : α → α) (hm : m ≠ n) :
    get d (upd d l n f) m = get d l m := get_set_ne _ _ _ _ hm

/-- A write of several values leaves every key outside them alone. -/
theorem get_setMany_outside {α : Type} [DecidableEq α] (d : α) (l : Tab α) (n : Nat) (vs : List α) {m : Nat}
    (hm : m < n ∨ n + vs.length ≤ m) : get d (setMany d l n vs) m = get d l m := by
  induction vs generalizing l n with
  | nil => rfl
  | cons v vs ih =>
    simp only [List.length_cons] at hm
    simp only [setMany]
    rw [ih _ (n + 1) (by omega), get_set_ne _ _ _ v (by omega)]

/-- An erase of a range leaves every key outside it alone, and every key in it reads as an unlisted one. -/
theorem get_eraseRange_outside {α : Type} (d : α) (l : Tab α) {lo hi m : Nat} (hm : m < lo ∨ hi ≤ m) :
    get d (eraseRange l lo hi) m = get d l m :=
  get_filter_keep _ l fun _ => by simpa [Bool.or_eq_true] using hm

theorem get_eraseRange_inside {α : Type} (d : α) (l : Tab α) {lo hi m : Nat} (h1 : lo ≤ m) (h2 : m < hi) :
    get d (eraseRange l lo hi) m = d :=
  get_filter_drop _ l fun _ => by simp only [Bool.or_eq_false_iff, decide_eq_false_iff_not]; omega

/-! ### The canonical form -/

theorem wf_go_cons {α : Type} [DecidableEq α] {d v : α} {k n : Nat} {l : Tab α} :
    wf.go d n ((k, v) :: l) = true ↔ n ≤ k ∧ v ≠ d ∧ wf.go d (k + 1) l = true := by
  simp [wf.go, and_assoc]

/-- A table that is canonical from a key on is canonical from any lower key on. -/
theorem wf_go_mono {α : Type} [DecidableEq α] {d : α} {l : Tab α} {m n : Nat} (h : wf.go d n l = true) (hm : m ≤ n) :
    wf.go d m l = true := by
  cases l with
  | nil => rfl
  | cons e l => rw [wf_go_cons] at h ⊢; exact ⟨by omega, h.2⟩

theorem wf_insert {α : Type} [DecidableEq α] {d v : α} (hv : v ≠ d) {l : Tab α} {n : Nat} (k : Nat) (hk : n ≤ k)
    (h : wf.go d n l = true) : wf.go d n (insert l k v) = true := by
  induction l generalizing n with
  | nil => simp [insert, wf.go, hv, hk]
  | cons e l ih =>
    rw [wf_go_cons] at h
    simp only [insert]
    split
    · subst_vars; exact wf_go_cons.2 ⟨h.1, hv, h.2.2⟩
    · split
      · exact wf_go_cons.2 ⟨hk, hv, wf_go_cons.2 ⟨by omega, h.2⟩⟩
      · exact wf_go_cons.2 ⟨h.1, h.2.1, ih (by omega) h.2.2⟩

theorem wf_filter {α : Type} [DecidableEq α] {d : α} (p : Nat × α → Bool) {l : Tab α} {n : Nat} (h : wf.go d n l = true) :
    wf.go d n (l.filter p) = true := by
  induction l generalizing n with
  | nil => rfl
  | cons e l ih =>
    rw [wf_go_cons] at h
    simp only [List.filter]
    split
    · exact wf_go_cons.2 ⟨h.1, h.2.1, ih h.2.2⟩
    · exact wf_go_mono (ih h.2.2) (by omega)

/-- A write keeps the canonical form. -/
theorem wf_set {α : Type} [DecidableEq α] {d : α} {l : Tab α} (h : wf d l = true) (n : Nat) (v : α) :
    wf d (set d l n v) = true := by
  unfold set
  split
  · exact wf_filter _ h
  · rename_i hv; exact wf_insert hv n (Nat.zero_le n) h

theorem wf_setMany {α : Type} [DecidableEq α] {d : α} {l : Tab α} (h : wf d l = true) (n : Nat) (vs : List α) :
    wf d (setMany d l n vs) = true := by
  induction vs generalizing l n with
  | nil => exact h
  | cons v vs ih => exact ih (wf_set h n v) (n + 1)

/-- An erase of a range keeps the canonical form. -/
theorem wf_eraseRange {α : Type} [DecidableEq α] {d : α} {l : Tab α} (h : wf d l = true) (lo hi : Nat) :
    wf d (eraseRange l lo hi) = true := wf_filter _ h

end Sys2Proof.Tab
end

