-- ==== Sys2Proof/Laws/Regs.lean ====
section
/-! SUPPORT. Registers and fields: what a write reads back as, and what it leaves alone. -/

namespace Sys2Proof.Machine

/-! ### Bit fields of a number -/

theorem testBit_bits (v hi lo i : Nat) : (bits v hi lo).testBit i = (decide (i < hi + 1 - lo) && v.testBit (i + lo)) := by
  simp [bits, Nat.testBit_mod_two_pow, Nat.testBit_div_two_pow]

/-- A number is its bits above a field, the field, and its bits below. -/
theorem bits_split (v hi lo : Nat) :
    v = 2 ^ lo * (2 ^ (hi + 1 - lo) * (v / 2 ^ lo / 2 ^ (hi + 1 - lo)) + bits v hi lo) + v % 2 ^ lo := by
  unfold bits
  rw [Nat.div_add_mod, Nat.div_add_mod]

/-- A replaced field, with what stands above and below it. -/
theorem setBits_eq (v hi lo x : Nat) :
    setBits v hi lo x
      = 2 ^ lo * (2 ^ (hi + 1 - lo) * (v / 2 ^ lo / 2 ^ (hi + 1 - lo)) + x % 2 ^ (hi + 1 - lo)) + v % 2 ^ lo := by
  have h := bits_split v hi lo
  rw [Nat.mul_add, Nat.mul_comm _ (bits v hi lo)] at h
  unfold setBits
  rw [Nat.mul_add, Nat.mul_comm _ (x % 2 ^ (hi + 1 - lo))]
  omega

/-- Every bit of a number with one field replaced. -/
theorem testBit_setBits (v hi lo x i : Nat) (h : lo ≤ hi) :
    (setBits v hi lo x).testBit i = if lo ≤ i ∧ i ≤ hi then x.testBit (i - lo) else v.testBit i := by
  rw [setBits_eq, Nat.testBit_two_pow_mul_add _ (Nat.mod_lt _ (Nat.two_pow_pos lo)),
    Nat.testBit_two_pow_mul_add _ (Nat.mod_lt _ (Nat.two_pow_pos _))]
  simp only [Nat.testBit_mod_two_pow, Nat.testBit_div_two_pow]
  split
  · rw [if_neg (by omega)]; simp [*]
  · split
    · rw [if_pos (by omega)]; simp [*]
    · rw [if_neg (by omega)]; congr 1; omega

/-- The field that was replaced reads as what was put there. -/
theorem bits_setBits (v hi lo x : Nat) (h : lo ≤ hi) : bits (setBits v hi lo x) hi lo = x % 2 ^ (hi + 1 - lo) := by
  apply Nat.eq_of_testBit_eq
  intro i
  rw [testBit_bits, testBit_setBits _ _ _ _ _ h, Nat.testBit_mod_two_pow]
  by_cases hi' : i < hi + 1 - lo
  · rw [if_pos (by omega)]; simp
  · simp [hi']

/-- A field apart from the one that was replaced reads as before. -/
theorem bits_setBits_apart (v hi lo x hi' lo' : Nat) (h : lo ≤ hi) (ha : hi < lo' ∨ hi' < lo) :
    bits (setBits v hi lo x) hi' lo' = bits v hi' lo' := by
  apply Nat.eq_of_testBit_eq
  intro i
  rw [testBit_bits, testBit_bits, testBit_setBits _ _ _ _ _ h]
  by_cases hi'' : i < hi' + 1 - lo'
  · rw [if_neg (by omega)]
  · simp [hi'']

/-- A number with one field replaced stays in its width. -/
theorem setBits_lt {v hi lo x n : Nat} (h : lo ≤ hi) (hn : hi < n) (hv : v < 2 ^ n) : setBits v hi lo x < 2 ^ n := by
  apply Nat.lt_pow_two_of_testBit
  intro i hi'
  rw [testBit_setBits _ _ _ _ _ h, if_neg (by omega)]
  exact Nat.testBit_lt_two_pow (Nat.lt_of_lt_of_le hv (Nat.pow_le_pow_right (by omega) hi'))

/-! ### Words -/

theorem Chip.rdR_lt (c : Chip) (r : Reg) : c.rdR r < 2 ^ 32 := (Tab.get r.reset c.regs r.addr).isLt

theorem Chip.rdR_wrR_self (c : Chip) (r : Reg) (v : Nat) : (c.wrR r v).rdR r = v % 2 ^ 32 := by
  simp [Chip.rdR, Chip.wrR]

theorem Chip.rdR_wrR_ne (c : Chip) {r r' : Reg} (v : Nat) (h : r'.addr ≠ r.addr) : (c.wrR r v).rdR r' = c.rdR r' := by
  simp [Chip.rdR, Chip.wrR, Tab.get_set_ne _ _ _ _ h]

theorem Chip.shR_wrShR_self (c : Chip) (r : Reg) (v : Nat) : (c.wrShR r v).shR r = v % 2 ^ 32 := by
  simp [Chip.shR, Chip.wrShR]

theorem Chip.shR_wrShR_ne (c : Chip) {r r' : Reg} (v : Nat) (h : r'.addr ≠ r.addr) : (c.wrShR r v).shR r' = c.shR r' := by
  simp [Chip.shR, Chip.wrShR, Tab.get_set_ne _ _ _ _ h]

@[simp] theorem Chip.shR_wrR (c : Chip) (r r' : Reg) (v : Nat) : (c.wrR r v).shR r' = c.shR r' := rfl
@[simp] theorem Chip.rdR_wrShR (c : Chip) (r r' : Reg) (v : Nat) : (c.wrShR r v).rdR r' = c.rdR r' := rfl

/-! ### Fields -/

/-- A field reads back as what was written, in its width. -/
theorem Chip.rd_wr_self (c : Chip) (f : Fld) (v : Nat) (h : f.lo ≤ f.hi) (h32 : f.hi < 32) :
    (c.wr f v).rd f = v % 2 ^ (f.hi + 1 - f.lo) := by
  rw [Chip.rd, Chip.wr, Chip.rdR_wrR_self, Nat.mod_eq_of_lt (setBits_lt h h32 (c.rdR_lt _)), bits_setBits _ _ _ _ h]

/-- A field apart from the one written, in the same register, reads as before. -/
theorem Chip.rd_wr_apart (c : Chip) {f g : Fld} (v : Nat) (h : f.lo ≤ f.hi) (h32 : f.hi < 32) (hr : g.reg = f.reg)
    (ha : f.hi < g.lo ∨ g.hi < f.lo) : (c.wr f v).rd g = c.rd g := by
  rw [Chip.rd, Chip.wr, hr, Chip.rdR_wrR_self, Nat.mod_eq_of_lt (setBits_lt h h32 (c.rdR_lt _)), bits_setBits_apart _ _ _ _ _ _ h ha,
    Chip.rd, hr]

/-- A field of another register reads as before. -/
theorem Chip.rd_wr_ne (c : Chip) {f g : Fld} (v : Nat) (h : g.reg.addr ≠ f.reg.addr) : (c.wr f v).rd g = c.rd g := by
  rw [Chip.rd, Chip.wr, Chip.rdR_wrR_ne _ _ h, Chip.rd]

end Sys2Proof.Machine
end

