-- ==== Sys2Proof/Laws/Host.lean ====
section
/-! SUPPORT. What an accepted host access does: the gates open, and the register's own operation, or its access codes, decide. -/

namespace Sys2Proof.Machine

theorem hostReaches_parts {iface : Iface} {c : Chip} {off : Nat} (h : hostReaches iface c off = true) :
    awake c = true ∧ isMsix iface off = false ∧ pageReach iface c (off / 4096) = true
      ∧ (iface = .pcie ∨ spiOn c = true ∧ c.flag F.HIF_CTL_SPIWR = true) := by
  simp only [hostReaches, Bool.and_eq_true, Bool.or_eq_true, beq_iff_eq, Bool.not_eq_true'] at h
  exact ⟨h.1.1.1, h.1.1.2, h.1.2, h.2⟩

/-- An accepted write passes every gate and changes nothing on the way. -/
theorem writeGate_accepts {t : Time} {iface : Iface} {c : Chip} {off : Nat} (h : hostMay iface c off = true) :
    writeGate t iface off c = (c, true) := by
  simp only [hostMay, Bool.and_eq_true, Bool.not_eq_true'] at h
  obtain ⟨⟨hr, hk⟩, hb⟩ := h
  obtain ⟨ha, -, hp, hi⟩ := hostReaches_parts hr
  have hl : (!keyless off && !unlocked iface c (off / 4096) && !lapsedNow t iface c (off / 4096)) = false := by
    rcases Bool.or_eq_true _ _ ▸ hk with h | h <;> simp [h]
  have hn : (iface == .spi && !spiOn c) = false := by
    cases iface <;> simp_all
  have hs : (iface == .spi && !pageReach .spi c (off / 4096)) = false ∧ (iface == .spi && !c.flag F.HIF_CTL_SPIWR) = false := by
    cases iface <;> simp_all
  simp only [writeGate, ha, hp, hn, hs.1, hs.2, hl, hb, Bool.not_true, Bool.false_eq_true, Bool.or_self, if_false, Bool.not_false, Bool.and_self]

/-- An accepted write is the write of its word. -/
theorem hostWrite_accepted {t : Time} {iface : Iface} {c : Chip} {off v : Nat} {nv : Nv} (h : hostMay iface c off = true) :
    hostWrite t iface off v nv c = writeWord t iface nv off v (hostTaken t iface off c) := by
  have hr : hostReaches iface c off = true := by
    simp only [hostMay, Bool.and_eq_true] at h; exact h.1.1
  obtain ⟨-, hm, -, -⟩ := hostReaches_parts hr
  simp [hostWrite, hm, writeGate_accepts h]

/-- An accepted write finds every part of the chip but what one clock has seen, the marks of its access and PGSTAT of its page
as it was. -/
theorem hostTaken_only (t : Time) (iface : Iface) (off : Nat) (c : Chip) :
    (∃ r x w l, hostTaken t iface off c = { c with regs := r, same := x, wroteAt := w, lapsedAt := l }) ∧
      ∀ r : Reg, r.addr ≠ (R.PGSTAT (off / 4096)).addr → (hostTaken t iface off c).rdR r = c.rdR r := by
  simp only [hostTaken, stayOpen]
  split
  · refine ⟨⟨_, _, _, _, rfl⟩, fun r h => ?_⟩
    have h' : r.addr ≠ (unlockFlag iface (off / 4096)).reg.addr := by cases iface <;> exact h
    exact Chip.rdR_wrR_ne _ _ h'
  · exact ⟨⟨_, _, _, _, rfl⟩, fun r _ => rfl⟩

/-- An accepted write finds the block of its word as it was. -/
theorem operates_hostTaken (t : Time) (iface : Iface) (off : Nat) (c : Chip) :
    operates (hostTaken t iface off c) off = operates c off := by
  obtain ⟨⟨r, x, w, l, h⟩, hr⟩ := hostTaken_only t iface off c
  have hb : (hostTaken t iface off c).blockOn (off / 4096) = c.blockOn (off / 4096) := by
    have h1 : (F.PGCTL_EN (off / 4096)).reg.addr ≠ (R.PGSTAT (off / 4096)).addr := by
      simp only [F.PGCTL_EN, R.PGCTL, R.PGSTAT]; omega
    simp [Chip.blockOn, Chip.flag, Chip.rd, hr _ h1]
  have hp : (hostTaken t iface off c).pwr = c.pwr := by rw [h]
  simp [operates, pageAlive, awake, hb, hp]

theorem wordFits_row {off v : Nat} (h : wordFits off v = true) : ∃ r, accessRow off = some r ∧
    ((r.rw ||| r.rws ||| r.w1c ||| r.wo) = 0) = False ∧ outOfRange off v = false
      ∧ v &&& (0xFFFFFFFF ^^^ (r.rw ||| r.rws ||| r.w1c ||| r.wo ||| r.rc ||| r.ro)) = 0 := by
  unfold wordFits at h
  split at h
  · cases h
  · rename_i r hr
    simp only [Bool.and_eq_true, bne_iff_ne, ne_eq, Bool.not_eq_true', beq_iff_eq] at h
    exact ⟨r, hr, eq_false h.1.1, h.1.2, h.2⟩

/-- A fitting word of a register that is an operation of its own: that operation. -/
theorem writeWord_special {t : Time} {iface : Iface} {c : Chip} {off v : Nat} {nv : Nv} {x : Nv × Chip}
    (hf : wordFits off v = true) (ho : operates c off = true)
    (hh : headerWrite t iface nv (off / 4096) (off % 4096) v (noticed t off c) = none) (hs : specialWrite t off v nv (noticed t off c) = some x) :
    writeWord t iface nv off v c = x := by
  obtain ⟨r, hr, h0, h1, h2⟩ := wordFits_row hf
  simp only [writeWord, hr, h0, h1, h2, hh, ho, hs, if_false, if_true, Bool.false_eq_true, ne_eq, not_true_eq_false]

/-- A fitting word of a header register that is an operation of its own. -/
theorem writeWord_header {t : Time} {iface : Iface} {c x : Chip} {off v : Nat} {nv : Nv}
    (hf : wordFits off v = true) (hh : headerWrite t iface nv (off / 4096) (off % 4096) v (noticed t off c) = some x) :
    writeWord t iface nv off v c = (nv, x) := by
  obtain ⟨r, hr, h0, h1, h2⟩ := wordFits_row hf
  simp only [writeWord, hr, h0, h1, h2, hh, if_false, Bool.false_eq_true, ne_eq, not_true_eq_false]

/-- A fitting word of any other register: the store by its access codes. -/
theorem writeWord_store {t : Time} {iface : Iface} {c : Chip} {off v : Nat} {nv : Nv} {r : MapRow}
    (hf : wordFits off v = true) (hr : accessRow off = some r)
    (hh : headerWrite t iface nv (off / 4096) (off % 4096) v (noticed t off c) = none) (hs : specialWrite t off v nv (noticed t off c) = none) :
    writeWord t iface nv off v c
      = (nv, noteSpi t iface off (storeWord t off (spiStands t iface off v r (noticed t off c)) r (noticed t off c))) := by
  obtain ⟨r', hr', h0, h1, h2⟩ := wordFits_row hf
  cases hr.symm.trans hr'
  simp only [writeWord, hr, h0, h1, h2, hh, hs, if_false, ite_self, Bool.false_eq_true, ne_eq, not_true_eq_false]

/-- A register command that is accepted and carried out is the register's own operation. -/
theorem hostWrite_runs {t : Time} {iface : Iface} {c : Chip} {off v : Nat} {nv : Nv} {x : Nv × Chip}
    (h : hostRuns iface c off v = true) (hh : headerWrite t iface nv (off / 4096) (off % 4096) v (noticed t off (hostTaken t iface off c)) = none)
    (hs : specialWrite t off v nv (noticed t off (hostTaken t iface off c)) = some x) : hostWrite t iface off v nv c = x := by
  simp only [hostRuns, Bool.and_eq_true] at h
  have ho : operates (hostTaken t iface off c) off = true := by rw [operates_hostTaken]; exact h.2
  rw [hostWrite_accepted h.1.1, writeWord_special h.1.2 ho hh hs]

/-- A read that reaches a register whose read is an operation of its own. -/
theorem hostRead_special {t : Time} {iface : Iface} {c : Chip} {off : Nat} {nv : Nv} {x : Chip × Nat}
    (h : hostSees iface c off = true) (h0 : off % 4096 ≠ 0) (h4 : off % 4096 ≠ 4) (h18 : off % 4096 ≠ 0x18)
    (hb : off ≠ 0x41000) (hs : specialRead t off nv c = some x) : hostRead t iface off nv c = x := by
  simp only [hostSees, Bool.and_eq_true, Bool.not_eq_true'] at h
  obtain ⟨⟨⟨⟨ha, hm⟩, hp⟩, hl⟩, hn⟩ := h
  have hn : (iface == .spi && !spiOn c) = false := by cases iface <;> simp_all
  have ho : operates c off = true := by simp [operates, hl]
  have hspi : (iface == .spi && !pageReach .spi c (off / 4096)) = false := by cases iface <;> simp_all
  unfold hostRead
  simp only [ha, hm, hp, hspi, hn, Bool.or_false, hb, ho, hs, Bool.not_true, Bool.false_eq_true, if_false, beq_iff_eq, Bool.and_eq_true, and_false,
    if_true]

end Sys2Proof.Machine
end

