-- ==== Sys2Proof/Laws/Ops.lean ====
section
/-! SUPPORT. What a report of a fault, or a rise of an interrupt bit, can touch: everything else of the chip is as it was. -/

namespace Sys2Proof.Machine

/-- The registers that a report touches, with the IRQRAW registers of the pages listed. -/
def reportRegs (ps : List Nat) : List Nat :=
  ps.map (fun p => (irqRaw p).addr) ++ [R.HIF_VPEND.addr, R.SUP_STAT.addr, R.FLT_STAT.addr, R.FLT_OPEN.addr]

/-- From `c` to `c'` only the registers of reports, FLT's own state, what waits, the due messages and the note of the present
clock (R8) have changed, and what
waited still waits, in front. -/
def Reported (ps : List Nat) (c c' : Chip) : Prop :=
  (∀ r : Reg, r.addr ∉ reportRegs ps → c'.rdR r = c.rdR r) ∧ (∃ l, c'.due = c.due ++ l) ∧
    { c' with regs := c.regs, flt := c.flt, due := c.due, msixDue := c.msixDue, same := c.same } = c

theorem Reported.refl (ps : List Nat) (c : Chip) : Reported ps c c := ⟨fun _ _ => rfl, ⟨[], by simp⟩, rfl⟩

theorem Reported.trans {ps : List Nat} {a b c : Chip} (h : Reported ps a b) (h' : Reported ps b c) : Reported ps a c := by
  refine ⟨fun r hr => (h'.1 r hr).trans (h.1 r hr), ?_, ?_⟩
  · obtain ⟨l, hl⟩ := h.2.1
    obtain ⟨l', hl'⟩ := h'.2.1
    exact ⟨l ++ l', by rw [hl', hl, List.append_assoc]⟩
  · have e := h.2.2
    have e' := h'.2.2
    rw [← e'] at e
    exact e

theorem Reported.mono {ps qs : List Nat} {a b : Chip} (h : Reported ps a b) (hs : ps ⊆ qs) : Reported qs a b := by
  refine ⟨fun r hr => h.1 r fun hm => hr ?_, h.2⟩
  simp only [reportRegs, List.mem_append, List.mem_map] at hm ⊢
  rcases hm with ⟨p, hp, e⟩ | hm
  · exact .inl ⟨p, hs hp, e⟩
  · exact .inr hm

/-- A register that reports touch is written. -/
theorem Reported.wrR {ps : List Nat} (c : Chip) {r : Reg} (v : Nat) (h : r.addr ∈ reportRegs ps) : Reported ps c (c.wrR r v) :=
  ⟨fun _ hr => Chip.rdR_wrR_ne _ _ fun e => hr (e ▸ h), ⟨[], by simp⟩, rfl⟩

theorem Reported.push (ps : List Nat) (c : Chip) (d : Due) : Reported ps c (c.push d) := ⟨fun _ _ => rfl, ⟨[d], rfl⟩, rfl⟩

theorem Reported.flt (ps : List Nat) (c : Chip) (f : Flt) : Reported ps c { c with flt := f } := ⟨fun _ _ => rfl, ⟨[], by simp⟩, rfl⟩

theorem Reported.onlyIf {ps : List Nat} {a c : Chip} {f : Chip → Chip} (b : Bool) (h : Reported ps a c)
    (hf : ∀ c, Reported ps c (f c)) : Reported ps a (c.onlyIf b f) := by
  unfold Chip.onlyIf; split
  · exact h.trans (hf c)
  · exact h

theorem Reported.ite {ps : List Nat} {a b c : Chip} {p : Prop} [Decidable p] (h : Reported ps a b) (h' : Reported ps a c) :
    Reported ps a (if p then b else c) := by split <;> assumption

theorem vecDue_reported (ps : List Nat) (v : Nat) (c : Chip) : Reported ps c (vecDue v c) := by
  unfold vecDue
  split
  · exact .refl _ _
  · dsimp only
    split
    · exact .refl _ _
    · exact .trans (.wrR c (r := R.HIF_VPEND) _ (by simp [reportRegs])) ⟨fun _ _ => rfl, ⟨[], by simp⟩, rfl⟩

theorem forAll_reported {α : Type} {ps : List Nat} {f : α → Chip → Chip} (hf : ∀ a c, Reported ps c (f a c)) (l : List α) (c : Chip) :
    Reported ps c (c.forAll l f) := by
  unfold Chip.forAll
  induction l generalizing c with
  | nil => exact .refl _ _
  | cons a l ih => exact (hf a c).trans (ih _)

theorem fireAll_reported (ps : List Nat) (l : List Nat) (fault addr : Nat) (c : Chip) : Reported ps c (fireAll l fault addr c) :=
  forAll_reported (fun _ _ => .push _ _ _) l c

theorem noteSet_reported (ps : List Nat) (t : Time) (off m : Nat) (c : Chip) : Reported ps c (noteSet t off m c) :=
  ⟨fun _ _ => rfl, ⟨[], by simp [noteSet]⟩, rfl⟩

/-- The rise of an interrupt bit (R334, R336, R440). -/
theorem irq_reported {ps : List Nat} (t : Time) {p : Nat} (b : Nat) (c : Chip) (h : p ∈ ps) : Reported ps c (irq t p b c) := by
  unfold irq
  dsimp only
  refine .trans (noteSet_reported ps t (irqRaw p).addr (2 ^ b) c) ?_
  generalize noteSet t (irqRaw p).addr (2 ^ b) c = c
  split
  · exact .refl _ _
  · refine .trans ?_ (fireAll_reported _ _ _ _ _)
    have h1 : Reported ps c (c.wrR (irqRaw p) (setBit (c.rdR (irqRaw p)) b true)) :=
      .wrR _ _ (by simp only [reportRegs, List.mem_append, List.mem_map]; exact .inl ⟨p, h, rfl⟩)
    refine .ite (.trans (.ite (h1.trans (vecDue_reported _ _ _)) h1) (.push _ _ _)) (.ite (h1.trans (vecDue_reported _ _ _)) h1)

theorem setLane_reported (ps : List Nat) (s : Nat) (l : Lane) (c : Chip) : Reported ps c (setLane s l c) := by
  unfold setLane
  exact ((Reported.flt ps c _).trans (.wrR _ _ (by simp [reportRegs]))).trans (.wrR _ _ (by simp [reportRegs, F.FLT_STAT_NOPEN]))

theorem errUpdate_reported (ps : List Nat) (t : Time) (c : Chip) : Reported ps c (errUpdate t c) := by
  have h : ∀ c b, Reported ps c (c.wrB F.FLT_STAT_ERR b) := fun c b => .wrR _ _ (by simp [reportRegs, F.FLT_STAT_ERR])
  unfold errUpdate
  exact .ite (.ite (.refl _ _) ((Reported.flt ps c _).trans (h _ _))) (.ite (.refl _ _) (h _ _))

theorem startReactions_reported {ps : List Nat} (t : Time) (source kind kinds start : Nat) (forced : Bool) (c : Chip) (h : 8 ∈ ps) :
    Reported ps c (startReactions t source kind kinds start forced c) := by
  unfold startReactions
  refine .onlyIf _ (.onlyIf _ (.onlyIf _ (.onlyIf _ (.onlyIf _ (.onlyIf _ (.onlyIf _ (.refl _ _) ?_) ?_) ?_) ?_) ?_) ?_) ?_
  · exact fun c => irq_reported t 0 c h
  · exact fun c => .wrR _ _ (by simp [reportRegs, F.SUP_STAT_TRAP])
  · exact fun c => (Reported.flt ps c _).trans (.wrR _ _ (by simp [reportRegs, F.FLT_STAT_HCNT]))
  all_goals exact fun c => .push _ _ _

theorem lanePass_reported {ps : List Nat} (t : Time) (source kind addr : Nat) (inj : Bool) (c : Chip) (h : 8 ∈ ps) :
    Reported ps c (lanePass t source kind addr inj c).1 := by
  unfold lanePass
  dsimp only
  refine .trans ?_ (fireAll_reported _ _ _ _ _)
  refine .trans ?_ (errUpdate_reported _ _ _)
  refine .trans ?_ (startReactions_reported t _ _ _ _ _ _ h)
  have h1 : ∀ (q : List Msg) (c : Chip), Reported ps c (({ c with flt := { c.flt with queue := q } } : Chip).wr F.FLT_STAT_QFILL q.length) :=
    fun q c => (Reported.flt ps c _).trans (.wrR _ _ (by simp [reportRegs, F.FLT_STAT_QFILL]))
  exact .ite ((((setLane_reported _ _ _ _)).trans (h1 _ _)).trans (irq_reported t 2 _ h)) ((setLane_reported _ _ _ _).trans (h1 _ _))

/-- A fault message (R376): FLT's own registers and state, the interrupt bits of FLT, and what it sets off. -/
theorem raise_reported {ps : List Nat} (t : Time) (source kind addr : Nat) (c : Chip) (inj : Bool) (h : 8 ∈ ps) :
    Reported ps c (raise t source kind addr c inj) := by
  unfold raise
  dsimp only
  have h1 := lanePass_reported t source kind addr inj c h
  have h2 : ∀ c : Chip, Reported ps c (lanePass t 0x01 0x02 (source * 256 + kind) false c).1 := fun c => lanePass_reported t _ _ _ _ c h
  have h3 : ∀ c : Chip, Reported ps c (lanePass t 0x01 0x01 source false c).1 := fun c => lanePass_reported t _ _ _ _ c h
  exact .ite (.trans (.ite (h1.trans (h2 _)) h1) (h3 _)) (.ite (h1.trans (h2 _)) h1)

end Sys2Proof.Machine
end

