-- ==== Sys2Proof/WellFormed.lean ====
section
/-! DEFINITION. Commands that a sender can send: the operands whose types are wider than what the manual lets stand there are
within it. A command that breaks a check stands for nothing on a pin or a wire; the machine runs it all the same, so nothing
is assumed of the sender (log 6). -/

namespace Sys2Proof

/-- A number fits into `w` bits. -/
def fits (w n : Nat) : Bool := decide (n < 2 ^ w)

/-- The levels of a wire test lie within the 4.0 V that the pins bear (R486). -/
def WireTest.wf (w : WireTest) : Bool :=
  [w.a0, w.b0, w.cl0, w.a1, w.b1, w.cl1, w.a2, w.b2, w.cl2].all (decide <| · ≤ 4000)

/-- A frame that a controller sends over the shelf link: class, type, context, sequence number, node and at most 63 payload
words (R296). -/
def Frame.wf (f : Frame) : Bool :=
  fits 2 f.cls && fits 6 f.ty && fits 8 f.ctx && fits 16 f.seq && fits 6 f.node && fits 6 f.words.length && f.words.all (fits 32)

/-- A frame received on one of the two segments, likewise (R296). -/
def RxFrame.wf (f : RxFrame) : Bool :=
  fits 1 f.seg && fits 1 f.pos && fits 8 f.ctx && fits 16 f.seq && fits 6 f.node && fits 6 f.words.length && f.words.all (fits 32)

/-- An IDLE frame of PAIR: two lanes, the states of PAR_STAT, two positions, and the fields' widths (R363, R375). -/
def PairIdle.wf (x : PairIdle) : Bool :=
  fits 1 x.lane && fits 3 x.state && fits 1 x.pos && fits 16 x.gen && fits 16 x.ack && fits 8 x.ppMin && fits 8 x.ppMax

/-- What a MIRROR or BULK frame can carry: a word of BAR0, a coefficient of a slot, a schedule entry, a context slot, or mirrored
state with the numbers of its unit. -/
def MirrorItem.wf : MirrorItem → Bool
  | .reg off word => fits 24 off && off % 4 == 0 && fits 32 word
  | .coef k b off word => fits 5 k && fits 1 b && fits 10 off && fits 32 word
  | .sched _ idx w0 w1 w2 w3 => fits 10 idx && [w0, w1, w2, w3].all (fits 32)
  | .slot k words => fits 8 k && words.length == 64 && words.all (fits 32)
  | .ang a => decide (a.planned.length ≤ 4) && decide (a.opened.length ≤ 4)
  | .trip n legs _ => decide (n < 24) && fits 12 legs
  | .intents l => decide (l.length ≤ 32) && l.all fun x => fits 5 x.slot
  | .bus b => decide (b.notices.length ≤ 4) && fits 8 b.droop && b.notices.all fun n => fits 4 n.id && fits 24 n.dur
  | .cap x => x.cars.all (fun h => fits 64 h.id && fits 5 h.car) && x.oldCars.all (fits 5)
  | .capUnit _ k w => fits 9 k && fits 32 w
  | .child k x => fits 5 k && fits 32 x.addr && fits 2 x.level
  | .binding k b => fits 8 k && fits 64 b.id && fits 6 b.module && fits 8 b.ctx
  | .charger _ => true
  | .batMod m x words => fits 4 m && fits 64 x.id && words.length == 5 && words.all (fits 32)
  | .port p x => fits 2 p && x.queue.all fun k => decide (k.objs.length ≤ 7) && k.objs.all (fits 32)
  | .gaps _ _ mail => fits 4 mail
  | .seg n tx rx own => fits 1 n && tx.length == 3 && rx.length == 3 && fits 8 own

/-- A configuration section: a shelf number, a car identity, bindings, and words of the pages (R417). -/
def ConfigSection.wf (s : ConfigSection) : Bool :=
  fits 4 s.shelf && fits 64 s.carId && s.bindings.all (fun b => fits 8 b.1 && fits 64 b.2.id && fits 6 b.2.module && fits 8 b.2.ctx)
    && s.words.all fun w => decide (w.1 < 25 * 4096) && w.1 % 4 == 0 && fits 32 w.2

/-- A command is well formed. -/
def Instr.wf : Instr → Bool
  | .grantReceive f => f.wf
  | .capReportReceive f => f.wf
  | .electionObjectReceive f => f.wf
  | .efuSenseFrame codes => codes.length == 16
  | .efuEvaluationTick isV gsV => isV.length == 16 && gsV.length == 16
  | .capExceeded _ mean => fits 16 mean
  | .wireWindowChange _ _ mv => decide (mv.toNat ≤ 4000)
  | .attachDebounceEnd _ w => w.wf
  | .detachDebounceEnd _ w => w.wf
  | .wireTestComplete _ w => w.wf
  | .wireTestConfirm _ w => w.wf
  | .packetReceive _ set body _ => set.length == 4 && decide (body.length ≤ 128)
  | .offerReceived _ objs => decide (objs.length ≤ 7)
  | .relayReceived _ objs => decide (objs.length ≤ 7)
  | .helloReceived f => f.wf
  | .reportReceive f => f.wf
  | .elemrepReceived f => f.wf
  | .idleFrameReceived f => f.wf
  | .leaveReceived f => f.wf
  | .slIntentReceived f => f.wf
  | .gapfwdReceived f => f.wf
  | .hostmsgReceived f => f.wf
  | .pollReceived f => f.wf
  | .assignReceived f _ => f.wf
  | .discoverReceived f => f.wf
  | .timeReceived f => f.wf
  | .forgetReceived f => f.wf
  | .windowEnd tag => fits 32 tag
  | .pairIdleReceived x => x.wf
  | .alignReceived _ phases => decide (phases.length ≤ 6)
  | .appliedReceived vs => decide (vs.length ≤ 256)
  | .slframeReceived _ _ f => f.wf
  | .mirrorReceived _ m => m.wf
  | .bulkReceived _ m => m.wf
  | .faultMessage source kind _ => decide (0 < source.val) && decide (0 < kind.toNat)
  | .macFrameReceive _ _ frame _ => fits 16 frame.length
  | .macFrameTransmit _ len frame => frame.length == len.toNat
  | .spiWriteFrame bytes => fits 16 bytes.length
  | .railOutOfWindow code _ => [1, 2, 3, 4].contains code.toNat || decide (8 ≤ code.toNat)
  | .railEpisodeEnd code => [1, 2, 3, 4].contains code.toNat || decide (8 ≤ code.toNat)
  | .powerOnReset rail => [0, 1, 2, 8].contains rail.code.toNat
  | .configCommitComplete sec => sec.wf
  | .registerWrite .. | .rcRegisterRead .. | .pageUnlock .. | .pageUnlockTimeout .. | .pageLock ..
  | .pageBlockReset .. | .blockLogicHold .. | .blockLogicRelease .. | .commitImmediate .. | .commitAtBoundary ..
  | .commitAtAngle .. | .pendingCommitApply .. | .slowConversion .. | .lockAcquired | .unlockDeclared
  | .supplyLossDeclared | .supplyPresent | .outOfBand .. | .dcDetected | .pauseEnd | .holdoverExpired
  | .plannedHoldoverStart | .plannedWindowEnd | .driftUpdate | .cycleStart | .schedNone .. | .schedTriggerSlot ..
  | .schedStartConversion .. | .schedDropShedPhase .. | .schedAddPhases .. | .schedEfuseOn .. | .schedEfuseOff ..
  | .schedReleaseFrames .. | .schedRecorderMarker .. | .schedHostEvent .. | .bankCopyDone | .scheduleReadEntry ..
  | .scheduleWriteEntry .. | .scheduleClearBank .. | .angleNowRead | .nsTimeStep .. | .nsRateAdjust ..
  | .pwmPeriodBoundary .. | .shedAnnounceTimeout .. | .legForceOff .. | .fastConversionStart ..
  | .fastReadingReady .. | .openWireTest .. | .comparatorAssert .. | .comparatorRelease .. | .tripClear ..
  | .heldClearApply .. | .chatterDetected .. | .stepCatchFire .. | .stepCatchEnd .. | .catchHoldoffEnd ..
  | .shedFreezeEnd .. | .pwmAlignmentLost | .cenHostTrigger .. | .deferredHostTrigger .. | .cenIteration
  | .seedRequest .. | .coefficientWrite .. | .coefficientRead | .busUndervoltage | .busOvervoltage | .demandUnmet
  | .sharingError .. | .setpointSend | .channelDroopEnter .. | .busDipDetect | .takeoverLate | .noticePrepStart
  | .rampStart | .rampEnd | .lineFactorStep | .returnStart | .gapNoticePost .. | .gapNoticeCancel ..
  | .capReportPeriod | .grantEffective .. | .grantLost .. | .overBudget | .capShedStep | .loadIntentPost ..
  | .electionSettle | .carHeadFailover | .registryLookup .. | .registryLookupDone | .entryStale .. | .xinGrantDeliver
  | .xinReportDeliver | .xinElectionDeliver | .channelEnableCommand .. | .damageClear .. | .gateRiseTimeout ..
  | .gateLostInOn .. | .offStateCurrent .. | .faultTimerTrip .. | .overcurrentTrip .. | .shortDuringRamp ..
  | .reversalCleared .. | .retryWaitEnd .. | .retryReload .. | .powerGoodAssert .. | .pairShareUpdate ..
  | .pairShareError .. | .estimatorStep | .restAnchor .. | .chargingCorrection .. | .moduleStale ..
  | .impedanceWindowJudge .. | .prechargeTimeout | .bulkTimeout | .chargeTaperDone | .absorptionUpdate
  | .deepDischarge .. | .deepRelease .. | .idleEnter | .recordSave | .stagingClear | .restoreCommit ..
  | .recordBufferAccess .. | .chatterHoldEnd .. | .sourceSelfMap .. | .togglePhaseEnd .. | .wireTestPeriodic ..
  | .wireTestCommand .. | .packetTransmitStart .. | .packetTransmitEnd .. | .collision .. | .ackSend ..
  | .ackReceived .. | .ackTimeout .. | .hardResetSend .. | .hardResetForced .. | .hardResetReceive ..
  | .acceptReceived .. | .rejectReceived .. | .readyReceived .. | .getcapsReceived .. | .swapReceived ..
  | .waitReceived .. | .waitResend .. | .sresetReceived .. | .notsuppReceived .. | .requestReceived ..
  | .identReceived .. | .intentReceived .. | .gapReceived .. | .unknownTypeReceived .. | .senderResponseTimeout ..
  | .transitionTimeout .. | .sinkWaitCapTimeout .. | .swapOffTimeout .. | .swapOnTimeout .. | .safe0Timeout ..
  | .reqRetryTimeout .. | .sourceSettled .. | .lineDischarged .. | .swapLineReleased .. | .forcedDetachRelease ..
  | .swapCommand .. | .renegCommand .. | .sresetCommand .. | .hresetCommand .. | .unblockCommand .. | .identResend ..
  | .mailboxSendIntent .. | .mailboxSendGap .. | .frameTransmitStart .. | .frameTransmitDone .. | .c0FrameCut ..
  | .pollDue .. | .grantEnd .. | .missedPoll .. | .discoverPeriod .. | .joinTimeout .. | .segmentDown ..
  | .timeFramePeriod .. | .controllerLost .. | .pmbPollCycle .. | .pmbTransactionDone .. | .pmbTransactionTimeout ..
  | .pmbHostTransaction .. | .lingerEnd .. | .contextForget .. | .contextSlotRead | .lostRecordWrite .. | .spillDrain
  | .spillStall .. | .ringPortRead | .hostReadIndexWrite .. | .ringCheckpoint | .waveSample .. | .ctxstatePeriod
  | .noteWrite .. | .hostTriggerFire .. | .sealStart | .flashPageProgrammed | .flashEraseDone
  | .flashOperationTimeout | .reserveErase | .areaScan | .areaFormat | .flashRead | .pairStartListenEnd ..
  | .pairIdleSend .. | .stakeSend | .stakeReceived .. | .stakeAckReceived | .selfRenew | .leaseLapse
  | .partnerLeaseLapsed | .guylineClaim .. | .claimEnd | .lockstepMismatch | .uncorrectableError ..
  | .correctableErrorBurst .. | .yieldReceived | .takeReceived | .noTakerTimeout | .yieldCommand ..
  | .handoverCommand .. | .handoverOfferReceived .. | .handoverBoundary | .handoverAbandon | .fireReceived ..
  | .pairFrameResend | .pairLaneDown .. | .resyncComplete | .mirrorOutage | .faultBookkeeping | .incidentClose ..
  | .trapHandledClose .. | .incidentAutoClose .. | .hnmiPulseEnd | .errMinWidthEnd | .bivouacCommand ..
  | .bivouacAck .. | .faultInject .. | .incidentRead .. | .refclkLost | .refclkOutOfRange | .supervisorService ..
  | .supervisorServiceLate .. | .taskCheckIn .. | .hostCycleClose | .evidenceClear .. | .wdgWakeTimer
  | .aoOscillatorStop | .crystalReturn | .updateStart .. | .bankEraseDone .. | .blockCommit .. | .blockProgrammed ..
  | .updateFinish .. | .verificationDone | .updateAbort .. | .updateActivate .. | .updateConfirm .. | .autoConfirm
  | .ownerLockWrite .. | .motionChange .. | .motionStuck | .motionChatterEnd | .msixMessageSend ..
  | .endOfInterrupt .. | .ringInterruptTimeout .. | .pcieReset .. | .macTailWrite .. | .ptpSyncOnly ..
  | .ptpFullExchange .. | .spiReadFrame .. | .spiStatusRead | .powerOnResetRelease .. | .aoReset | .vaoLow ..
  | .temperatureSample .. | .earlyWarning | .earlyWarningRecovered | .rstNAssert | .chipResetKey ..
  | .supervisorResetKey .. | .chipResetApply | .chipResetEnd | .bootRomComplete .. | .imageChecksComplete ..
  | .hibernateRequest .. | .hibernateEntry | .psenHoldEnd | .wakeEvent .. | .ibatComparatorAssert ..
  | .gapNoticeWindowEnd | .hardResetSent .. | .safetyOscillatorFault | .pcieLinkUp .. | .macLinkChange .. => true

end Sys2Proof
end

