-- ==== Sys2Proof/Tests/Slice0.lean ====
section
/-! SUPPORT. Tests: commands that stand for nothing, worked examples of the manual, and states that meet what the statements
assume. -/

namespace Sys2Proof.Machine.Tests

set_option Elab.async false

/-! ### Commands that a check refuses -/

/-- An empty frame of segment 0. -/
def frame0 : RxFrame := ⟨0, true, 0, 0, 0, 0, false, 0, false, []⟩

/-- A wire test that meets 0 V throughout. -/
def wires0 : WireTest := { a0 := 0, b0 := 0, cl0 := 0, a1 := 0, b1 := 0, cl1 := 0, a2 := 0, b2 := 0, cl2 := 0 }

theorem test_wf_frame : Instr.wf (.helloReceived frame0) = true := by decide
theorem test_wf_segment : Instr.wf (.helloReceived { frame0 with seg := 2 }) = false := by decide
theorem test_wf_words : Instr.wf (.idleFrameReceived { frame0 with words := List.replicate 64 0 }) = false := by decide
theorem test_wf_word_width : Instr.wf (.pollReceived { frame0 with words := [2 ^ 32] }) = false := by decide
theorem test_wf_copy : Instr.wf (.slframeReceived 0 0 { cls := 4, ty := 0 }) = false := by decide
theorem test_wf_sense_codes : Instr.wf (.efuSenseFrame [(0, 0)]) = false := by decide
theorem test_wf_cap_mean : Instr.wf (.capExceeded 0 65536) = false := by decide
theorem test_wf_wire_test : Instr.wf (.wireTestComplete 0 { wires0 with b1 := 4001 }) = false := by decide
theorem test_wf_window_level : Instr.wf (.wireWindowChange 0 0 4001) = false := by decide
theorem test_wf_packet_set : Instr.wf (.packetReceive 0 [0, 0, 0] [] true) = false := by decide
theorem test_wf_offer : Instr.wf (.offerReceived 0 (List.replicate 8 0)) = false := by decide
theorem test_wf_relay : Instr.wf (.relayReceived 0 (List.replicate 8 0)) = false := by decide
theorem test_wf_window_tag : Instr.wf (.windowEnd (2 ^ 32)) = false := by decide
theorem test_wf_align : Instr.wf (.alignReceived 0 (List.replicate 7 (0, 0))) = false := by decide
theorem test_wf_mirror_word : Instr.wf (.mirrorReceived 0 (.reg 0x11042 0)) = false := by decide
theorem test_wf_bulk_slot : Instr.wf (.bulkReceived 0 (.slot 0 [0])) = false := by decide
theorem test_wf_fault_source : Instr.wf (.faultMessage 0 1 0) = false := by decide
theorem test_wf_mac_length : Instr.wf (.macFrameTransmit 0 60 []) = false := by decide
theorem test_wf_rail : Instr.wf (.railOutOfWindow 5 ⟨0, false⟩) = false := by decide
theorem test_wf_rail_end : Instr.wf (.railEpisodeEnd 0) = false := by decide
theorem test_wf_power_on : Instr.wf (.powerOnReset ⟨3, 0⟩) = false := by decide
theorem test_wf_applied : Instr.wf (.appliedReceived (List.replicate 257 (0, 0))) = false := by decide +kernel
theorem test_wf_sense_volts : Instr.wf (.efuEvaluationTick [0] [0]) = false := by decide
theorem test_wf_section : Instr.wf (.configCommitComplete ⟨16, 0, [], []⟩) = false := by decide
theorem test_wf_mac_received : Instr.wf (.macFrameReceive 0 0 (List.replicate 65536 0) 0) = false := by decide +kernel
theorem test_wf_spi : Instr.wf (.spiWriteFrame (List.replicate 65536 0)) = false := by decide +kernel


/-! ### Worked examples of the manual -/

/-- The SPI frame of R449's example: slot TS1 checks in with site code 0x4A00_0008. -/
theorem test_spi_example :
    spiWriteParse [0x02, 0x00, 0x71, 0x10, 0x01, 0x08, 0x00, 0x00, 0x4A, 0xA7] = some (0x7110, [0x4A000008]) := by decide +kernel

/-- The same frame with another CRC is no write frame (R449). -/
theorem test_spi_crc : spiWriteParse [0x02, 0x00, 0x71, 0x10, 0x01, 0x08, 0x00, 0x00, 0x4A, 0xA6] = none := by decide +kernel

/-- The state after reset with fields written. -/
def with_ (l : List (Fld × Nat)) : State :=
  { State.reset with chip := l.foldl (fun c x => c.wr x.1 x.2) State.reset.chip }

/-- LP0 of R116's example: 2 states, 1 measurement, output and reference cost 44 cycles (R99). -/
theorem test_cost_example :
    slotCost (with_ [(F.CEN_LPs_CFG_NST 0, 2), (F.CEN_LPs_CFG_NIN 0, 1), (F.CEN_LPs_CFG_NOUT 0, 1), (F.CEN_LPs_CFG_NREF 0, 1)]).chip 0
      = 44 := by decide

/-- LP1 of the example: 6 states, 3 measurements, 5 outputs, 3 references, B1EN and EEN cost 70 cycles. -/
theorem test_cost_example_full :
    slotCost (with_ [(F.CEN_LPs_CFG_NST 1, 6), (F.CEN_LPs_CFG_NIN 1, 3), (F.CEN_LPs_CFG_NOUT 1, 5), (F.CEN_LPs_CFG_NREF 1, 3),
      (F.CEN_LPs_CFG_B1EN 1, 1), (F.CEN_LPs_CFG_EEN 1, 1)]).chip 1 = 70 := by decide

/-- A stored coefficient of the example: K[0][0] of LP0 (R116). -/
theorem test_coefficient_word : coefStore 0x1E0 0x1E676 = 0x1E676#32 ∧ coefStore 0x001 0xF86980 = 0xFFF86980#32 := by decide

/-- Half to even at a remainder of exactly 2^19, and saturation (R92). -/
theorem test_write_back : (writeBack 20 (5 * 2 ^ 19)).v = 2 ∧ (writeBack 20 (7 * 2 ^ 19)).v = 4 ∧
    (writeBack 20 (2 ^ 60)).sat = true := by decide

/-- 1∠0x0000 is later than 0xFFFF_FFFF∠0x0000, and exactly half the range away is earlier (R10). -/
theorem test_stamp_order : Stamp.later 0x000000010000#48 0xFFFFFFFF0000#48 = true ∧
    Stamp.later 0x800000000000#48 0#48 = false := by decide

/-- The header word of the worked example after R256 is sent as the symbols 01001 10111 01001 01001, and its packet is 189 bits long. -/
theorem test_packet_example : symsOf (bytesLE 2 0x11B1) = [0b01001, 0b10111, 0b01001, 0b01001] ∧
    (packetBits 0x11B1 [0x761A269A]).length = 189 ∧ hdrObjs 0x11B1 = 1 := by decide +kernel

/-- The same packet as received with one symbol of its start wrong, with two wrong, and with another CRC (R246, R252). -/
theorem test_packet_heard :
    let b := packetBytes 0x11B1 [0x761A269A]
    let body := symsOf (b ++ bytesLE 4 (crc32 b).toNat)
    heard [symSA, symSB, symHB, symSA] body true = .packet 0x11B1 [0x761A269A] ∧ heard [symSA, symHB, symHB, symSA] body true = .bad ∧
    heard startSet (symsOf (b ++ bytesLE 4 5)) true = .bad := by decide +kernel

/-- The default thresholds of R230 in mV, each met and missed by one. -/
theorem test_windows : ([399, 400, 1359, 1360, 2639, 2640, 3459, 3460].map (windowOf State.reset.chip)) = [0, 1, 1, 2, 2, 3, 3, 4] := by
  decide +kernel

/-! ### Steps from reset -/

theorem test_reset_inv : StateInv State.reset := by unfold StateInv; decide
theorem test_step_from_reset : ∃ t, step State.reset = .next t := ⟨_, rfl⟩
theorem test_command_from_reset : ∃ t, exec .pauseEnd State.reset = .next t := ⟨_, rfl⟩
theorem test_tick : (idle State.reset).time.tick = 1 ∧ (idle State.reset).time.ns = 2 := by decide

/-- Nothing waits for the end of a tick after reset; and a state with a confirmation that does, and one with the engine at work. -/
theorem test_tick_states : State.reset.pending = [] ∧ State.reset.chip.engine = none ∧ State.reset.chip.pwr.entering = false ∧
    (seg State.reset.chip 1).hellos = [] ∧ State.reset.chip.upd.confirmed = [] ∧
    ({ State.reset.chip with upd := { State.reset.chip.upd with confirmed := [0] } } : Chip).upd.confirmed ≠ [] ∧
    ({ State.reset.chip with engine := some { slot := 0, disp := 0, fin := 0, outs := [], x := [], uprev := [] } } : Chip).engine.isSome = true := by
  decide

/-! ### States that meet what the statements assume -/

/-- Every page runs after reset. -/
theorem test_pages_run : ((List.range 25).all fun p => pageAlive State.reset.chip p) = true := by decide +kernel
theorem test_pages_reached : awake State.reset.chip = true ∧ pageReach .pcie State.reset.chip 24 = true ∧
    pageReach .spi State.reset.chip 3 = true ∧ spiOn State.reset.chip = true := by decide +kernel

/-- After reset with every page unlocked on both interfaces, and SPI writes enabled. -/
def unlockedState : State :=
  with_ ((F.HIF_CTL_SPIWR, 1) :: (List.range 25).flatMap fun p => [(F.PGSTAT_UNLKP p, 1), (F.PGSTAT_UNLKS p, 1)])

/-- The host writes that the completion statements assume are accepted and carried out in one state. -/
theorem test_writes_run_low :
    ([(0x84, 1), (0xB8, 1), (0xB8, 2), (0x1064, 1), (0x2068, 1), (0x4054, 0xC5E70001), (0x4054, 0xC5E70002), (0x405C, 0xC5E70048),
      (0x6048, 1), (0x604C, 1), (0x604C, 2), (0x604C, 3), (0x604C, 4), (0x604C, 5), (0x6064, 1), (0x7060, 3), (0x7100, 1),
      (0x805C, 2), (0x8068, 0xB1F00001), (0x8070, 1), (0x8078, 0x80000101), (0x9058, 1), (0x9058, 2)].all fun x =>
      hostRuns .pcie unlockedState.chip x.1 x.2) = true := by decide +kernel
theorem test_writes_run_high :
    ([(0xA09C, 1), (0xA09C, 2), (0xA09C, 19), (0xA0A4, 1), (0xA0AC, 1), (0xB300, 1), (0xD074, 1), (0xE04C, 1), (0xE050, 1),
      (0xE058, 1), (0xF098, 0x51000001), (0xF098, 0x20000000), (0x10090, 1), (0x100B8, 3), (0x100E0, 1), (0x100E0, 2), (0x100E0, 3),
      (0x11044, 1), (0x11054, 1), (0x12084, 1), (0x12088, 1), (0x12088, 2), (0x1208C, 1)].all fun x =>
      hostRuns .pcie unlockedState.chip x.1 x.2) = true := by decide +kernel
theorem test_writes_run_top :
    ([(0x1310C, 1), (0x1323C, 1), (0x1323C, 2), (0x1323C, 4), (0x1323C, 8), (0x1323C, 16), (0x13070, 17), (0x13070, 18),
      (0x15044, 0x80000000), (0x16064, 0x80000001), (0x170A4, 1), (0x170A8, 1), (0x170C4, 1), (0x18118, 4)].all fun x =>
      hostRuns .pcie unlockedState.chip x.1 x.2) = true := by decide +kernel
theorem test_writes_run_spi :
    ([(0x84, 1), (0x405C, 0xC5E70048), (0x604C, 2), (0x7100, 1), (0x9058, 1)].all fun x =>
      hostRuns .spi unlockedState.chip x.1 x.2) = true := by decide +kernel
theorem test_reads_seen :
    ([0x12084, 0x16058, 0x170B0, 0x1804C, 0xA06C, 0xE058, 0x8058].all fun x => hostSees .pcie unlockedState.chip x) = true := by
  decide +kernel
theorem test_header_writes :
    ((List.range 25).all fun p => [0x08, 0x20, 0x28].all fun o => hostMay .pcie unlockedState.chip (p * 4096 + o)) = true := by
  decide +kernel
theorem test_plain_write : hostMay .pcie unlockedState.chip 0xA040 = true ∧ wordFits 0xA040 0 = true ∧
    headerWrite {} .pcie {} 0xA 0x40 0 unlockedState.chip = none ∧ (specialWrite {} 0xA040 0 {} unlockedState.chip).isNone = true ∧
    (accessRow 0xA040).isSome = true := by decide +kernel

/-- A locked page, a word out of its range, and a word with a reserved bit (R453, R510, R7). -/
theorem test_write_turned_away :
    hostReaches .pcie State.reset.chip 0xA040 = true ∧ keyless 0xA040 = false ∧ unlocked .pcie State.reset.chip 0xA = false ∧
    lapsedNow {} .pcie State.reset.chip 0xA = false ∧
    (hostStandby State.reset.chip && !standbyTakes 0xA040) = false := by decide +kernel

theorem test_write_out_of_range : hostMay .pcie unlockedState.chip 0x8078 = true ∧ outOfRange 0x8078 0 = true ∧
    (accessRow 0x8078).any (fun r => r.rw ||| r.rws ||| r.w1c ||| r.wo != 0) = true := by decide +kernel
theorem test_write_reserved_bit : hostMay .pcie unlockedState.chip 0xA040 = true ∧ outOfRange 0xA040 0x80000000 = false ∧
    (accessRow 0xA040).any (fun r => 0x80000000 &&& (0xFFFFFFFF ^^^ (r.rw ||| r.rws ||| r.w1c ||| r.wo ||| r.rc ||| r.ro)) != 0)
      = true := by decide +kernel
theorem test_commit_refused :
    let c := unlockedState.chip.wrShR ⟨0xA048, resetWord 0xA048⟩ 0
    judgePage {} 0x0A c (mergeShadow 0x0A c) = some 0x48 := by decide +kernel

/-- A page whose logic is held, as a commit finds it (R454, R455). -/
theorem test_commit_held :
    let c := unlockedState.chip.wrB (F.PGCTL_EN 0x10) false
    judgePage {} 0x10 c (mergeShadow 0x10 c) = none ∧ (commitShow 0x10 0 true (mergeShadow 0x10 c)).blockOn 0x10 = false ∧
    hostMay .pcie c 0x10028 = true := by decide +kernel

/-- A commit that is judged well after reset (R454, R510). -/
theorem test_commit_judged : judgePage {} 0x0B unlockedState.chip (mergeShadow 0x0B unlockedState.chip) = none := by decide +kernel

/-- A ring read through RNG_RPDATA that holds an entry, and the one after reset that does not (R329). -/
def ringState : State :=
  let s := with_ [(F.RNG_CTL_EN, 1), (F.RNG_RGk_CFG_EN 0, 1), (F.RNG_RGk_CFG_CONS 0, 1), (F.RNG_RGk_SEG_SIZE 0, 1)]
  { s with chip := { s.chip with rings := [(0, { inW := 8 })] } }
theorem test_ring_holds : ringOn ringState.chip (ringState.chip.rd F.RNG_RPSEL_RING) = true ∧
    ringCons ringState.chip (ringState.chip.rd F.RNG_RPSEL_RING) = 1 ∧ 4 ≤ ringFill ringState.chip (ringState.chip.rd F.RNG_RPSEL_RING) ∧
    hostSees .pcie ringState.chip 0x1804C = true := by decide +kernel
theorem test_ring_short : ringFill State.reset.chip (State.reset.chip.rd F.RNG_RPSEL_RING) < 4 ∧
    hostSees .pcie State.reset.chip 0x1804C = true := by decide +kernel

/-- CEN_CADDR at the last coefficient word of a free set, at a set in use, and at a read-only state word (R116). -/
theorem test_coefficient_cases :
    (with_ [(F.CEN_CADDR_WORD, 0x2A9)]).chip.rd F.CEN_CADDR_WORD = 0x2A9 ∧
    slotOn (with_ [(F.CEN_CADDR_WORD, 0x2A9)]).chip 0 = false ∧
    slotOn (with_ [(F.CEN_LPs_CFG_EN 0, 1)]).chip 0 = true ∧
    (with_ [(F.CEN_CADDR_REGION, 1), (F.CEN_CADDR_WORD, 0x0B)]).chip.flag F.CEN_CADDR_REGION = true ∧
    (with_ [(F.CEN_CADDR_REGION, 1), (F.CEN_CADDR_WORD, 0x1F)]).chip.rd F.CEN_CADDR_WORD = 0x1F := by decide +kernel

theorem test_leg_off : groupOfLeg State.reset.chip 0 = none ∧ acts State.reset.chip = true := by decide +kernel

/-- A channel whose pin is high, with and without retries left (R184, R187). -/
def fuseState (left : Nat) : State :=
  let s := with_ [(F.EFU_CHn_STAT_STATE 3, 3), (F.EFU_CHn_STAT_RLEFT 3, left)]
  { s with chip := { s.chip with efu := { s.chip.efu with chans := [(3, { pin := true })] } } }
theorem test_fuse_states : StateInv (fuseState 0) ∧ (efCh (fuseState 0).chip 3).pin = true ∧ awake (fuseState 0).chip = true ∧
    (fuseState 0).chip.rd (F.EFU_CHn_STAT_RLEFT 3) = 0 ∧ efRd (fuseState 0).chip 3 (F.EFU_CHn_RTY_RCNT 3) ≠ 255 ∧
    (fuseState 2).chip.rd (F.EFU_CHn_STAT_RLEFT 3) = 2 := by unfold StateInv; decide +kernel

/-- A chip of a pair in ACTIVE that holds the Stake and acts (R353, R357, R359); after reset the chip is alone. -/
def pairState : State :=
  with_ [(F.PAR_CTL_EN, 1), (F.PAR_STAT_STATE, prACTIVE), (F.PAR_STAT_ACT, 1), (F.PAR_STAT_STAKE, 1), (F.PAR_STAT_GUYDRV, 1)]
theorem test_pair_states : StateInv pairState ∧ awake pairState.chip = true ∧ pairOn pairState.chip = true ∧
    hasStake pairState.chip = true ∧ pairState.chip.par.leaseEnd ≤ pairState.time.tick ∧ prState pairState.chip = prACTIVE ∧ pairState.chip.par.giving = none ∧
    pairState.chip.flag F.PAR_STAT_BIV = false ∧ prState State.reset.chip = prSOLO := by unfold StateInv; decide +kernel

/-- Supervisor windows: the start window, and an image window of 100 to 200 ticks met at its open and close tick (R402). -/
def windowState (start age : Nat) : Chip :=
  let s := with_ [(F.WDG_SSTAT_START, start), (F.WDG_SWIN_SOPEN, 100), (F.WDG_SWIN_SCLOSE, 200)]
  { s.chip with wdg := { s.chip.wdg with base := age } }
theorem test_supervisor_windows :
    tickDiff (wdgTick {} (windowState 0 99)) (windowState 0 99).wdg.sAt = 99 ∧
    (supService {} 0 (windowState 0 100)).wdg.sAt = 100 ∧ (supService {} 0 (windowState 0 100)).flt = (windowState 0 100).flt ∧
    supService {} 0 (windowState 0 200) = supFailure {} 1 0 ((windowState 0 200).wrB F.WDG_SSTAT_START false) ∧
    (windowState 1 0).flag F.WDG_SSTAT_START = true := by decide +kernel

theorem test_unlocked_inv : StateInv unlockedState := by unfold StateInv; decide +kernel

/-- Hibernate is refused after reset with no wake source, and accepted with one and the seal idle (R476). -/
theorem test_hibernate_judged : hibJudge State.reset.chip ≠ 0 ∧ State.reset.chip.pwr.entering = false ∧
    hibJudge (with_ [(F.REC_SEALST_STATE, 1), (F.AO_WAKEEN_EN, 1)]).chip = 0 := by decide +kernel

/-- A MAC that runs with its link up, and owns no receive descriptor (R445). -/
theorem test_mac_state :
    let c := (with_ [(F.HIF_Mn_CTL_EN 0, 1), (F.HIF_Mn_CTL_PROMISC 0, 1), (F.HIF_Mn_STAT_LINK 0, 1)]).chip
    macOn c 0 = true ∧ c.flag (F.HIF_Mn_STAT_LINK 0) = true ∧ sealOnly c = false ∧ pageAlive c 1 = true ∧
    macAccepts c 0 (List.replicate 60 0) = true ∧ rxOwned c 0 = 0 := by decide +kernel

/-- The incident of a source is closed after reset, and open after a message (R383). -/
theorem test_incident_states : (lane State.reset.chip 9).isOpen = false ∧ State.reset.chip.flt.queue.length < 39 ∧
    (lane (raise {} 9 1 0 State.reset.chip) 9).isOpen = true ∧ forcedReact 9 1 = 0 := by decide +kernel

/-- A cause of ERR_N, none, and none while the width runs (R387). -/
theorem test_err_states : errCause (with_ [(F.FLT_ERR_FORCE, 1)]).chip = true ∧
    errCause { State.reset.chip with flt := { State.reset.chip.flt with startErr := false } } = false ∧
    errCause { State.reset.chip with flt := { State.reset.chip.flt with startErr := false, minRun := true } } = false := by
  decide +kernel

/-- In the Bivouac (R393). -/
theorem test_bivouac_state : StateInv { unlockedState with chip := { unlockedState.chip with flt := { unlockedState.chip.flt with biv := true } } } := by
  unfold StateInv; decide +kernel

/-- A lookup in an allocated unit (R168, R171). -/
theorem test_lookup_state :
    let c := { State.reset.chip with cap := { State.reset.chip.cap with lookup := some 0, units := [(0, 0x80000000#32)] } }
    c.cap.lookup = some 0 ∧ entryRead c 0 = some [0, 0, 0, 0] ∧ (inShelf c 0 && reservedElement c 0) = false := by decide +kernel

/-- A frame of a partner that is accepted (R298), and what the other receipts assume. -/
def linkState : State :=
  let s := with_ [(F.SLK_CTL_EN, 1), (F.SLK_SEGn_CFG_EN 0, 1), (F.SLK_SEGn_CFG_MODE 0, 0)]
  { s with chip := { s.chip with ctxs := [(5, { state := 2, path := 1, loc := 3 })] } }
theorem test_frame_accepted :
    let f : RxFrame := { frame0 with ctx := 5, node := 3 }
    (receive {} { f with crc := crc32 (rxBytes linkState.chip f 1 0x24) } 1 0x24 true true false linkState.chip).2 = some 5 ∧
    pageAlive linkState.chip 0x14 = true := by decide +kernel

/-- A frame with another CRC on a segment that is on, and one on a segment that is off (R298). -/
theorem test_frame_bad : segOn linkState.chip 0 = true ∧ crc32 (rxBytes linkState.chip frame0 1 0x24) ≠ frame0.crc ∧
    segOn linkState.chip 1 = false := by decide +kernel

/-- A front end that is available, within its limits, and one that is not (R125, R126). -/
def busState0 : Chip :=
  (with_ [(F.BUS_CTL_EN, 1), (F.BUS_STAT_STATE, 1), (F.BUS_Si_CFG_EN 0, 1), (F.BUS_Si_CFG_WEIGHT 0, 4), (F.BUS_Si_CFG_KIND 0, 1),
    (F.BUS_Si_LIM_HI 0, 5000), (F.LEG_Gk_CFG_EN 0, 1), (F.LEG_Gk_CFG_TOPO 0, 1)]).chip
theorem test_source_available : srcAvail busState0 0 = true ∧ srcAvail busState0 1 = false ∧ exportNow busState0 ≤ 0 ∧
    limitsOf busState0 0 = (0, 320000) ∧ divide busState0 400000 = ([(0, 320000)], 80000) := by decide +kernel

/-- A port that runs (R229). -/
theorem test_port_runs : portOn (with_ [(F.CPT_CTL_EN, 1), (F.CPp_CFG_EN 0, 1)]).chip 0 = true ∧ bankUp State.reset.chip 2 = true := by
  decide +kernel
theorem test_fire_state :
    let c := (with_ [(F.PAR_STAT_STATE, prACTIVE), (F.REC_CTL_EN, 1), (F.REC_CTL_PAIRTRIG, 1)]).chip
    pairOn c = true ∧ recOn c = true ∧ c.flag F.REC_CTL_PAIRTRIG = true ∧ pageAlive c 9 = true := by decide +kernel
theorem test_start_phase : (with_ [(F.SUP_STAT_PHASE, 1)]).chip.rd F.SUP_STAT_PHASE = 1 ∧ State.reset.chip.pwr.rstReq = none ∧
    unlockedState.chip.flag F.HIF_CTL_SPIWR = true := by decide +kernel

/-- PMB on with nothing waiting (R311). -/
theorem test_pmb_state : pmbOn (with_ [(F.PMB_CTL_EN, 1)]).chip = true ∧ pmbOn State.reset.chip = false ∧
    bit 0x80000000 31 = true := by decide +kernel

/-- A message that may leave (R440). -/
theorem test_message_state :
    let s := with_ [(F.HIF_STAT_LINKUP, 1), (F.HIF_STAT_BME, 1), (F.HIF_STAT_MSIXEN, 1)]
    let c := { s.chip with msixDue := 1, hif := { s.chip.hif with msixOpen := 1 } }
    (bit c.msixDue 0 && hostReach c && c.flag F.HIF_STAT_MSIXEN && !c.flag F.HIF_STAT_FMASK && bit c.hif.msixOpen 0) = true := by
  decide +kernel

/-- A window of no ring. -/
def window0 : Window := { entry := 0, tag := 0, rings := 0, fromMs := 0, toMs := 0 }

/-- Flash operations under way (R340, R422). -/
theorem test_flash_states :
    let c := State.reset.chip
    let on (r : Rec) : Chip := { c with recd := r }
    (on { c.recd with sealing := some window0 }).recd.sealing.isSome = true ∧ pageAlive (on { c.recd with sealing := some window0 }) 0x17 = true ∧
    pageAlive (on { c.recd with formatting := true }) 0x17 = true ∧ (on { c.recd with erasing := true }).recd.formatting = false ∧
    pageAlive { c with upd := { c.upd with op := some .erase } } 0x06 = true ∧
    pageAlive { c with upd := { c.upd with op := some (.block 0) } } 0x06 = true := by decide +kernel

/-- An operation that ends in its time, and one later than TOUT (R340). -/
theorem test_flash_late : opLate {} State.reset.chip = false ∧ opLate { tick := 10 ^ 9 } State.reset.chip = true := by decide +kernel

/-- Times that have not run out in the first tick (R42, R80, R123, R302, R455). -/
theorem test_early :
    (0 : Nat) < 0 + State.reset.chip.rd F.ANG_PLL_UNLKTIME * 400000 ∧ 0 < 0 + State.reset.chip.rd F.ANG_HOLD_MAXT * 40000000 ∧
    0 < 0 + 4000000 * State.reset.chip.rd F.BUS_MONT_UVT ∧ 0 < 0 + grantTo State.reset.chip ∧
    0 < 0 + 400000 * (with_ [(F.LEG_Gk_SHED_ANNTO 0, 1)]).chip.rd (F.LEG_Gk_SHED_ANNTO 0) ∧
    0 < 0 + 4000 * State.reset.chip.rd F.CPT_LINK_ACKWAIT ∧ 0 < 400000000 * State.reset.chip.rd F.BAT_HIB_THIB := by decide +kernel

/-- Discharge at and below IREST (R205), and a packet that waits (R255). -/
theorem test_rest_current : atLeast 0 1 = false ∧ atLeast (2 ^ 20) 10 = true := by decide
theorem test_packet_waits :
    let c := { State.reset.chip with cpt := { State.reset.chip.cpt with ports := [(0, { waiting := some { ty := 1 } })] } }
    (port c 0).waiting.isSome = true ∧ (port State.reset.chip 0).waiting = none := by decide

end Sys2Proof.Machine.Tests
end

/-! SUPPORT. CEN: the cost of an iteration, and the COST field that reports it (R99). -/

namespace Sys2Proof.Machine

/-! ### What the cost depends on -/

/-- The cost of a slot is a function of its CFG word alone. -/
theorem slotCost_congr {c c' : Chip} {s : Nat} (h : c'.rdR (R.CEN_LPs_CFG s) = c.rdR (R.CEN_LPs_CFG s)) :
    slotCost c' s = slotCost c s := by
  have hf : ∀ f : Fld, f.reg = R.CEN_LPs_CFG s → c'.rd f = c.rd f := fun f hr => by rw [Chip.rd, Chip.rd, hr, h]
  unfold slotCost
  rw [hf (F.CEN_LPs_CFG_NST s) rfl, hf (F.CEN_LPs_CFG_NIN s) rfl, hf (F.CEN_LPs_CFG_NREF s) rfl, hf (F.CEN_LPs_CFG_GEN s) rfl,
    hf (F.CEN_LPs_CFG_NOUT s) rfl, hf (F.CEN_LPs_CFG_B1EN s) rfl, hf (F.CEN_LPs_CFG_EEN s) rfl]

/-! ### COST of one slot -/

/-- The STAT registers stand above the descriptors of the 32 slots. -/
theorem cenCfg_addr_ne_stat {s : Nat} (k : Nat) (h : s < 32) : (R.CEN_LPs_CFG s).addr ≠ (R.CEN_LPs_STAT k).addr := by
  simp only [R.CEN_LPs_CFG, R.CEN_LPs_STAT]
  omega

theorem cenStat_addr_ne {s k : Nat} (h : s ≠ k) : (R.CEN_LPs_STAT s).addr ≠ (R.CEN_LPs_STAT k).addr := by
  simp only [R.CEN_LPs_STAT]
  omega

/-- COST of slot `k` takes the cost of its descriptor: one turn of `slotCosts`. -/
def reportCost (k : Nat) (c : Chip) : Chip := c.wr (F.CEN_LPs_STAT_COST k) (slotCost c k)

theorem slotCosts_eq_forAll_reportCost (c : Chip) : slotCosts c = c.forAll (List.range 32) reportCost := rfl

/-- A report of a cost changes no cost. -/
theorem slotCost_reportCost {s : Nat} (k : Nat) (c : Chip) (h : s < 32) : slotCost (reportCost k c) s = slotCost c s :=
  slotCost_congr (Chip.rdR_wrR_ne c _ (cenCfg_addr_ne_stat k h))

theorem rd_cost_reportCost_self (s : Nat) (c : Chip) :
    (reportCost s c).rd (F.CEN_LPs_STAT_COST s) = slotCost c s % 128 :=
  Chip.rd_wr_self c (F.CEN_LPs_STAT_COST s) _ (Nat.zero_le 6) (show 6 < 32 by omega)

theorem rd_cost_reportCost_ne {s k : Nat} (c : Chip) (h : s ≠ k) :
    (reportCost k c).rd (F.CEN_LPs_STAT_COST s) = c.rd (F.CEN_LPs_STAT_COST s) :=
  Chip.rd_wr_ne c _ (cenStat_addr_ne h)

/-! ### COST of every slot -/

theorem slotCost_forAll_reportCost {s : Nat} (l : List Nat) (c : Chip) (h : s < 32) :
    slotCost (c.forAll l reportCost) s = slotCost c s := by
  induction l generalizing c with
  | nil => rfl
  | cons k l ih => exact (ih (reportCost k c)).trans (slotCost_reportCost k c h)

/-- A slot reports its cost, in the seven bits of the field, once it is in the list or when it did so before: its own turn puts
the cost there, and the turns of other slots leave it. -/
theorem rd_cost_forAll_reportCost {s : Nat} (l : List Nat) (c : Chip) (h : s < 32)
    (hl : s ∈ l ∨ c.rd (F.CEN_LPs_STAT_COST s) = slotCost c s % 128) :
    (c.forAll l reportCost).rd (F.CEN_LPs_STAT_COST s) = slotCost c s % 128 := by
  induction l generalizing c with
  | nil => exact hl.resolve_left List.not_mem_nil
  | cons k l ih =>
    have hkeep : slotCost (reportCost k c) s = slotCost c s := slotCost_reportCost k c h
    have hturn : s ∈ l ∨ (reportCost k c).rd (F.CEN_LPs_STAT_COST s) = slotCost (reportCost k c) s % 128 := by
      rw [hkeep]
      by_cases hk : s = k
      · exact .inr (hk ▸ rd_cost_reportCost_self s c)
      · rw [rd_cost_reportCost_ne c hk]
        exact hl.imp_left fun hm => (List.mem_cons.1 hm).resolve_left hk
    exact (ih (reportCost k c) hturn).trans (congrArg (· % 128) hkeep)

theorem slotCost_slotCosts {s : Nat} (c : Chip) (h : s < 32) : slotCost (slotCosts c) s = slotCost c s :=
  slotCost_forAll_reportCost _ c h

theorem rd_cost_slotCosts {s : Nat} (c : Chip) (h : s < 32) :
    (slotCosts c).rd (F.CEN_LPs_STAT_COST s) = slotCost (slotCosts c) s % 128 := by
  rw [slotCost_slotCosts c h, slotCosts_eq_forAll_reportCost]
  exact rd_cost_forAll_reportCost _ c h (.inl (List.mem_range.2 h))

/-! ### The statement -/

/-- Settles O12: the cost is the formula of R99 over the descriptor, and the last thing a commit of CEN does is to report it. -/
theorem iterationCostIsReported : Obligations.IterationCostIsReported := by
  refine ⟨fun c s n m p q g b1 e hn hm hp hq hg hb he => ?_, fun t was c s hs hfit => ?_⟩
  · have hcost : slotCost c s = 35 + (n + q + g) + n + (n + m + p + m * (b1 + e)) := by
      simp only [slotCost, hn, hm, hp, hq, hg, hb, he]
    refine ⟨hcost, ?_⟩
    rintro rfl rfl rfl rfl rfl rfl rfl
    exact hcost
  · exact (rd_cost_slotCosts _ hs).trans (Nat.mod_eq_of_lt hfit)

end Sys2Proof.Machine

/-! SUPPORT. An interrupt bit as it rises (R451), and the lane of a source once its message is raised (R376). -/

namespace Sys2Proof.Machine

/-! ### Bits -/

theorem bit_eq_testBit (v i : Nat) : bit v i = v.testBit i := Nat.testBit_eq_decide_div_mod_eq.symm

theorem bit_or (v w i : Nat) : bit (v ||| w) i = (bit v i || bit w i) := by simp only [bit_eq_testBit, Nat.testBit_or]

/-- A bit that is set reads as set, and every other bit as before. -/
theorem bit_setBit_true (v b i : Nat) : bit (setBit v b true) i = (decide (i = b) || bit v i) := by
  rw [bit_eq_testBit, bit_eq_testBit, setBit, testBit_setBits _ _ _ _ _ (Nat.le_refl b)]
  by_cases h : i = b
  · simp [h]
  · rw [if_neg (by omega), decide_eq_false h, Bool.false_or]

theorem setBit_true_lt {v b : Nat} (hb : b < 32) (hv : v < 2 ^ 32) : setBit v b true < 2 ^ 32 :=
  setBits_lt (Nat.le_refl b) hb hv

/-! ### What the operations of a report keep -/

theorem forAll_keeps {α β : Type} (g : Chip → β) {f : α → Chip → Chip} (hf : ∀ a c, g (f a c) = g c) (l : List α) (c : Chip) :
    g (c.forAll l f) = g c := by
  unfold Chip.forAll
  induction l generalizing c with
  | nil => rfl
  | cons a l ih => exact (ih _).trans (hf a c)

@[simp] theorem Chip.wrR_flt (c : Chip) (r : Reg) (v : Nat) : (c.wrR r v).flt = c.flt := rfl
@[simp] theorem Chip.wr_flt (c : Chip) (f : Fld) (v : Nat) : (c.wr f v).flt = c.flt := rfl
@[simp] theorem Chip.push_flt (c : Chip) (d : Due) : (c.push d).flt = c.flt := rfl
@[simp] theorem Chip.push_rdR (c : Chip) (d : Due) (r : Reg) : (c.push d).rdR r = c.rdR r := rfl
@[simp] theorem noteSet_flt (t : Time) (off m : Nat) (c : Chip) : (noteSet t off m c).flt = c.flt := rfl
@[simp] theorem noteSet_rdR (t : Time) (off m : Nat) (c : Chip) (r : Reg) : (noteSet t off m c).rdR r = c.rdR r := rfl

@[simp] theorem fireAll_flt (l : List Nat) (fault addr : Nat) (c : Chip) : (fireAll l fault addr c).flt = c.flt :=
  forAll_keeps Chip.flt (f := fun j c => c.push (.fire j fault addr)) (fun _ _ => rfl) l c

@[simp] theorem fireAll_rdR (l : List Nat) (fault addr : Nat) (c : Chip) (r : Reg) : (fireAll l fault addr c).rdR r = c.rdR r :=
  forAll_keeps (Chip.rdR · r) (f := fun j c => c.push (.fire j fault addr)) (fun _ _ => rfl) l c

@[simp] theorem vecDue_flt (v : Nat) (c : Chip) : (vecDue v c).flt = c.flt := by
  unfold vecDue
  dsimp only
  split
  · rfl
  · split <;> rfl

/-- A message that becomes due changes its latch alone (R440). -/
theorem vecDue_rdR (v : Nat) (c : Chip) {r : Reg} (h : r.addr ≠ R.HIF_VPEND.addr) : (vecDue v c).rdR r = c.rdR r := by
  unfold vecDue
  dsimp only
  split
  · rfl
  · split
    · rfl
    · exact Chip.rdR_wrR_ne c _ h

/-! ### The rise of an interrupt bit -/

@[simp] theorem irq_flt (t : Time) (p b : Nat) (c : Chip) : (irq t p b c).flt = c.flt := by
  unfold irq
  dsimp only
  split
  · rfl
  · simp only [fireAll_flt]
    split <;> split <;> simp

theorem irqRaw_addr_ne_vpend (p : Nat) : (irqRaw p).addr ≠ R.HIF_VPEND.addr := by
  unfold irqRaw
  split
  · decide
  · simp only [R.HIF_VPEND]
    omega

/-- IRQRAW of the page keeps its bits and gains the one that rises. -/
theorem bit_irqRaw_irq (t : Time) (p : Nat) {b : Nat} (i : Nat) (c : Chip) (hb : b < 32) :
    bit ((irq t p b c).rdR (irqRaw p)) i = (decide (i = b) || bit (c.rdR (irqRaw p)) i) := by
  have hw : ((noteSet t (irqRaw p).addr (2 ^ b) c).wrR (irqRaw p) (setBit (c.rdR (irqRaw p)) b true)).rdR (irqRaw p)
      = setBit (c.rdR (irqRaw p)) b true := by
    rw [Chip.rdR_wrR_self, Nat.mod_eq_of_lt (setBit_true_lt hb (c.rdR_lt _))]
  unfold irq
  dsimp only
  rw [noteSet_rdR]
  split
  case isTrue hset =>
    rw [noteSet_rdR]
    by_cases h : i = b
    · rw [h, hset, Bool.or_true]
    · rw [decide_eq_false h, Bool.false_or]
  case isFalse =>
    rw [fireAll_rdR, ← bit_setBit_true]
    congr 1
    split <;> split <;> simp only [Chip.push_rdR, vecDue_rdR _ _ (irqRaw_addr_ne_vpend p), hw]

/-! ### The lane of a raised message -/

/-- From `c` to `c'` every lane stands. -/
def SameLanes (c c' : Chip) : Prop := c'.flt.lanes = c.flt.lanes

theorem SameLanes.refl (c : Chip) : SameLanes c c := rfl

theorem SameLanes.trans {a b c : Chip} (h : SameLanes a b) (h' : SameLanes b c) : SameLanes a c := Eq.trans h' h

theorem SameLanes.of_flt {c c' : Chip} (h : c'.flt = c.flt) : SameLanes c c' := congrArg Flt.lanes h

theorem SameLanes.wr (c : Chip) (f : Fld) (v : Nat) : SameLanes c (c.wr f v) := .of_flt (c.wr_flt f v)

/-- FLT's own state changes beside its lanes, and a field of a register. -/
theorem SameLanes.flt_wr (c : Chip) {x : Flt} (f : Fld) (v : Nat) (h : x.lanes = c.flt.lanes) :
    SameLanes c (({ c with flt := x } : Chip).wr f v) := .trans (b := { c with flt := x }) h (.wr _ f v)

theorem SameLanes.ite {a b c : Chip} {p : Prop} [Decidable p] (h : SameLanes a b) (h' : SameLanes a c) :
    SameLanes a (if p then b else c) := by split <;> assumption

theorem SameLanes.onlyIf {a c : Chip} {f : Chip → Chip} (b : Bool) (h : SameLanes a c) (hf : ∀ c, SameLanes c (f c)) :
    SameLanes a (c.onlyIf b f) := by
  unfold Chip.onlyIf
  exact .ite (h.trans (hf c)) h

theorem SameLanes.lane {c c' : Chip} (h : SameLanes c c') (s : Nat) : Machine.lane c' s = Machine.lane c s :=
  congrArg (Tab.get ({} : Lane) · s) h

theorem startReactions_sameLanes (t : Time) (source kind kinds start : Nat) (forced : Bool) (c : Chip) :
    SameLanes c (startReactions t source kind kinds start forced c) := by
  unfold startReactions
  refine .onlyIf _ (.onlyIf _ (.onlyIf _ (.onlyIf _ (.onlyIf _ (.onlyIf _ (.onlyIf _ (.refl _) ?_) ?_) ?_) ?_) ?_) ?_) ?_
  · exact fun c => .of_flt (irq_flt t 8 0 c)
  · exact fun c => .wr c _ _
  · exact fun c => .flt_wr c _ _ rfl
  all_goals exact fun c => .of_flt (c.push_flt _)

theorem errUpdate_sameLanes (t : Time) (c : Chip) : SameLanes c (errUpdate t c) := by
  unfold errUpdate
  exact .ite (.ite (.refl c) (.flt_wr c _ _ rfl)) (.ite (.refl c) (.wr c _ _))

theorem lane_setLane_self (s : Nat) (l : Lane) (c : Chip) : lane (setLane s l c) s = l := Tab.get_set_self _ _ _ _

theorem lane_setLane_ne {s s' : Nat} (l : Lane) (c : Chip) (h : s' ≠ s) : lane (setLane s l c) s' = lane c s' :=
  Tab.get_set_ne _ _ _ _ h

/-- A message opens its lane or joins it, with its kinds, and of the lanes no other changes (R376). -/
theorem lanePass_setsLane (t : Time) (source kind addr : Nat) (inj : Bool) (c : Chip) :
    ∃ l : Lane, SameLanes (setLane source l c) (lanePass t source kind addr inj c).1 ∧ l.isOpen = true ∧
      ∀ i, bit kind i = true → bit l.kinds i = true := by
  have hqueue : ∀ (q : List Msg) (c : Chip), SameLanes c (({ c with flt := { c.flt with queue := q } } : Chip).wr F.FLT_STAT_QFILL q.length) :=
    fun _ c => .flt_wr c _ _ rfl
  unfold lanePass
  dsimp only
  refine ⟨_, .trans (.trans (.trans (.ite (.trans (hqueue _ _) (.of_flt (irq_flt _ _ _ _))) (hqueue _ _))
    (startReactions_sameLanes _ _ _ _ _ _ _)) (errUpdate_sameLanes _ _)) (.of_flt (fireAll_flt _ _ _ _)), rfl, fun i hi => ?_⟩
  dsimp only
  split
  · rw [bit_or, hi, Bool.or_true]
  · exact hi

theorem lane_lanePass_ne (t : Time) {source s : Nat} (kind addr : Nat) (inj : Bool) (c : Chip) (h : s ≠ source) :
    lane (lanePass t source kind addr inj c).1 s = lane c s := by
  obtain ⟨l, hl, -, -⟩ := lanePass_setsLane t source kind addr inj c
  rw [hl.lane, lane_setLane_ne l c h]

/-- What a raised message adds on FLT's own behalf goes to FLT's lane (R376, R381). -/
theorem lane_raise (t : Time) {source : Nat} (kind addr : Nat) (c : Chip) (inj : Bool) (h : source ≠ 1) :
    lane (raise t source kind addr c inj) source = lane (lanePass t source kind addr inj c).1 source := by
  unfold raise
  dsimp only
  split <;> split <;> simp only [lane_lanePass_ne t _ _ _ _ h]

/-- The incident of a source is open once its message is raised, and its kinds are among those of the incident (R376). -/
theorem lane_raise_open (t : Time) {source : Nat} (kind addr : Nat) (c : Chip) (inj : Bool) (h : source ≠ 1) :
    (lane (raise t source kind addr c inj) source).isOpen = true ∧
      ∀ i, bit kind i = true → bit (lane (raise t source kind addr c inj) source).kinds i = true := by
  obtain ⟨l, hl, hopen, hkinds⟩ := lanePass_setsLane t source kind addr inj c
  have hlane : lane (raise t source kind addr c inj) source = l := by
    rw [lane_raise t kind addr c inj h, hl.lane, lane_setLane_self]
  rw [hlane]
  exact ⟨hopen, hkinds⟩

end Sys2Proof.Machine

/-! SUPPORT. PAR: a give-up tells its cause first, whatever the state, and what the state adds keeps what was told (R359, R360). -/

namespace Sys2Proof.Machine

/-! ### The parts of a give-up -/

/-- No give-up is due: the chip is alone, OUT, giving up already, or in the Bivouac of a pair (R357, R360, R371). -/
def giveUpBarred (c : Chip) : Prop :=
  prState c = prSOLO ∨ prState c = prOUT ∨ c.par.giving.isSome = true ∨ c.flag F.PAR_STAT_BIV = true

/-- The first cause stands in PAR_CAUSE.GIVE. -/
def latchGive (cause : Nat) (c : Chip) : Chip := if c.rd F.PAR_CAUSE_GIVE = 0 then c.wr F.PAR_CAUSE_GIVE cause else c

/-- What every give-up tells: the latched cause, the message of kind 0x10 and the page's interrupt bit (R359). -/
def tellGive (t : Time) (cause : Nat) (c : Chip) : Chip := irq t 9 1 (raise t 0x12 0x10 cause (latchGive cause c))

/-- A chip in CLAIM or ACTIVE stops acting, and the give-up is pending (R360). -/
def beginGiving (t : Time) (cause : Nat) (c : Chip) : Chip :=
  modPar (fun p => { p with giving := some cause, gaveAt := t.tick, offer := none, taken := false }) (stopActing t c)

theorem giveUp_barred (t : Time) (cause : Nat) {c : Chip} (h : giveUpBarred c) : giveUp t cause c = c := if_pos h

theorem giveUp_acting (t : Time) (cause : Nat) {c : Chip} (h : ¬giveUpBarred c) (hs : prState c = prCLAIM ∨ prState c = prACTIVE) :
    giveUp t cause c = pairSend t 0x04 [cause] (beginGiving t cause (tellGive t cause c)) :=
  (if_neg h).trans (if_pos hs)

theorem giveUp_start (t : Time) (cause : Nat) {c : Chip} (h : ¬giveUpBarred c) (hs : prState c = prSTART) :
    giveUp t cause c = tellGive t cause c :=
  have hn : ¬(prState c = prCLAIM ∨ prState c = prACTIVE) := by rw [hs]; decide
  (if_neg h).trans ((if_neg hn).trans (if_pos hs))

theorem giveUp_shadowing (t : Time) (cause : Nat) {c : Chip} (h : ¬giveUpBarred c) (hn : ¬(prState c = prCLAIM ∨ prState c = prACTIVE))
    (hs : prState c ≠ prSTART) : giveUp t cause c = setSynced t false (setPr prOUT (takeWithdrawn t (tellGive t cause c))) :=
  (if_neg h).trans ((if_neg hn).trans (if_neg hs))

/-! ### What is told -/

/-- What is told touches the registers of a report alone, with IRQRAW of FLT and of PAR; GIVE is latched before. -/
theorem tellGive_rdR (t : Time) (cause : Nat) (c : Chip) {r : Reg} (h : r.addr ∉ reportRegs [8, 9]) :
    (tellGive t cause c).rdR r = (latchGive cause c).rdR r := by
  have hraise : Reported [8, 9] _ _ := raise_reported t 0x12 0x10 cause (latchGive cause c) false (by decide)
  obtain ⟨hregs, -, -⟩ := hraise.trans (irq_reported t (p := 9) 1 _ (by decide))
  exact hregs r h

/-- A give-up cause fits GIVE: the first one stands there. -/
theorem latchGive_rd_give {cause : Nat} (c : Chip) (h : cause < 16) :
    (latchGive cause c).rd F.PAR_CAUSE_GIVE = if c.rd F.PAR_CAUSE_GIVE = 0 then cause else c.rd F.PAR_CAUSE_GIVE := by
  unfold latchGive
  split
  · exact (Chip.rd_wr_self c F.PAR_CAUSE_GIVE cause (by decide) (by decide)).trans (Nat.mod_eq_of_lt h)
  · rfl

theorem tellGive_rd_give (t : Time) {cause : Nat} (c : Chip) (h : cause < 16) :
    (tellGive t cause c).rd F.PAR_CAUSE_GIVE = if c.rd F.PAR_CAUSE_GIVE = 0 then cause else c.rd F.PAR_CAUSE_GIVE := by
  rw [Chip.rd, tellGive_rdR t cause c (by decide), ← latchGive_rd_give c h, Chip.rd]

theorem tellGive_prState (t : Time) (cause : Nat) (c : Chip) : prState (tellGive t cause c) = prState c := by
  have hlatch : (latchGive cause c).rd F.PAR_STAT_STATE = c.rd F.PAR_STAT_STATE := by
    unfold latchGive
    split
    · exact Chip.rd_wr_ne c cause (by decide)
    · rfl
  rw [prState, Chip.rd, tellGive_rdR t cause c (by decide), ← Chip.rd, hlatch, prState]

theorem tellGive_irq (t : Time) (cause : Nat) (c : Chip) : bit ((tellGive t cause c).rdR (irqRaw 9)) 1 = true := by
  rw [tellGive, bit_irqRaw_irq t 9 1 _ (by decide), decide_eq_true rfl, Bool.true_or]

theorem tellGive_lane (t : Time) (cause : Nat) (c : Chip) :
    (lane (tellGive t cause c) 0x12).isOpen = true ∧ bit (lane (tellGive t cause c) 0x12).kinds 4 = true := by
  obtain ⟨hopen, hkinds⟩ := lane_raise_open t 0x10 cause (latchGive cause c) false (source := 0x12) (by decide)
  rw [tellGive, lane, irq_flt]
  exact ⟨hopen, hkinds 4 (by decide)⟩

/-! ### What keeps it -/

/-- From `c` to `c'` the cause in GIVE, FLT's own state and a raised interrupt bit of a give-up stand. -/
structure KeepsGive (c c' : Chip) : Prop where
  give : c'.rd F.PAR_CAUSE_GIVE = c.rd F.PAR_CAUSE_GIVE
  flt : c'.flt = c.flt
  irq : bit (c.rdR (irqRaw 9)) 1 = true → bit (c'.rdR (irqRaw 9)) 1 = true

theorem KeepsGive.refl (c : Chip) : KeepsGive c c := ⟨rfl, rfl, id⟩

theorem KeepsGive.trans {a b c : Chip} (h : KeepsGive a b) (h' : KeepsGive b c) : KeepsGive a c :=
  ⟨h'.give.trans h.give, h'.flt.trans h.flt, h'.irq ∘ h.irq⟩

theorem KeepsGive.modPar (c : Chip) (f : Par → Par) : KeepsGive c (modPar f c) := ⟨rfl, rfl, id⟩

theorem KeepsGive.wr (c : Chip) {f : Fld} (v : Nat) (hg : R.PAR_CAUSE.addr ≠ f.reg.addr) (hi : (irqRaw 9).addr ≠ f.reg.addr) :
    KeepsGive c (c.wr f v) :=
  ⟨Chip.rd_wr_ne c v hg, rfl, fun h => by rwa [Chip.wr, Chip.rdR_wrR_ne c _ hi]⟩

/-- Another interrupt bit of PAR rises. -/
theorem KeepsGive.irqPar (t : Time) {b : Nat} (c : Chip) (hb : b < 32) : KeepsGive c (Machine.irq t 9 b c) where
  give := by
    obtain ⟨hregs, -, -⟩ := irq_reported (ps := [9]) t b c List.mem_cons_self
    rw [Chip.rd, hregs _ (by decide), Chip.rd]
  flt := irq_flt t 9 b c
  irq h := by rw [bit_irqRaw_irq t 9 1 c hb, h, Bool.or_true]

/-- A frame changes what PAIR carries, and leaves the pending give-up. -/
theorem pairSend_only (t : Time) (ty : Nat) (data : List Nat) (c : Chip) :
    ∃ p n, pairSend t ty data c = { c with par := p, free := n } ∧ p.giving = c.par.giving := by
  unfold pairSend
  split
  · exact ⟨_, _, rfl, rfl⟩
  · exact ⟨c.par, c.free, rfl, rfl⟩

theorem pairSend_keepsGive (t : Time) (ty : Nat) (data : List Nat) (c : Chip) : KeepsGive c (pairSend t ty data c) := by
  obtain ⟨p, n, h, -⟩ := pairSend_only t ty data c
  rw [h]
  exact ⟨rfl, rfl, id⟩

theorem stopActing_keepsGive (t : Time) (c : Chip) : KeepsGive c (stopActing t c) :=
  (KeepsGive.wr c (f := F.PAR_STAT_ACT) _ (by decide) (by decide)).trans (.modPar _ _)

theorem takeWithdrawn_keepsGive (t : Time) (c : Chip) : KeepsGive c (takeWithdrawn t c) := by
  unfold takeWithdrawn
  split
  · exact (KeepsGive.modPar c _).trans (.wr _ (f := F.PAR_STAKE_GEN) _ (by decide) (by decide))
  · exact .refl c

theorem setSynced_keepsGive (t : Time) (b : Bool) (c : Chip) : KeepsGive c (setSynced t b c) := by
  unfold setSynced
  split
  · exact .refl c
  · exact (KeepsGive.wr c (f := F.PAR_STAT_SYNCED) _ (by decide) (by decide)).trans (.irqPar t _ (by decide))

/-- Whatever the state adds to a give-up, what was told stands. -/
theorem giveUp_keepsGive (t : Time) (cause : Nat) {c : Chip} (h : ¬giveUpBarred c) : KeepsGive (tellGive t cause c) (giveUp t cause c) := by
  by_cases hact : prState c = prCLAIM ∨ prState c = prACTIVE
  · rw [giveUp_acting t cause h hact]
    exact ((stopActing_keepsGive t _).trans (.modPar _ _)).trans (pairSend_keepsGive t _ _ _)
  by_cases hstart : prState c = prSTART
  · rw [giveUp_start t cause h hstart]
    exact .refl _
  · rw [giveUp_shadowing t cause h hact hstart]
    exact ((takeWithdrawn_keepsGive t _).trans (.wr _ (f := F.PAR_STAT_STATE) _ (by decide) (by decide))).trans (setSynced_keepsGive t _ _)

/-! ### The chip stops acting -/

/-- A chip of a pair that stops acting does not act (R18, R353). -/
theorem acts_stopActing (t : Time) {c : Chip} (h : prState c ≠ prSOLO) : acts (stopActing t c) = false := by
  have hstate : (c.wrB F.PAR_STAT_ACT false).rd F.PAR_STAT_STATE = prState c :=
    Chip.rd_wr_apart c _ (by decide) (by decide) rfl (.inr (by decide))
  have hact : (c.wrB F.PAR_STAT_ACT false).rd F.PAR_STAT_ACT = 0 := Chip.rd_wr_self c _ _ (by decide) (by decide)
  have hsame : acts (stopActing t c) = acts (c.wrB F.PAR_STAT_ACT false) := rfl
  rw [hsame, acts, Chip.flag, hstate, hact]
  exact Bool.or_eq_false_iff.2 ⟨beq_eq_false_iff_ne.2 h, rfl⟩

/-- An acting chip of a pair, or one that claims, no longer acts, and its give-up is pending (R360). -/
theorem giveUp_stops (t : Time) (cause : Nat) {c : Chip} (h : ¬giveUpBarred c) (hs : prState c = prCLAIM ∨ prState c = prACTIVE) :
    acts (giveUp t cause c) = false ∧ (giveUp t cause c).par.giving = some cause := by
  obtain ⟨p, n, hsend, hgiving⟩ := pairSend_only t 0x04 [cause] (beginGiving t cause (tellGive t cause c))
  rw [giveUp_acting t cause h hs, hsend]
  refine ⟨acts_stopActing t (c := tellGive t cause c) ?_, hgiving⟩
  rw [tellGive_prState]
  exact fun hsolo => h (.inl hsolo)

/-! ### The statement -/

/-- Settles O22: every give-up that is not barred tells its cause first, and what its state adds keeps that. -/
theorem giveUpLatchesItsFirstCause : Obligations.GiveUpLatchesItsFirstCause := by
  intro t cause c _ hcause
  refine ⟨giveUp_barred t cause, fun h => ?_⟩
  have hkeep := giveUp_keepsGive t cause h
  have hlane : lane (giveUp t cause c) 0x12 = lane (tellGive t cause c) 0x12 := by rw [lane, hkeep.flt, lane]
  obtain ⟨hopen, hkinds⟩ := tellGive_lane t cause c
  rw [hlane]
  exact ⟨hkeep.give.trans (tellGive_rd_give t c (by omega)), hkeep.irq (tellGive_irq t cause c), hopen, hkinds, giveUp_stops t cause h⟩

end Sys2Proof.Machine

/-! SUPPORT. HIF: what a read of PGID answers, and how the identifiers of the pages differ (R452, R456, R457). -/

namespace Sys2Proof.Machine

/-! ### What a read of PGID answers -/

/-- A page that an interface reaches is one of the 25 pages of BAR0 (R457). -/
theorem pageReach_le {iface : Iface} {c : Chip} {p : Nat} (h : pageReach iface c p = true) : p ≤ 0x18 := by
  simp only [pageReach, Bool.and_eq_true, decide_eq_true_eq] at h
  obtain ⟨⟨hle, -⟩, -⟩ := h
  exact hle

/-- The MSI-X table lies above the pages (R436). -/
theorem isMsix_page (iface : Iface) {off : Nat} (h : off / 4096 ≤ 0x18) : isMsix iface off = false := by
  have hoff : ¬0x40000 ≤ off := by omega
  simp only [isMsix, hoff, decide_false, Bool.and_false, Bool.false_and]

/-- The first word of a page that the interface reaches is its identifier; the page's logic need not run (R456). -/
theorem hostRead_pgid {t : Time} {iface : Iface} {off : Nat} {nv : Nv} {c : Chip} (ha : awake c = true)
    (hr : pageReach iface c (off / 4096) = true) (hi : iface = .pcie ∨ spiOn c = true) (h0 : off % 4096 = 0) :
    hostRead t iface off nv c = (c, pageId (off / 4096)) := by
  have hle : off / 4096 ≤ 0x18 := pageReach_le hr
  have hpba : (off == 0x41000) = false := beq_false_of_ne (by omega)
  have hon : (iface == .spi && !spiOn c) = false := by
    rcases hi with rfl | hspi
    · rfl
    · rw [hspi, Bool.not_true, Bool.and_false]
  have hpage : (iface == .spi && !pageReach .spi c (off / 4096)) = false := by
    cases iface with
    | pcie => rfl
    | spi => rw [hr]; rfl
  simp only [hostRead, ha, hr, hon, hpage, hpba, h0, isMsix_page iface hle, Bool.not_true, Bool.and_false, Bool.or_self,
    Bool.false_eq_true, if_false]

/-- RC_REGISTER_READ is a host read of the word that holds its offset. -/
theorem exec_rcRegisterRead (iface : Iface) (off : BitVec 24) (s : State) :
    exec (.rcRegisterRead iface off) s = onChipNv (fun t nv c => (nv, hostReadBack t iface (off.toNat / 4 * 4) nv c)) s := rfl

/-- RC_REGISTER_READ at the first word of a page sends the identifier back. -/
theorem exec_rcRegisterRead_pgid {iface : Iface} {off : BitVec 24} {s : State} {p : Nat} (hoff : off.toNat = p * 4096)
    (ha : awake s.chip = true) (hr : pageReach iface s.chip p = true) (hi : iface = .pcie ∨ spiOn s.chip = true) :
    exec (.rcRegisterRead iface off) s = .next (s.settled s.nv (returns [pageId p] (hostAccess s.chip))) := by
  have hword : off.toNat / 4 * 4 = p * 4096 := by omega
  have hpage : p * 4096 / 4096 = p := Nat.mul_div_cancel p (by decide)
  -- the mark of a host access is no part of what the gates of a read look at
  have hread : hostRead s.time iface (p * 4096) s.nv (hostAccess s.chip) = (hostAccess s.chip, pageId p) := by
    have h := hostRead_pgid (t := s.time) (off := p * 4096) (nv := s.nv) (c := hostAccess s.chip) ha (hpage.symm ▸ hr) hi
      (Nat.mul_mod_left p 4096)
    rwa [hpage] at h
  have hback : hostReadBack s.time iface (off.toNat / 4 * 4) s.nv (hostAccess s.chip) = returns [pageId p] (hostAccess s.chip) := by
    rw [hword]
    exact congrArg (fun x : Chip × Nat => returns [x.2] x.1) hread
  rw [exec_rcRegisterRead]
  exact onChipNv_eq (congrArg (s.nv, ·) hback)

/-! ### The fields of an identifier -/

theorem srcOfPage_lt (p : Nat) : srcOfPage p < 2 ^ 8 := by
  unfold srcOfPage
  split <;> decide

theorem pageInst_lt (p : Nat) : pageInst p < 2 ^ 8 := by
  unfold pageInst
  split <;> omega

/-- PGID.CODE is the page's first fault source. -/
theorem pageId_code (p : Nat) : bits (pageId p) 23 16 = srcOfPage p := by
  have hc := srcOfPage_lt p
  have hi := pageInst_lt p
  simp only [bits, pageId]
  omega

/-- PGID.INST is the page's instance. -/
theorem pageId_inst (p : Nat) : bits (pageId p) 15 8 = pageInst p := by
  have hi := pageInst_lt p
  simp only [bits, pageId]
  omega

/-! ### Codes and instances of the 25 pages -/

/-- Only HIF has more than one page: every source but 0x16 belongs to one page (R377, R457). -/
theorem pages_of_one_source : ∀ p q : Fin 25, p ≠ q → srcOfPage p.val = srcOfPage q.val → p.val ≤ 2 ∧ q.val ≤ 2 := by decide

/-- The HIF core page and the two MAC pages are numbered by their instances (R460). -/
theorem pageInst_hif {p : Nat} (h : p ≤ 2) : pageInst p = p := by
  unfold pageInst
  split <;> omega

/-! ### The statement -/

/-- Settles O11: a read of PGID passes every gate and answers the identifier, whose CODE and INST are the tables of R377 and R457;
the pages that share a code are those of HIF, and there INST is the page's number. -/
theorem pageIdentifiersNameTheirSource : Obligations.PageIdentifiersNameTheirSource := by
  refine ⟨fun iface p s ha hr hi => ?_, fun p => ?_, fun p q hne hcode => ?_⟩
  · have hp : p.val * 4096 < 2 ^ 24 := by omega
    exact exec_rcRegisterRead_pgid ((BitVec.toNat_ofNat _ _).trans (Nat.mod_eq_of_lt hp)) ha hr hi
  · rw [pageId_code]
    revert p
    decide
  · rw [pageId_code, pageId_code] at hcode
    obtain ⟨hp, hq⟩ := pages_of_one_source p q hne hcode
    rw [pageId_inst, pageId_inst, pageInst_hif hp, pageInst_hif hq]
    exact Fin.val_ne_of_ne hne

end Sys2Proof.Machine

/-! SUPPORT. What is kept without power only grows: no operation of the flash or the fuses loses a burned fuse or the canonical
form of the flash (R341, R419, R420). -/

namespace Sys2Proof.Machine

/-- From `a` to `b` no row of fuses falls, and the canonical form of the flash is kept. -/
structure NvGrows (a b : Nv) : Prop where
  rowA : a.rowA ≤ b.rowA
  rowB : a.rowB ≤ b.rowB
  flash : flashWf a = true → flashWf b = true

theorem NvGrows.refl (a : Nv) : NvGrows a a := ⟨Nat.le_refl _, Nat.le_refl _, id⟩

theorem NvGrows.of_eq {a b : Nv} (h : b = a) : NvGrows a b := h ▸ .refl a

theorem NvGrows.trans {a b c : Nv} (h : NvGrows a b) (h' : NvGrows b c) : NvGrows a c :=
  ⟨Nat.le_trans h.rowA h'.rowA, Nat.le_trans h.rowB h'.rowB, h'.flash ∘ h.flash⟩

theorem NvGrows.ite {a b c : Nv} {p : Prop} [Decidable p] (h : NvGrows a b) (h' : NvGrows a c) :
    NvGrows a (if p then b else c) := by split <;> assumption

theorem NvGrows.foldl {α : Type} {f : Nv → α → Nv} (hf : ∀ n x, NvGrows n (f n x)) (l : List α) (n : Nv) :
    NvGrows n (l.foldl f n) := by
  induction l generalizing n with
  | nil => exact .refl n
  | cons x l ih => exact (hf n x).trans (ih _)

/-- The security floor follows the rows. -/
theorem NvGrows.secFloor {a b : Nv} (h : NvGrows a b) : secFloor a ≤ Machine.secFloor b :=
  Nat.max_le.mpr ⟨Nat.le_trans h.rowA (Nat.le_max_left _ _), Nat.le_trans h.rowB (Nat.le_max_right _ _)⟩

/-! ### The plain writes -/

theorem setMany_grows (n : Nv) (a : Nat) (bs : List Byte) : NvGrows n { n with flash := Tab.setMany 0xFF n.flash a bs } :=
  ⟨Nat.le_refl _, Nat.le_refl _, fun h => Tab.wf_setMany h a bs⟩

theorem flashErase_grows (lo hi : Nat) (n : Nv) : NvGrows n (flashErase lo hi n) :=
  ⟨Nat.le_refl _, Nat.le_refl _, fun h => Tab.wf_eraseRange h lo hi⟩

theorem writeState_grows (b w v : Nat) (n : Nv) : NvGrows n (writeState b w v n) := setMany_grows n _ _

theorem raiseFloor_grows (v : Nat) (n : Nv) : NvGrows n (raiseFloor v n) := ⟨Nat.le_max_left _ _, Nat.le_max_left _ _, id⟩

/-! ### The recorder's flash area (R340) -/

theorem programEnds_grows (t : Time) (nv : Nv) (c : Chip) : NvGrows nv (programEnds t nv c).1 := by
  unfold programEnds pageProgrammed
  split
  · exact .refl nv
  · split
    · exact setMany_grows nv _ _
    · exact .refl nv

theorem eraseEnds_grows (t : Time) (nv : Nv) (c : Chip) : NvGrows nv (eraseEnds t nv c).1 := by
  unfold eraseEnds eraseDone
  split
  · exact .refl nv
  · dsimp only
    split
    · exact flashErase_grows _ _ nv
    · split
      · exact flashErase_grows _ _ nv
      · exact .refl nv

/-! ### Updates (R421–R427) -/

theorem bankErased_grows (t : Time) (ok : Bool) (nv : Nv) (c : Chip) : NvGrows nv (bankErased t ok nv c).1 := by
  unfold bankErased
  split
  · dsimp only
    split
    · exact flashErase_grows _ _ nv
    · exact .refl nv
  · exact .refl nv

theorem blockProgrammed_grows (t : Time) (ok : Bool) (nv : Nv) (c : Chip) : NvGrows nv (blockProgrammed t ok nv c).1 := by
  unfold blockProgrammed
  split
  · split
    · exact .refl nv
    · dsimp only
      split
      · exact setMany_grows nv _ _
      · exact .refl nv
  · exact .refl nv

theorem verified_grows (t : Time) (nv : Nv) (c : Chip) : NvGrows nv (verified t nv c).1 := by
  unfold verified
  split
  · dsimp only
    split
    · exact .refl nv
    · exact writeState_grows _ _ _ nv
  · exact .refl nv

theorem activate_grows (t : Time) (tgt : Nat) (nv : Nv) (c : Chip) : NvGrows nv (activate t tgt nv c).1 := by
  unfold activate
  dsimp only
  split
  · exact .refl nv
  · split
    · exact .refl nv
    · split
      · exact .refl nv
      · split
        · exact .refl nv
        · exact .foldl (fun _ _ => writeState_grows _ _ _ _) _ nv

theorem confirmEnd_grows (nv : Nv) (c : Chip) : NvGrows nv (confirmEnd nv c).1 :=
  .foldl (fun _ _ => (writeState_grows _ _ _ _).trans (raiseFloor_grows _ _)) _ nv

/-- A fold that writes a word of the state block where a test holds. -/
theorem foldl_writeState_grows (p : Nv → Nat → Bool) (w : Nat) (l : List Nat) (nv : Nv) :
    NvGrows nv (l.foldl (fun n b => if p n b then writeState b w 0 n else n) nv) :=
  .foldl (fun n _ => .ite (writeState_grows _ _ _ n) (.refl n)) l nv

theorem bootChoose_grows (t : Time) (nv : Nv) (c : Chip) : NvGrows nv (bootChoose t nv c).1 := by
  unfold bootChoose
  extract_lets n₀ tried n₁ d s e
  have h₁ : NvGrows nv n₁ :=
    (raiseFloor_grows (secFloor nv) nv).trans (.foldl (fun n _ => .ite (writeState_grows _ _ _ n) (.refl n)) _ n₀)
  clear_value n₁ d
  split
  · exact h₁
  · split
    · dsimp only
      refine .trans ?_ (.foldl (fun n _ => .ite (writeState_grows _ _ _ n) (.refl n)) _ _)
      exact h₁.trans (.foldl (fun n _ => .ite (writeState_grows _ _ _ n) (.refl n)) _ _)
    · dsimp only
      exact h₁.trans (.ite (writeState_grows _ _ _ _) (.refl _))

theorem bootDone_grows (t : Time) (recov : Bool) (pos : Nat) (nv : Nv) (c : Chip) : NvGrows nv (bootDone t recov pos nv c).1 := by
  unfold bootDone
  split
  · exact .refl nv
  · extract_lets d
    split
    · exact .refl nv
    · have h := bootChoose_grows t nv d
      generalize bootChoose t nv d = x at h ⊢
      obtain ⟨n, d', sup, ce⟩ := x
      dsimp only at h ⊢
      split <;> exact h

/-! ### Host writes: an activation is the only one that reaches the flash -/

theorem updOp_grows (t : Time) (v : Nat) (nv : Nv) (c : Chip) : NvGrows nv (updOp t v nv c).1 := by
  unfold updOp
  split
  case h_4 => exact activate_grows _ _ _ _
  all_goals exact .refl nv

/-- A register's own operation leaves what is kept without power, but for an activation through UPD_OP. -/
theorem specialWrite_nv {t : Time} {off v : Nat} {nv : Nv} {c : Chip} {x : Nv × Chip} (h : specialWrite t off v nv c = some x) :
    x.1 = nv ∨ off = 0x604C ∧ x = updOp t v nv c := by
  by_cases ho : off = 0x604C
  · exact .inr ⟨ho, by subst ho; exact (Option.some.inj h).symm⟩
  · have hn : ¬(off / 4096 = 6 ∧ off % 4096 = 0x4C) := by omega
    left
    unfold specialWrite at h
    dsimp only at h
    split at h
    case h_22 => cases h
    case h_5 hp =>
      split at h
      · cases h; rfl
      · split at h
        next h2 => exact absurd ⟨hp, h2⟩ hn
        all_goals repeat' split at h
        all_goals cases h
        all_goals rfl
    all_goals
      repeat' split at h
      all_goals cases h
      all_goals rfl

theorem specialWrite_grows {t : Time} {off v : Nat} {nv : Nv} {c : Chip} {x : Nv × Chip} (h : specialWrite t off v nv c = some x) :
    NvGrows nv x.1 := by
  rcases specialWrite_nv h with h | ⟨-, h⟩
  · exact .of_eq h
  · exact h ▸ updOp_grows _ _ _ _

/-- What an accepted write leaves is kept without power, or what an activation through UPD_OP leaves. -/
theorem writeWord_nv (t : Time) (iface : Iface) (nv : Nv) (off v : Nat) (c : Chip) :
    (writeWord t iface nv off v c).1 = nv ∨ off = 0x604C ∧ ∃ d, (writeWord t iface nv off v c).1 = (updOp t v nv d).1 := by
  unfold writeWord
  split
  · exact .inl rfl
  · dsimp only
    split
    · exact .inl rfl
    · split
      · exact .inl rfl
      · rw [apply_ite Prod.fst, ite_self]
        split
        · exact .inl rfl
        · split
          case h_1 x hx =>
            split at hx
            · exact (specialWrite_nv hx).imp id fun h => ⟨h.1, _, by rw [h.2]⟩
            · cases hx
          · exact .inl rfl

theorem writeWord_grows (t : Time) (iface : Iface) (nv : Nv) (off v : Nat) (c : Chip) : NvGrows nv (writeWord t iface nv off v c).1 := by
  rcases writeWord_nv t iface nv off v c with h | ⟨-, d, h⟩
  · exact .of_eq h
  · exact h ▸ updOp_grows _ _ _ _

/-- A host write of another word than UPD_OP leaves what is kept without power. -/
theorem hostWrite_nv (t : Time) (iface : Iface) {off : Nat} (v : Nat) (nv : Nv) (c : Chip) (h : off ≠ 0x604C) :
    (hostWrite t iface off v nv c).1 = nv := by
  unfold hostWrite
  split
  · rfl
  · dsimp only
    split
    · exact (writeWord_nv _ _ _ _ _ _).resolve_right fun x => h x.1
    · rfl

/-- A write of UPD_OP that is no activation leaves what is kept without power. -/
theorem hostWrite_updOp_nv (t : Time) (iface : Iface) {v : Nat} (nv : Nv) (c : Chip) (h : bits v 2 0 ≠ 4) :
    (hostWrite t iface 0x604C v nv c).1 = nv := by
  unfold hostWrite
  split
  · rfl
  · dsimp only
    split
    · rcases writeWord_nv t iface nv 0x604C v _ with x | ⟨-, d, x⟩
      · exact x
      · rw [x]
        unfold updOp
        split
        case h_4 h4 => exact absurd h4 h
        all_goals rfl
    · rfl

theorem hostWrite_grows (t : Time) (iface : Iface) (off v : Nat) (nv : Nv) (c : Chip) : NvGrows nv (hostWrite t iface off v nv c).1 := by
  unfold hostWrite
  split
  · exact .refl nv
  · dsimp only
    split
    · exact writeWord_grows _ _ _ _ _ _
    · exact .refl nv

theorem spiWriteWords_grows (t : Time) (off : Nat) (l : List Nat) (nv : Nv) (c : Chip) :
    NvGrows nv (spiWriteWords t off l nv c).1 := by
  induction l generalizing off nv c with
  | nil => exact .refl nv
  | cons w l ih => exact (hostWrite_grows t .spi off w nv c).trans (ih _ _ _)

theorem spiWrite_grows (t : Time) (bytes : List Byte) (nv : Nv) (c : Chip) : NvGrows nv (spiWrite t bytes nv c).1 := by
  unfold spiWrite
  split
  · exact .refl nv
  · split
    · exact .refl nv
    · split
      · exact spiWriteWords_grows _ _ _ _ _
      · exact .refl nv

/-! ### The configuration section (R474) -/

/-- A fold over a pair keeps what each of its steps keeps of the first part. -/
theorem NvGrows.foldl_fst {α : Type} {f : Nv × Chip → α → Nv × Chip} (hf : ∀ r x, NvGrows r.1 (f r x).1) (l : List α) (r : Nv × Chip) :
    NvGrows r.1 (l.foldl f r).1 := by
  induction l generalizing r with
  | nil => exact .refl _
  | cons x l ih => exact (hf r x).trans (ih _)

theorem configure_grows (t : Time) (sec : ConfigSection) (nv : Nv) (c : Chip) : NvGrows nv (configure t sec nv c).1 := by
  unfold configure
  refine .foldl_fst (fun r p => ?_) _ (nv, _)
  dsimp only
  split
  · exact .foldl_fst (fun r x => writeWord_grows _ _ _ _ _ _) _ r
  · exact .foldl_fst (fun r x => writeWord_grows _ _ _ _ _ _) _ r

theorem configDone_grows (t : Time) (sec : ConfigSection) (nv : Nv) (c : Chip) : NvGrows nv (configDone t sec nv c).1 := by
  unfold configDone
  split
  · exact .refl nv
  · dsimp only
    split
    · exact configure_grows _ _ _ _
    · exact .refl nv

/-- The ANG commits of a tick leave what is kept without power. -/
theorem angCommits_nv (t : Time) (l : List Instr) (nv : Nv) (c : Chip) : (angCommits t l nv c).1 = nv := by
  unfold angCommits
  dsimp only
  split
  · split
    · exact hostWrite_nv _ _ _ _ _ (by decide)
    · rfl
  · rfl

end Sys2Proof.Machine

/-! SUPPORT. The shape of every command: it answers the next state in which its own effect is settled, the queue is as it was, and
flash and fuses are as they were but for ten commands (log 5). -/

namespace Sys2Proof.Machine

/-! ### The shapes -/

/-- The command answers the next state of an effect on the chip alone: what is kept without power is as it was. -/
def KeepsNv (s : State) (o : Host.Outcome State Fault Refusal) : Prop := ∃ c, o = .next (s.settled s.nv c)

/-- The command answers the next state of an effect after which what is kept without power has only grown. -/
def GrowsNv (s : State) (o : Host.Outcome State Fault Refusal) : Prop :=
  ∃ nv c, o = .next (s.settled nv c) ∧ NvGrows s.nv nv

theorem KeepsNv.grows {s : State} {o : Host.Outcome State Fault Refusal} (h : KeepsNv s o) : GrowsNv s o :=
  let ⟨c, hc⟩ := h
  ⟨s.nv, c, hc, .refl _⟩

/-- The answer of a command that leaves flash, fuses and chip as a pair. -/
theorem GrowsNv.of_pair {s : State} {o : Host.Outcome State Fault Refusal} {x : Nv × Chip} (h : o = .next (s.settled x.1 x.2))
    (hx : NvGrows s.nv x.1) : GrowsNv s o := ⟨x.1, x.2, h, hx⟩

theorem KeepsNv.of_pair {s : State} {o : Host.Outcome State Fault Refusal} {x : Nv × Chip} (h : o = .next (s.settled x.1 x.2))
    (hx : x.1 = s.nv) : KeepsNv s o := ⟨x.2, hx ▸ h⟩

/-- A block whose page is not alive leaves what is kept without power, as its effect does. -/
theorem fst_page {b : Prop} [Decidable b] {nv : Nv} {x : Nv × Chip} {c : Chip} (h : x.1 = nv) : (if b then x else (nv, c)).1 = nv := by
  split
  · exact h
  · rfl

theorem NvGrows.page {b : Prop} [Decidable b] {nv : Nv} {x : Nv × Chip} {c : Chip} (h : NvGrows nv x.1) :
    NvGrows nv (if b then x else (nv, c)).1 := by
  split
  · exact h
  · exact .refl nv

theorem pageWord_ne_updOp (p : Fin 25) {o : Nat} (h : o % 4096 ≠ 0x4C) : pageWord p o ≠ 0x604C := by
  unfold pageWord
  omega

theorem execCommitImmediate_keeps (iface : Iface) (p : Fin 25) (s : State) : KeepsNv s (execCommitImmediate iface p s) := by
  unfold execCommitImmediate
  split
  · exact ⟨_, rfl⟩
  · exact .of_pair rfl (hostWrite_nv _ _ _ _ _ (pageWord_ne_updOp p (by decide)))

theorem execRecordBufferAccess_keeps (w : Option Word) (s : State) : KeepsNv s (execRecordBufferAccess w s) := by
  cases w with
  | some v => exact .of_pair rfl (hostWrite_nv _ _ _ _ _ (by decide))
  | none => exact .of_pair rfl rfl

/-! ### The commands -/

/-- The commands that can change what is kept without power: ends of flash operations, activations, the boot ROM, the
configuration commit, and the writes that can carry an activation (R340, R419–R427, R474). -/
def reachesFlash : Instr → Bool
  | .registerWrite .. | .spiWriteFrame .. | .configCommitComplete .. | .bootRomComplete .. | .flashPageProgrammed | .flashEraseDone
  | .bankEraseDone .. | .blockProgrammed .. | .verificationDone | .updateActivate .. => true
  | _ => false

/-- Every command but ten leaves what is kept without power; all but those listed here are changes of the chip alone. -/
theorem exec_keepsNv {i : Instr} (h : reachesFlash i = false) (s : State) : KeepsNv s (exec i s) := by
  cases i with
  | registerWrite | spiWriteFrame | configCommitComplete | bootRomComplete | flashPageProgrammed | flashEraseDone |
    bankEraseDone | blockProgrammed | verificationDone | updateActivate => cases h
  | pageUnlock | pageLock | pageBlockReset | blockLogicHold | blockLogicRelease | commitAtBoundary | commitAtAngle |
    endOfInterrupt | ptpSyncOnly | ptpFullExchange =>
    exact .of_pair rfl (hostWrite_nv _ _ _ _ _ (pageWord_ne_updOp _ (by decide)))
  | nsTimeStep | nsRateAdjust | legForceOff | tripClear | cenHostTrigger | seedRequest | coefficientWrite | loadIntentPost |
    registryLookup | channelEnableCommand | damageClear | pmbHostTransaction | contextForget | yieldCommand | handoverCommand
    | incidentClose | bivouacCommand | bivouacAck | faultInject | evidenceClear | blockCommit | ownerLockWrite | chipResetKey
    | supervisorResetKey | hibernateRequest | scheduleReadEntry | scheduleWriteEntry | scheduleClearBank | gapNoticePost |
    gapNoticeCancel | xinGrantDeliver | xinReportDeliver | xinElectionDeliver | recordSave | stagingClear | restoreCommit |
    mailboxSendIntent | mailboxSendGap | noteWrite | hostTriggerFire | areaFormat =>
    exact .of_pair rfl (hostWrite_nv _ _ _ _ _ (by decide))
  | wireTestCommand | swapCommand | renegCommand | sresetCommand | hresetCommand | unblockCommand | taskCheckIn |
  hostReadIndexWrite => exact .of_pair rfl (hostWrite_nv _ _ _ _ _ (by omega))
  | macTailWrite => exact .of_pair rfl (hostWrite_nv _ _ _ _ _ (by split <;> omega))
  | updateStart | updateFinish | updateAbort | updateConfirm =>
    exact .of_pair rfl (hostWrite_updOp_nv _ _ _ _ (by simp only [bits]; omega))
  | rcRegisterRead | pendingCommitApply | angleNowRead | pwmPeriodBoundary | coefficientRead | contextSlotRead | ringPortRead
    | flashRead | incidentRead | spiReadFrame | imageChecksComplete =>
    exact .of_pair rfl rfl
  | cenIteration | grantEffective | areaScan | schedNone | schedTriggerSlot | schedStartConversion | schedDropShedPhase |
    schedAddPhases | schedEfuseOn | schedEfuseOff | schedReleaseFrames | schedRecorderMarker | schedHostEvent |
    mirrorReceived | bulkReceived =>
    exact .of_pair rfl (fst_page rfl)
  | lockAcquired | unlockDeclared | supplyPresent | outOfBand | dcDetected | holdoverExpired | supplyLossDeclared |
    plannedHoldoverStart | plannedWindowEnd =>
    exact .of_pair rfl (fst_page (angCommits_nv _ _ _ _))
  | commitImmediate => exact execCommitImmediate_keeps _ _ s
  | recordBufferAccess => exact execRecordBufferAccess_keeps _ s
  | _ => exact ⟨_, rfl⟩

/-- Every command answers the next state of its settled effect, and what is kept without power only grows. -/
theorem exec_grows (i : Instr) (s : State) : GrowsNv s (exec i s) := by
  by_cases h : reachesFlash i = false
  · exact (exec_keepsNv h s).grows
  · cases i with
    | registerWrite iface off v whole =>
      refine .of_pair rfl ?_
      dsimp only
      split
      · exact hostWrite_grows _ _ _ _ _ _
      · exact .refl _
    | spiWriteFrame bytes => exact .of_pair rfl (spiWrite_grows _ _ _ _)
    | configCommitComplete sec => exact .of_pair rfl (configDone_grows _ _ _ _)
    | bootRomComplete recov pos => exact .of_pair rfl (bootDone_grows _ _ _ _ _)
    | flashPageProgrammed => exact .of_pair rfl (.page (programEnds_grows _ _ _))
    | flashEraseDone => exact .of_pair rfl (.page (eraseEnds_grows _ _ _))
    | bankEraseDone ok => exact .of_pair rfl (.page (bankErased_grows _ _ _ _))
    | blockProgrammed ok => exact .of_pair rfl (.page (blockProgrammed_grows _ _ _ _))
    | verificationDone => exact .of_pair rfl (.page (verified_grows _ _ _))
    | updateActivate iface tgt => exact .of_pair rfl (hostWrite_grows _ _ _ _ _ _)
    | _ => exact absurd rfl h

end Sys2Proof.Machine

/-! SUPPORT. The steps: what a command and a tick leave of the time base, the queue, flash and fuses (R35, R37, R53), and that every
step keeps the invariant. -/

namespace Sys2Proof.Machine

/-! ### What is asked of the time base -/

/-- The time base after what is asked of it is done (R37, R47, R53, R55). -/
def Time.asked (t : Time) : Option TimeReq → Time
  | none => t
  | some (.jump bins) => if t.running then { t with acc := t.acc + BitVec.ofNat 80 (bins.toNat * 2 ^ 32) } else t
  | some (.nsStep d) => { t with ns := t.ns + BitVec.ofInt 64 d }
  | some (.follow x) => if t.running && Stamp.later x t.stamp then { t with acc := x.setWidth 80 <<< 32 } else t
  | some .restart => { t with acc := BitVec.ofNat 80 (2 ^ 48), running := true, ns := 0, nsFrac := 0 }
  | some .stop => { t with acc := 0, running := false, ns := 0, nsFrac := 0 }

theorem applyTime_time (s : State) : (applyTime s).time = s.time.asked s.chip.timeReq := by
  unfold applyTime
  split
  · rename_i h; rw [h]; rfl
  · rename_i r h
    rw [h]
    cases r <;> rfl

/-- What a command leaves of the time base is what the chip has asked of it. -/
theorem settled_time (s : State) (nv : Nv) (c : Chip) : ∃ r, (s.settled nv c).time = s.time.asked r :=
  ⟨_, applyTime_time _⟩

theorem Time.asked_tick (t : Time) (r : Option TimeReq) : (t.asked r).tick = t.tick := by
  unfold Time.asked
  split
  case h_2 => split <;> rfl
  case h_4 => split <;> rfl
  all_goals rfl

theorem timeWf_iff (t : Time) : timeWf t = true ↔ t.nsFrac < 131072000000 ∧ (t.running = true ∨ t.acc = 0) := by
  simp [timeWf]

/-- What is asked of the time base keeps its form: only a running clock moves, and a stop clears the stamp. -/
theorem timeWf_asked {t : Time} (h : timeWf t = true) (r : Option TimeReq) : timeWf (t.asked r) = true := by
  rw [timeWf_iff] at h ⊢
  obtain ⟨hf, hr⟩ := h
  unfold Time.asked
  split
  · exact ⟨hf, hr⟩
  · split
    · rename_i hrun; exact ⟨hf, .inl hrun⟩
    · exact ⟨hf, hr⟩
  · exact ⟨hf, hr⟩
  · split
    · rename_i hrun; exact ⟨hf, .inl (by simp_all)⟩
    · exact ⟨hf, hr⟩
  · exact ⟨by simp, .inl rfl⟩
  · exact ⟨by simp, .inr rfl⟩

/-- The next tick keeps the form of the time base: the fraction is what is left below one nanosecond. -/
theorem timeWf_next {t : Time} (h : timeWf t = true) (c : Chip) : timeWf (t.next c) = true := by
  rw [timeWf_iff] at h ⊢
  unfold Time.next
  split
  · dsimp only
    exact ⟨by omega, .inl rfl⟩
  · exact h

theorem Time.next_tick (t : Time) (c : Chip) : (t.next c).tick = t.tick + 1 := by
  unfold Time.next
  split <;> rfl

@[simp] theorem settled_tick (s : State) (nv : Nv) (c : Chip) : (s.settled nv c).time.tick = s.time.tick := by
  obtain ⟨r, h⟩ := settled_time s nv c
  rw [h, Time.asked_tick]

theorem settled_inv {s : State} {nv : Nv} (c : Chip) (hf : flashWf nv = true) (ht : timeWf s.time = true) :
    StateInv (s.settled nv c) := by
  obtain ⟨r, h⟩ := settled_time s nv c
  exact ⟨by rwa [settled_nv], h ▸ timeWf_asked ht r, settled_quiet _ _ _⟩

/-! ### A tick -/

theorem hellosEnd_none {s : State} (h : (seg s.chip 1).hellos = []) : hellosEnd s = s := by
  simp [hellosEnd, h]

theorem confirmEnds_none {s : State} (h : s.chip.upd.confirmed = []) : confirmEnds s = s := if_pos h

theorem confirmEnds_some {s : State} (h : s.chip.upd.confirmed ≠ []) :
    confirmEnds s = s.settled (confirmEnd s.nv s.chip).1 (confirmEnd s.nv s.chip).2 := if_neg h

/-- What the end of a tick brings is settled in it, or there is nothing of it. -/
theorem hellosEnd_cases (s : State) : hellosEnd s = s ∨ ∃ c, hellosEnd s = s.settled s.nv c := by
  unfold hellosEnd
  split
  · exact .inl rfl
  · exact .inr ⟨_, rfl⟩

/-- What the engine and an entry into hibernate bring is settled in the new tick, or there is nothing of it. -/
theorem idle_cases (s : State) :
    let u := confirmEnds (hellosEnd s)
    idle s = { u with time := u.time.next u.chip } ∨
      ∃ c, idle s = State.settled { u with time := u.time.next u.chip } u.nv c := by
  unfold idle
  dsimp only
  split
  · exact .inl rfl
  · exact .inr ⟨_, rfl⟩

theorem hellosEnd_grows (s : State) :
    NvGrows s.nv (hellosEnd s).nv ∧ (hellosEnd s).pending = s.pending ∧ (hellosEnd s).time.tick = s.time.tick ∧
      (StateInv s → StateInv (hellosEnd s)) := by
  rcases hellosEnd_cases s with h | ⟨c, h⟩
  · rw [h]; exact ⟨.refl _, rfl, rfl, id⟩
  · rw [h]
    exact ⟨.of_eq (settled_nv _ _ _), settled_pending _ _ _, settled_tick _ _ _, fun hi => settled_inv c hi.1 hi.2.1⟩

theorem confirmEnds_grows (s : State) :
    NvGrows s.nv (confirmEnds s).nv ∧ (confirmEnds s).pending = s.pending ∧ (confirmEnds s).time.tick = s.time.tick ∧
      (StateInv s → StateInv (confirmEnds s)) := by
  unfold confirmEnds
  split
  · exact ⟨.refl _, rfl, rfl, id⟩
  · have hg := confirmEnd_grows s.nv s.chip
    exact ⟨by rwa [settled_nv], settled_pending _ _ _, settled_tick _ _ _, fun hi => settled_inv _ (hg.flash hi.1) hi.2.1⟩

/-- A tick: flash and fuses only grow, the queue stays, the tick counts up, and the invariant is kept. -/
theorem idle_grows (s : State) :
    NvGrows s.nv (idle s).nv ∧ (idle s).pending = s.pending ∧ (idle s).time.tick = s.time.tick + 1 ∧
      (StateInv s → StateInv (idle s)) := by
  obtain ⟨n₁, p₁, t₁, i₁⟩ := hellosEnd_grows s
  obtain ⟨n₂, p₂, t₂, i₂⟩ := confirmEnds_grows (hellosEnd s)
  have hn := n₁.trans n₂
  have hp := p₂.trans p₁
  have ht : ((confirmEnds (hellosEnd s)).time.next (confirmEnds (hellosEnd s)).chip).tick = s.time.tick + 1 := by
    rw [Time.next_tick, t₂, t₁]
  have hi := fun h => i₂ (i₁ h)
  rcases idle_cases s with h | ⟨c, h⟩
  · rw [h]
    exact ⟨hn, hp, ht, fun x => ⟨(hi x).1, timeWf_next (hi x).2.1 _, (hi x).2.2⟩⟩
  · rw [h]
    exact ⟨by rwa [settled_nv], by rwa [settled_pending], by rwa [settled_tick],
      fun x => settled_inv c (hi x).1 (timeWf_next (hi x).2.1 _)⟩

/-- With nothing held to the end of the tick, flash and fuses are as they were. -/
theorem idle_nv {s : State} (hh : (seg s.chip 1).hellos = []) : (idle s).nv = (confirmEnds s).nv := by
  have h := idle_cases s
  rw [hellosEnd_none hh] at h
  rcases h with h | ⟨c, h⟩
  · rw [h]
  · rw [h, settled_nv]

theorem step_idle {s : State} (h : s.pending = []) : step s = .next (idle s) := by
  simp [step, h]

/-- A tick of a running clock (R37, R53): the accumulator, the fraction carried, and the whole nanoseconds. -/
theorem Time.next_running {t : Time} (h : t.running = true) (c : Chip) :
    (t.next c).acc = (if c.ang.paused then t.acc else t.acc + BitVec.ofNat 80 (effInc c)) ∧
    (t.next c).nsFrac < 131072000000 ∧
    ∃ n : Int, (t.next c).ns = t.ns + BitVec.ofInt 64 n ∧
      n * 131072000000 + (t.next c).nsFrac = t.nsFrac + 5 * (65536000000 + c.rdI F.ANG_NSADJ_ADJ) := by
  unfold Time.next
  rw [if_pos h]
  dsimp only
  refine ⟨rfl, by omega, _, rfl, ?_⟩
  generalize (t.nsFrac : Int) + 5 * (65536000000 + c.rdI F.ANG_NSADJ_ADJ) = x
  omega

theorem Time.next_stopped {t : Time} (h : t.running = false) (c : Chip) : t.next c = { t with tick := t.tick + 1 } := by
  unfold Time.next
  rw [if_neg (by simp [h])]

theorem Time.next_runs (t : Time) (c : Chip) : (t.next c).running = t.running := by
  unfold Time.next
  split
  · rename_i h; exact h.symm
  · rfl

/-! ### The stamp under R10 -/

theorem Stamp.reached_self (a : Stamp) : Stamp.reached a a = true := by simp [Stamp.reached]

/-- A forward jump of fewer than half the stamps lands at or later than it began. -/
theorem Stamp.reached_add (a : Stamp) (n : BitVec 16) : Stamp.reached (a + n.setWidth 48) a = true := by
  have hd : a + n.setWidth 48 - a = n.setWidth 48 := by rw [BitVec.add_comm, BitVec.add_sub_cancel]
  have hn : (n.setWidth 48).toNat = n.toNat := by simp; omega
  by_cases h : n = 0
  · subst h; simp [Stamp.reached]
  · have h0 : n.toNat ≠ 0 := fun e => h (BitVec.eq_of_toNat_eq e)
    have hl : n.toNat < 2 ^ 16 := n.isLt
    simp only [Stamp.reached, Stamp.later, hd, hn, Bool.or_eq_true, Bool.and_eq_true, decide_eq_true_eq]
    exact .inr ⟨by omega, by omega⟩

/-- Whole bins of 2^32 pass through the fraction of the accumulator. -/
theorem acc_add_bins (a n : Nat) (hn : n < 65536) :
    (a + n * 4294967296 % 1208925819614629174706176) % 1208925819614629174706176 / 4294967296 % 281474976710656 =
      (a / 4294967296 % 281474976710656 + n % 281474976710656) % 281474976710656 := by omega

/-- The stamp of an accumulator moved by whole bins. -/
theorem stamp_add_bins (a : BitVec 80) (n : BitVec 16) :
    ((a + BitVec.ofNat 80 (n.toNat * 2 ^ 32)) >>> 32).setWidth 48 = (a >>> 32).setWidth 48 + n.setWidth 48 := by
  apply BitVec.eq_of_toNat_eq
  rw [BitVec.toNat_setWidth, BitVec.toNat_ushiftRight, BitVec.toNat_add, BitVec.toNat_ofNat, BitVec.toNat_add, BitVec.toNat_setWidth,
    BitVec.toNat_setWidth, BitVec.toNat_ushiftRight, Nat.shiftRight_eq_div_pow, Nat.shiftRight_eq_div_pow]
  exact acc_add_bins _ _ n.isLt

/-- The stamp of an accumulator at 1∠0x0000. -/
theorem stamp_restart : (BitVec.ofNat 80 (2 ^ 48) >>> 32).setWidth 48 = 0x000000010000#48 := by decide

/-- The stamp of an accumulator that takes a stamp. -/
theorem stamp_of_shift (x : Stamp) : ((x.setWidth 80 <<< 32) >>> 32).setWidth 48 = x := by
  apply BitVec.eq_of_toNat_eq
  have hx := x.isLt
  simp [Nat.shiftRight_eq_div_pow, Nat.shiftLeft_eq] at hx ⊢
  omega

/-- A clock that runs before and after: the stamp is at or later than it was, or it starts anew (R37, R47, R55). -/
theorem Time.asked_stamp {t : Time} (h : t.running = true) (r : Option TimeReq) (h' : (t.asked r).running = true) :
    Stamp.reached (t.asked r).stamp t.stamp = true ∨
      ((t.asked r).stamp = 0x000000010000#48 ∧ (t.asked r).ns = 0 ∧ (t.asked r).nsFrac = 0) := by
  have hs (t' : Time) (h' : t'.running = true) : t'.stamp = (t'.acc >>> 32).setWidth 48 := if_pos h'
  cases r with
  | none => exact .inl (Stamp.reached_self _)
  | some r =>
    cases r with
    | jump bins =>
      left
      rw [hs _ h', hs _ h, Time.asked, if_pos h, stamp_add_bins]
      exact Stamp.reached_add _ _
    | nsStep d => exact .inl (Stamp.reached_self _)
    | follow x =>
      left
      rw [hs _ h', hs _ h, Time.asked]
      split
      · rename_i hx
        rw [stamp_of_shift]
        rw [Bool.and_eq_true, hs _ h] at hx
        simp [Stamp.reached, hx.2]
      · exact Stamp.reached_self _
    | restart => exact .inr ⟨(hs _ h').trans stamp_restart, rfl, rfl⟩
    | stop => cases h'

/-! ### The statements -/

/-- Settles O1. -/
theorem stepRunsTheFrontCommand : Obligations.StepRunsTheFrontCommand := fun _ _ _ => rfl

/-- Settles O2, from what a tick leaves of the time base and what its end brings. -/
theorem emptyQueueIsOneTick : Obligations.EmptyQueueIsOneTick := by
  refine ⟨fun s hp he hn hh hc => ?_, fun s hp hb hh hc => ?_, fun s hp => ?_, fun s hp hh hc => ?_, fun s hp hh hc => ?_⟩
  · refine ⟨s.time.next s.chip, ?_, Time.next_tick _ _, Time.next_runs _ _, fun h => ?_, fun h => Time.next_running h _⟩
    · rw [step_idle hp]
      simp [idle, hellosEnd_none hh, confirmEnds_none hc, he, hn]
    · rw [Time.next_stopped h]
      exact ⟨rfl, rfl, rfl⟩
  · have hb : (s.chip.engine.isNone && !s.chip.pwr.entering) = false := by
      rcases hb with h | h
      · simp [Option.isNone_eq_false_iff.2 h]
      · simp [h]
    rw [step_idle hp]
    simp [idle, hellosEnd_none hh, confirmEnds_none hc, hb]
  · obtain ⟨-, h, ht, -⟩ := idle_grows s
    exact ⟨_, step_idle hp, h.trans hp, ht⟩
  · exact ⟨_, step_idle hp, by rw [idle_nv hh, confirmEnds_some hc, settled_nv]⟩
  · exact ⟨_, step_idle hp, by rw [idle_nv hh, confirmEnds_none hc]⟩

/-- Settles O3: every command answers the next state of its settled effect. -/
theorem everyCommandCompletes : Obligations.EveryCommandCompletes := by
  have h (i : Instr) (s : State) : ∃ t, exec i s = .next t ∧ t.pending = s.pending := by
    obtain ⟨nv, c, h, -⟩ := exec_grows i s
    exact ⟨_, h, settled_pending _ _ _⟩
  refine ⟨h, fun s => ?_⟩
  unfold SafeStep step
  split
  · exact ⟨_, rfl⟩
  · obtain ⟨t, ht, -⟩ := h _ _
    exact ⟨t, ht⟩

/-- Settles O4. -/
theorem invariantHoldsAtReset : Obligations.InvariantHoldsAtReset := by
  unfold Obligations.InvariantHoldsAtReset StateInv
  decide +kernel

/-- A step is a tick, or the settled effect of the command in front; in both flash and fuses only grow. -/
theorem step_cases {s t : State} (h : step s = .next t) :
    (s.pending = [] ∧ t = idle s) ∨
      ∃ i l nv c, s.pending = i :: l ∧ t = State.settled { s with pending := l } nv c ∧ NvGrows s.nv nv := by
  unfold step at h
  split at h
  · exact .inl ⟨by assumption, (Host.Outcome.next.inj h).symm⟩
  · rename_i i l hp
    obtain ⟨nv, c, he, hg⟩ := exec_grows i { s with pending := l }
    exact .inr ⟨i, l, nv, c, hp, Host.Outcome.next.inj (h.symm.trans he), hg⟩

/-- Settles O5: a tick and a settled effect keep each part of the invariant. -/
theorem everyStepKeepsInvariant : Obligations.EveryStepKeepsInvariant := by
  intro s t hi h
  rcases step_cases h with ⟨-, rfl⟩ | ⟨i, l, nv, c, -, rfl, hg⟩
  · exact (idle_grows s).2.2.2 hi
  · exact settled_inv c (hg.flash hi.1) hi.2.1

/-- Settles O6: no step lets a row of fuses fall. -/
theorem securityFloorNeverFalls : Obligations.SecurityFloorNeverFalls := by
  intro s t h
  have hg : NvGrows s.nv t.nv := by
    rcases step_cases h with ⟨-, rfl⟩ | ⟨i, l, nv, c, -, rfl, hg⟩
    · exact (idle_grows s).1
    · rwa [settled_nv]
  exact ⟨hg.secFloor, hg.rowA, hg.rowB⟩

/-- Settles O7: a command asks the time base for at most one change, and each of them keeps the tick and moves the stamp as R37,
R47 and R55 say. -/
theorem onlyTheClockMovesTheStamp : Obligations.OnlyTheClockMovesTheStamp := by
  intro i s t h
  obtain ⟨nv, c, he, -⟩ := exec_grows i s
  obtain rfl := Host.Outcome.next.inj (h.symm.trans he)
  obtain ⟨r, hr⟩ := settled_time s nv c
  rw [hr]
  exact ⟨Time.asked_tick _ _, fun hs ht => Time.asked_stamp hs r ht⟩

/-- Settles O8: all commands but ten are effects on the chip alone. -/
theorem onlyFlashCommandsChangeFlash : Obligations.OnlyFlashCommandsChangeFlash := by
  intro i s t h
  by_cases hi : reachesFlash i = false
  · obtain ⟨c, hc⟩ := exec_keepsNv hi s
    obtain rfl := Host.Outcome.next.inj (h.symm.trans hc)
    exact .inl (settled_nv _ _ _)
  · right
    cases i with
    | registerWrite | spiWriteFrame | configCommitComplete | bootRomComplete | flashPageProgrammed | flashEraseDone |
      bankEraseDone | blockProgrammed | verificationDone | updateActivate => simp
    | _ => exact absurd rfl hi

end Sys2Proof.Machine

/-! SUPPORT. Where a command completes: its block runs, the access is accepted, and the next state is that of its own effect. -/

namespace Sys2Proof.Machine

/-- A command of a block that runs is its effect. -/
theorem next_alive {s : State} {nv : Nv} {b : Bool} {x c : Chip} (h : b = true) :
    (.next (s.settled nv (if b = true then x else c)) : Host.Outcome State Fault Refusal) = .next (s.settled nv x) := by
  rw [if_pos h]

/-- A command of a block that runs, with what it leaves without power. -/
theorem next_alive_pair {s : State} {b : Bool} {x y : Nv × Chip} (h : b = true) :
    (.next (s.settled (if b = true then x else y).1 (if b = true then x else y).2) : Host.Outcome State Fault Refusal)
      = .next (s.settled x.1 x.2) := by
  rw [if_pos h]

/-- A register command that is accepted and carried out is the register's own operation. -/
theorem next_hostWrite {s : State} {iface : Iface} {off v : Nat} {nv : Nv} {x : Chip} (h : hostRuns iface s.chip off v = true)
    (hh : headerWrite s.time iface s.nv (off / 4096) (off % 4096) v (noticed s.time off (hostTaken s.time iface off s.chip)) = none)
    (hs : specialWrite s.time off v s.nv (noticed s.time off (hostTaken s.time iface off s.chip)) = some (nv, x)) :
    (.next (s.settled (hostWrite s.time iface off v s.nv s.chip).1 (hostWrite s.time iface off v s.nv s.chip).2)
      : Host.Outcome State Fault Refusal) = .next (s.settled nv x) := by
  rw [hostWrite_runs h hh hs]

/-- A read that reaches a register whose read is an operation of its own. -/
theorem next_hostRead {s : State} {iface : Iface} {off : Nat} {c : Chip} {w : Nat} (h : hostSees iface s.chip off = true)
    (h0 : off % 4096 ≠ 0) (h4 : off % 4096 ≠ 4) (h18 : off % 4096 ≠ 0x18) (hb : off ≠ 0x41000)
    (hs : specialRead s.time off s.nv (hostAccess s.chip) = some (c, w)) :
    (.next (s.settled s.nv (hostReadBack s.time iface off s.nv s.chip)) : Host.Outcome State Fault Refusal)
      = .next (s.settled s.nv (returns [w] c)) := by
  unfold hostReadBack
  rw [hostRead_special (c := hostAccess s.chip) h h0 h4 h18 hb hs]

/-- An accepted write of a header word of a page that is an operation of its own. -/
theorem next_headerCmd {s : State} {iface : Iface} {off v : Nat} {x : Chip} (h : hostMay iface s.chip off = true)
    (hf : wordFits off v = true)
    (hh : headerWrite s.time iface s.nv (off / 4096) (off % 4096) v (noticed s.time off (hostTaken s.time iface off s.chip)) = some x) :
    (.next (s.settled (hostWrite s.time iface off v s.nv s.chip).1 (hostWrite s.time iface off v s.nv s.chip).2)
      : Host.Outcome State Fault Refusal) = .next (s.settled s.nv x) := by
  rw [hostWrite_accepted h, writeWord_header hf hh]

/-! ### Frames of the shelf link -/

theorem taken_some {r : Chip × Option Nat} {g : Nat → Chip → Chip} {c : Chip} {i : Nat} (h : r = (c, some i)) : taken r g = g i c := by
  rw [h]; rfl

/-- A frame of the shelf link that is accepted. -/
theorem next_taken {s : State} {b : Bool} {c d : Chip} {r : Chip × Option Nat} {g : Nat → Chip → Chip} {i : Nat} (h : b = true)
    (hr : r = (c, some i)) :
    (.next (s.settled s.nv (if b = true then taken r g else d)) : Host.Outcome State Fault Refusal) = .next (s.settled s.nv (g i c)) := by
  rw [if_pos h, taken_some hr]

/-! ### Words of arrays of registers -/

/-- No write but one to the BAT page is noticed by BAT. -/
theorem noticed_ne (t : Time) {off : Nat} (c : Chip) (h : off / 4096 ≠ 0x12) : noticed t off c = c := if_neg h

theorem headerWrite_none (t : Time) (iface : Iface) (nv : Nv) (p v : Nat) (c : Chip) {o : Nat} (h : 0x40 ≤ o) :
    headerWrite t iface nv p o v c = none := by
  unfold headerWrite
  split
  case h_5 => rfl
  all_goals omega

/-- RNG_RGk_RD (R329). -/
theorem specialWrite_hostReadIndex (t : Time) (nv : Nv) (c : Chip) (k : Fin 32) (v : Nat) :
    specialWrite t (0x18118 + 0x20 * k.val) v nv c = some (nv, hostReadIndex t k.val v c) := by
  have hp : (0x18118 + 0x20 * k.val) / 4096 = 0x18 := by omega
  have ho : (0x18118 + 0x20 * k.val) % 4096 = 0x118 + 0x20 * k.val := by omega
  have hk : (0x118 + 0x20 * k.val - 0x100) / 32 = k.val := by omega
  simp only [specialWrite, hp, ho, hk]
  rw [if_pos (by omega)]

/-- WDG_TSk_SVC (R406). -/
theorem specialWrite_checkIn (t : Time) (nv : Nv) (c : Chip) (k : Fin 16) (v : Nat) :
    specialWrite t (0x7100 + 16 * k.val) v nv c = some (nv, checkIn t k.val v c) := by
  have hp : (0x7100 + 16 * k.val) / 4096 = 7 := by omega
  have ho : (0x7100 + 16 * k.val) % 4096 = 0x100 + 16 * k.val := by omega
  have hk : (0x100 + 16 * k.val - 0x100) / 16 = k.val := by omega
  simp only [specialWrite, hp, ho, hk]
  rw [if_neg (by omega), if_pos (by omega)]

/-- CPn_CMD with TEST (R239). -/
theorem specialWrite_testStart (t : Time) (nv : Nv) (c : Chip) (p : Fin 4) :
    specialWrite t (0x1310C + 0x40 * p.val) 1 nv c = some (nv, testStart t p.val c) := by
  have hp : (0x1310C + 0x40 * p.val) / 4096 = 0x13 := by omega
  have ho : (0x1310C + 0x40 * p.val) % 4096 = 0x10C + 0x40 * p.val := by omega
  have hk : (0x10C + 0x40 * p.val - 0x100) / 64 = p.val := by omega
  simp only [specialWrite, hp, ho, hk]
  rw [if_neg (by omega), if_pos (by omega), if_pos (by decide)]

/-- CPp_PCMD (R267). -/
theorem specialWrite_portCommand (t : Time) (nv : Nv) (c : Chip) (p : Fin 4) (v : Nat) :
    specialWrite t (0x1323C + 0x40 * p.val) v nv c = some (nv, portCommand t p.val v c) := by
  have hp : (0x1323C + 0x40 * p.val) / 4096 = 0x13 := by omega
  have ho : (0x1323C + 0x40 * p.val) % 4096 = 0x23C + 0x40 * p.val := by omega
  have hk : (0x23C + 0x40 * p.val - 0x200) / 64 = p.val := by omega
  simp only [specialWrite, hp, ho, hk]
  rw [if_neg (by omega), if_neg (by omega), if_pos (by omega)]

/-- A write of a word of an array of registers, none of the BAT page, as the register's own operation. -/
theorem next_arrayWrite {s : State} {iface : Iface} {off v : Nat} {x : Chip} (h : hostRuns iface s.chip off v = true)
    (ho : 0x40 ≤ off % 4096) (hp : off / 4096 ≠ 0x12)
    (hs : specialWrite s.time off v s.nv (hostTaken s.time iface off s.chip) = some (s.nv, x)) :
    (.next (s.settled (hostWrite s.time iface off v s.nv s.chip).1 (hostWrite s.time iface off v s.nv s.chip).2)
      : Host.Outcome State Fault Refusal) = .next (s.settled s.nv x) :=
  next_hostWrite h (headerWrite_none _ _ _ _ _ _ ho) (by rw [noticed_ne _ _ hp, hs])

/-! ### Words that carry several fields -/

/-- BUS_GNOP with POST (R139). -/
theorem noticeOp_post (t : Time) (c : Chip) {form id dur : Nat} (hf : form < 2) (hi : id < 2 ^ 4) (hd : dur < 2 ^ 24) :
    noticeOp t (2 ^ 30 * form + 2 ^ 28 * 1 + 2 ^ 24 * id + dur) c = postNotice t false id dur (noticeStart t (form == 1) c) c := by
  have h1 : bits (2 ^ 30 * form + 2 ^ 28 * 1 + 2 ^ 24 * id + dur) 29 28 = 1 := by simp only [bits]; omega
  have h2 : bits (2 ^ 30 * form + 2 ^ 28 * 1 + 2 ^ 24 * id + dur) 27 24 = id := by simp only [bits]; omega
  have h3 : bits (2 ^ 30 * form + 2 ^ 28 * 1 + 2 ^ 24 * id + dur) 23 0 = dur := by simp only [bits]; omega
  have h4 : bit (2 ^ 30 * form + 2 ^ 28 * 1 + 2 ^ 24 * id + dur) 30 = (form == 1) := by
    have hdiv : (2 ^ 30 * form + 2 ^ 28 * 1 + 2 ^ 24 * id + dur) / 2 ^ 30 % 2 = form := by omega
    rw [bit, hdiv, Bool.eq_iff_iff, decide_eq_true_iff, beq_iff_eq]
  simp only [noticeOp, h1, h2, h3, h4]

/-- BUS_GNOP with CANCEL (R140). -/
theorem noticeOp_cancel (t : Time) (c : Chip) {id : Nat} (hi : id < 2 ^ 4) :
    noticeOp t (2 ^ 28 * 2 + 2 ^ 24 * id) c = cancelNotice t id c := by
  have h1 : bits (2 ^ 28 * 2 + 2 ^ 24 * id) 29 28 = 2 := by simp only [bits]; omega
  have h2 : bits (2 ^ 28 * 2 + 2 ^ 24 * id) 27 24 = id := by simp only [bits]; omega
  simp only [noticeOp, h1, h2]

/-- A word of one low field. -/
theorem bits_eq_self {n w : Nat} (h : n < 2 ^ (w + 1)) : bits n w 0 = n := by
  rw [bits, Nat.pow_zero, Nat.div_one, Nat.sub_zero, Nat.mod_eq_of_lt h]

/-- CPT_TXOP with KIND INTENT, and with KIND GAP (R287). -/
theorem specialWrite_mailboxIntent (t : Time) (nv : Nv) (c : Chip) {ports : Nat} (h : ports < 2 ^ 4) :
    specialWrite t 0x13070 (1 + 16 * ports) nv c = some (nv, mailboxSend tyINTENT ports c) := by
  have h1 : bits (1 + 16 * ports) 1 0 = 1 := by simp only [bits]; omega
  have h2 : bits (1 + 16 * ports) 7 4 = ports := by simp only [bits]; omega
  show some (nv, match bits (1 + 16 * ports) 1 0 with
      | 1 => mailboxSend tyINTENT (bits (1 + 16 * ports) 7 4) c | 2 => mailboxSend tyGAP (bits (1 + 16 * ports) 7 4) c | _ => c) = _
  simp only [h1, h2]

@[inherit_doc specialWrite_mailboxIntent]
theorem specialWrite_mailboxGap (t : Time) (nv : Nv) (c : Chip) {ports : Nat} (h : ports < 2 ^ 4) :
    specialWrite t 0x13070 (2 + 16 * ports) nv c = some (nv, mailboxSend tyGAP ports c) := by
  have h1 : bits (2 + 16 * ports) 1 0 = 2 := by simp only [bits]; omega
  have h2 : bits (2 + 16 * ports) 7 4 = ports := by simp only [bits]; omega
  show some (nv, match bits (2 + 16 * ports) 1 0 with
      | 1 => mailboxSend tyINTENT (bits (2 + 16 * ports) 7 4) c | 2 => mailboxSend tyGAP (bits (2 + 16 * ports) 7 4) c | _ => c) = _
  simp only [h1, h2]

/-- UPD_OP with START and its KIND, and with ACTIVATE and its banks (R434). -/
theorem updOp_start (t : Time) (nv : Nv) (c : Chip) {kind : Nat} (h : kind < 4) :
    updOp t (1 + 2 ^ 8 * kind) nv c = (nv, updStart t nv kind c) := by
  have h1 : bits (1 + 2 ^ 8 * kind) 2 0 = 1 := by simp only [bits]; omega
  have h2 : bits (1 + 2 ^ 8 * kind) 9 8 = kind := by simp only [bits]; omega
  simp only [updOp, h1, h2]

@[inherit_doc updOp_start]
theorem updOp_activate (t : Time) (nv : Nv) (c : Chip) {tgt : Nat} (h : tgt < 2 ^ 4) :
    updOp t (4 + 2 ^ 8 * tgt) nv c = activate t tgt nv c := by
  have h1 : bits (4 + 2 ^ 8 * tgt) 2 0 = 4 := by simp only [bits]; omega
  have h2 : bits (4 + 2 ^ 8 * tgt) 11 8 = tgt := by simp only [bits]; omega
  simp only [updOp, h1, h2]

/-- CPp_PCMD with one of its bits: a role swap, a new negotiation, a soft reset, a hard reset, an unblock (R267, R279). -/
theorem portCommand_swap (t : Time) (p : Nat) (c : Chip) : portCommand t p 1 c = swapCommand p c := by simp [portCommand, bit]

@[inherit_doc portCommand_swap]
theorem portCommand_reneg (t : Time) (p : Nat) (c : Chip) : portCommand t p 2 c = renegCommand t p c := by simp [portCommand, bit]

@[inherit_doc portCommand_swap]
theorem portCommand_sreset (t : Time) (p : Nat) (c : Chip) : portCommand t p 4 c = sresetCommand t p c := by simp [portCommand, bit]

@[inherit_doc portCommand_swap]
theorem portCommand_hreset (t : Time) (p : Nat) (c : Chip) : portCommand t p 8 c = commandHr p c := by simp [portCommand, bit]

@[inherit_doc portCommand_swap]
theorem portCommand_unblock (t : Time) (p : Nat) (c : Chip) : portCommand t p 16 c = unblockCommand t p c := by
  simp [portCommand, bit]

/-- An accepted write of CPp_PCMD is the command that its word gives. -/
theorem next_portCommand {s : State} {p : Fin 4} {v : Nat} {x : Chip} (h : hostRuns .pcie s.chip (0x1323C + 0x40 * p.val) v = true)
    (hx : portCommand s.time p.val v (hostTaken s.time .pcie (0x1323C + 0x40 * p.val) s.chip) = x) :
    (.next (s.settled (hostWrite s.time .pcie (0x1323C + 0x40 * p.val) v s.nv s.chip).1
      (hostWrite s.time .pcie (0x1323C + 0x40 * p.val) v s.nv s.chip).2) : Host.Outcome State Fault Refusal)
      = .next (s.settled s.nv x) :=
  next_arrayWrite h (by omega) (by omega) (hx ▸ specialWrite_portCommand _ _ _ p v)

@[simp] theorem hostTaken_pwr (t : Time) (iface : Iface) (off : Nat) (c : Chip) : (hostTaken t iface off c).pwr = c.pwr := by
  obtain ⟨⟨r, x, w, l, h⟩, -⟩ := hostTaken_only t iface off c
  rw [h]

/-- PWR_RSTCMD with the supervisor-reset key, where no reset waits (R470). -/
theorem rstCmd_supReset (t : Time) {c : Chip} (h : c.pwr.rstReq = none) : rstCmd t 0xC5E70002 c = supReset t c := by
  simp [rstCmd, h]

/-! ### Frames of PAIR -/

/-- A lane that comes up is shown in PAR_STAT alone, and reported. -/
theorem laneUp_rdR (t : Time) (lane : Nat) (c : Chip) {r : Reg} (h : r.addr ∉ reportRegs [9]) (hp : r.addr ≠ R.PAR_STAT.addr) :
    (laneUp t lane c).rdR r = c.rdR r := by
  have hup : ∀ (f : Fld) (d : Chip), f.reg = R.PAR_STAT → (if d.flag f then d else irq t 9 3 (d.wrB f true)).rdR r = d.rdR r := by
    intro f d hf
    split
    · rfl
    · exact ((irq_reported t 3 _ (List.mem_singleton_self 9)).1 r h).trans (Chip.rdR_wrR_ne d _ (hf ▸ hp))
  unfold laneUp
  split <;> exact hup _ _ rfl

/-- FIRE_RECEIVED on a chip of a pair whose recorder takes the partner's triggers (R374). -/
theorem fireReceived_entry {s : State} {q j fault addr : Nat} (hp : pairOn s.chip = true) (hr : recOn s.chip = true)
    (ht : s.chip.flag F.REC_CTL_PAIRTRIG = true) :
    (if pairOn s.chip && recOn s.chip then
        if (acknowledge s.time 0x12 q s.chip).flag F.REC_CTL_PAIRTRIG then
          fireEntry s.time j fault addr (acknowledge s.time 0x12 q s.chip)
        else acknowledge s.time 0x12 q s.chip
      else s.chip) = fireEntry s.time j fault addr (acknowledge s.time 0x12 q s.chip) := by
  have hk : (acknowledge s.time 0x12 q s.chip).flag F.REC_CTL_PAIRTRIG = true := by
    have hreg : (acknowledge s.time 0x12 q s.chip).rdR F.REC_CTL_PAIRTRIG.reg = s.chip.rdR F.REC_CTL_PAIRTRIG.reg :=
      laneUp_rdR s.time _ s.chip (by decide) (by decide)
    rw [← ht, Chip.flag, Chip.rd, hreg]; rfl
  rw [hp, hr, if_pos (by decide), if_pos hk]

end Sys2Proof.Machine

/-! SUPPORT. The commands of every page, one after another: in a state in which its block runs, and its access is accepted, each is its own
effect. -/

namespace Sys2Proof.Machine


/-! ### Reads and header words -/

/-- What a read that reaches its page has passed. -/
theorem hostSees_passed {iface : Iface} {c : Chip} {off : Nat} (h : hostSees iface c off = true) :
    awake c = true ∧ isMsix iface off = false ∧ pageReach iface c (off / 4096) = true ∧ pageAlive c (off / 4096) = true
      ∧ (iface == .spi && !spiOn c) = false ∧ (iface == .spi && !pageReach .spi c (off / 4096)) = false ∧ (off == 0x41000) = false := by
  simp only [hostSees, Bool.and_eq_true, Bool.not_eq_true'] at h
  obtain ⟨⟨⟨⟨ha, hm⟩, hp⟩, hl⟩, hn⟩ := h
  have hle : off / 4096 ≤ 0x18 := pageReach_le hp
  refine ⟨ha, hm, hp, hl, ?_, ?_, beq_false_of_ne (by omega)⟩
  · cases iface with
    | pcie => rfl
    | spi => simpa using hn
  · cases iface with
    | pcie => rfl
    | spi => rw [hp]; rfl

section
variable {t : Time} {iface : Iface} {c : Chip} {off : Nat} {nv : Nv}

/-- The words 0x00, 0x04 and 0x18 of a page header (R462). -/
theorem hostRead_id (h : hostSees iface c off = true) (ho : off % 4096 = 0) : hostRead t iface off nv c = (c, pageId (off / 4096)) := by
  obtain ⟨ha, hm, hr, -, hon, hspi, hpba⟩ := hostSees_passed h
  simp only [hostRead, ha, hm, hr, hon, hspi, hpba, ho, Bool.not_true, Bool.and_false, Bool.or_self, Bool.false_eq_true, if_false]

@[inherit_doc hostRead_id]
theorem hostRead_cap (h : hostSees iface c off = true) (ho : off % 4096 = 4) : hostRead t iface off nv c = (c, pageCap (off / 4096)) := by
  obtain ⟨ha, hm, hr, -, hon, hspi, hpba⟩ := hostSees_passed h
  simp only [hostRead, ha, hm, hr, hon, hspi, hpba, ho, Bool.not_true, Bool.and_false, Bool.or_self, Bool.false_eq_true, if_false]

@[inherit_doc hostRead_id]
theorem hostRead_irqPend (h : hostSees iface c off = true) (ho : off % 4096 = 0x18) :
    hostRead t iface off nv c = (c, irqPend c (off / 4096)) := by
  obtain ⟨ha, hm, hr, -, hon, hspi, hpba⟩ := hostSees_passed h
  simp only [hostRead, ha, hm, hr, hon, hspi, hpba, ho, Bool.not_true, Bool.and_false, Bool.or_self, Bool.false_eq_true, if_false]

/-- A read of a register that is no operation of its own: its word, as the logic shows it. -/
theorem hostRead_word {r : MapRow} (h : hostSees iface c off = true) (h0 : off % 4096 ≠ 0) (h4 : off % 4096 ≠ 4)
    (h18 : off % 4096 ≠ 0x18) (hs : specialRead t off nv c = none) (hr : accessRow off = some r) :
    hostRead t iface off nv c = loadWord off r (liveRefresh t (off / 4096) c) := by
  obtain ⟨ha, hm, hp, hl, hon, hspi, hpba⟩ := hostSees_passed h
  simp only [hostRead, ha, hm, hp, hl, hon, hspi, hpba, hs, hr, ite_self, Bool.not_true, Bool.and_false, Bool.or_self, Bool.false_eq_true,
    if_false, if_true]

end

/-- A read whose answer goes back. -/
theorem next_read {s : State} {iface : Iface} {off : Nat} {x : Chip × Nat}
    (h : hostRead s.time iface off s.nv (hostAccess s.chip) = x) :
    (.next (s.settled s.nv (hostReadBack s.time iface off s.nv s.chip)) : Host.Outcome State Fault Refusal)
      = .next (s.settled s.nv (returns [x.2] x.1)) := by
  rw [← h]; rfl

/-- No field range is one of a header word. -/
theorem ranges_past_header : ∀ p : Fin 25, ∀ r ∈ ranges p, p.val * 4096 + 0x40 ≤ r.base := by decide +kernel

theorem pageWord_page (p : Fin 25) {o : Nat} (h : o < 4096) : pageWord p o / 4096 = p.val := by unfold pageWord; omega
theorem pageWord_offset (p : Fin 25) {o : Nat} (h : o < 4096) : pageWord p o % 4096 = o := by unfold pageWord; omega

/-- A header word with no bit outside those that the host writes fits. -/
theorem wordFits_header (p : Fin 25) {o v : Nat} {r : MapRow} (ho : o < 0x40) (hr : headerRow p.val o = some r)
    (hw : (r.rw ||| r.rws ||| r.w1c ||| r.wo) ≠ 0) (hv : v &&& (0xFFFFFFFF ^^^ (r.rw ||| r.rws ||| r.w1c ||| r.wo ||| r.rc ||| r.ro)) = 0) :
    wordFits (pageWord p o) v = true := by
  have hp := pageWord_page p (o := o) (by omega)
  have hm := pageWord_offset p (o := o) (by omega)
  have hrow : accessRow (pageWord p o) = some r := by rw [accessRow, hp, hm, if_pos ho, hr]
  have hrange : outOfRange (pageWord p o) v = false := by
    rw [outOfRange, hp, List.any_eq_false]
    intro g hg
    have hb := ranges_past_header p g hg
    have hat : ¬ (if g.stride = 0 then pageWord p o == g.base else decide (g.base ≤ pageWord p o)
        && (pageWord p o - g.base) % g.stride == 0 && decide ((pageWord p o - g.base) / g.stride < g.count)) = true := by
      unfold pageWord
      split
      · rw [beq_iff_eq]; omega
      · rw [decide_eq_false (by omega)]; simp
    rw [Bool.not_eq_true] at hat
    rw [hat, Bool.and_false, Bool.false_and]
    decide
  simp only [wordFits, hrow, hrange, bne_iff_ne.2 hw, hv, Bool.not_false, Bool.and_self, beq_self_eq_true]

/-- A write of PGCTL with the bits of its page (R34, R444). -/
theorem wordFits_ctl (p : Fin 25) {v : Nat} (h : v < 8) : wordFits (pageWord p 0x08) v = true := by
  have hrow : ∀ b : Bool, ∀ v < 8, v &&& (0xFFFFFFFF ^^^ ((if b then 4 else 5) ||| 0 ||| 0 ||| 2 ||| 0 ||| (if b then 1 else 0))) = 0 := by decide
  have hne : ∀ b : Bool, ((if b then 4 else 5) ||| 0 ||| 0 ||| 2) ≠ 0 := by decide
  exact wordFits_header p (by decide) rfl (hne (enFixed p.val)) (hrow (enFixed p.val) v h)

/-- Every word is a key (R444). -/
theorem wordFits_key (p : Fin 25) (v : Nat) : wordFits (pageWord p 0x20) v = true :=
  wordFits_header p (by decide) rfl (by decide) (Nat.and_zero v)

/-- A write of SEQ with no bit but those of a commit (R456). -/
theorem wordFits_commit (p : Fin 25) {v : Nat} (h : v % 256 &&& 0x8C = 0) : wordFits (pageWord p 0x28) v = true := by
  refine wordFits_header p (by decide) rfl (by decide) ?_
  show v &&& (0xFF &&& 0x8C) = 0
  rw [← Nat.and_assoc, Nat.and_two_pow_sub_one_eq_mod v 8, h]

/-- An accepted write finds the enable of the page as it was. -/
theorem blockOn_hostTaken (t : Time) (iface : Iface) (off p : Nat) (c : Chip) : (hostTaken t iface off c).blockOn p = c.blockOn p := by
  have hne : (F.PGCTL_EN p).reg.addr ≠ (R.PGSTAT (off / 4096)).addr := by
    simp only [F.PGCTL_EN, R.PGCTL, R.PGSTAT]; omega
  simp only [Chip.blockOn, Chip.flag, Chip.rd, (hostTaken_only t iface off c).2 _ hne]

theorem ctlWith_hostTaken (t : Time) (iface : Iface) (off : Nat) (p : Fin 25) (v : Nat) (c : Chip) :
    ctlWith p v (hostTaken t iface off c) = ctlWith p v c := by rw [ctlWith, ctlWith, blockOn_hostTaken]

theorem ctlWith_lt (p : Fin 25) {v : Nat} (c : Chip) (h : v < 7) : ctlWith p v c < 8 := by
  have := (c.blockOn p.val).toNat_le
  unfold ctlWith; omega

section
variable {s : State} {iface : Iface} {p : Fin 25} {v : Nat}

/-- An accepted write of PGCTL, of PGKEY and of SEQ. -/
theorem next_ctl (h : hostMay iface s.chip (pageWord p 0x08) = true) (hv : v < 8) :
    headerCmd iface p 0x08 v s
      = .next (s.settled s.nv (ctlWrite s.time s.nv p.val v (noticed s.time (pageWord p 0x08) (hostTaken s.time iface (pageWord p 0x08) s.chip)))) :=
  next_headerCmd h (wordFits_ctl p hv) (by rw [pageWord_page p (by decide), pageWord_offset p (by decide)]; rfl)

@[inherit_doc next_ctl]
theorem next_key (h : hostMay iface s.chip (pageWord p 0x20) = true) :
    headerCmd iface p 0x20 v s
      = .next (s.settled s.nv (keyWrite s.time iface p.val v (noticed s.time (pageWord p 0x20) (hostTaken s.time iface (pageWord p 0x20) s.chip)))) :=
  next_headerCmd h (wordFits_key p v) (by rw [pageWord_page p (by decide), pageWord_offset p (by decide)]; rfl)

@[inherit_doc next_ctl]
theorem next_commit (h : hostMay iface s.chip (pageWord p 0x28) = true) (hv : v % 256 &&& 0x8C = 0) (hm : v % 4 ≠ 0) :
    headerCmd iface p 0x28 v s
      = .next (s.settled s.nv (endUnlock iface p.val (commitWrite s.time s.nv p.val v
          (noticed s.time (pageWord p 0x28) (hostTaken s.time iface (pageWord p 0x28) s.chip))))) := by
  refine next_headerCmd h (wordFits_commit p hv) ?_
  rw [pageWord_page p (by decide), pageWord_offset p (by decide)]
  have hmode : bits v 1 0 = v % 4 := by simp only [bits]; omega
  exact congrArg some (if_neg (hmode ▸ hm))

end

/-- RXTAIL and TXTAIL of a MAC (R446). -/
theorem specialWrite_macTail (t : Time) (nv : Nv) (c : Chip) (n : Fin 2) (rx : Bool) (v : Nat) :
    specialWrite t ((1 + n.val) * 4096 + (if rx then 0x68 else 0x64)) v nv c = some (nv, macTail n.val rx v c) := by
  have hp : ((1 + n.val) * 4096 + (if rx then 0x68 else 0x64)) / 4096 = 1 + n.val := by cases rx <;> simp <;> omega
  have ho : ((1 + n.val) * 4096 + (if rx then 0x68 else 0x64)) % 4096 = if rx then 0x68 else 0x64 := by cases rx <;> simp
  have hn : 1 + n.val = 1 ∨ 1 + n.val = 2 := by omega
  have hv : n.val = 1 + n.val - 1 := by omega
  rw [specialWrite, hp, ho, hv]
  rcases hn with hn | hn <;> simp only [hn] <;> cases rx <;> simp

/-- HIF_EOI (R440). -/
theorem specialWrite_endOfInterrupt (t : Time) (nv : Nv) (c : Chip) (v : Nat) :
    specialWrite t 0x84 v nv c = some (nv, endOfInterrupt v c) := rfl

/-- HIF_PTPOP (R448). -/
theorem specialWrite_ptp (t : Time) (nv : Nv) (c : Chip) (v : Nat) :
    specialWrite t 0xB8 v nv c = some (nv, ptpOp t (bits v 1 0) c) := rfl

theorem spiWrite_taken {t : Time} {bytes : List Byte} {nv : Nv} {c : Chip} {x : Nat × List Nat} (hon : spiOn c = true)
    (hx : spiWriteParse bytes = some x) (hw : c.flag F.HIF_CTL_SPIWR = true) :
    spiWrite t bytes nv c = spiWriteWords t x.1 x.2 nv (modHif (fun h => { h with spiDone := true, spiBad := false }) (c.count F.HIF_SPICNT_OK)) := by
  simp only [spiWrite, hon, hx, hw, Bool.not_true, Bool.false_eq_true, if_false, if_true]


theorem spiRead_taken {t : Time} {addr n : Nat} {nv : Nv} {c : Chip} (hon : spiOn c = true) :
    spiRead t addr n nv c = returns (spiAnswer addr n (spiReadWords t nv addr n (spiReadCount (hostAccess c))).2)
      (spiReadWords t nv addr n (spiReadCount (hostAccess c))).1 := by
  simp only [spiRead, hon, Bool.not_true, Bool.false_eq_true, if_false]

/-- A write of a whole, aligned register is a host write. -/
theorem exec_registerWrite_whole (iface : Iface) {off : BitVec 24} (v : Word) (s : State) (h : off.toNat % 4 = 0) :
    exec (.registerWrite iface off v true) s
      = .next (s.settled (hostWrite s.time iface off.toNat v.toNat s.nv s.chip).1 (hostWrite s.time iface off.toNat v.toNat s.nv s.chip).2) :=
  congrArg (fun x : Nv × Chip => (.next (s.settled x.1 x.2) : Host.Outcome State Fault Refusal)) (if_pos (by rw [h]; decide))

/-- Settles O44, a command at a time: each runs where its page does, or is an accepted write of its own register. -/
theorem pageAndHostCommandsComplete : Obligations.PageAndHostCommandsComplete := by
  refine ⟨fun iface off v s haligned => ?_, fun iface off s => ?_,
    fun _ _ _ _ h => next_key h,
    fun _ _ _ h => next_alive h,
    fun _ p s h => (next_ctl h (ctlWith_lt p s.chip (by decide))).trans (by rw [ctlWith_hostTaken]),
    fun _ p s h => (next_ctl h (ctlWith_lt p s.chip (by decide))).trans (by rw [ctlWith_hostTaken]),
    fun _ _ _ h => next_ctl h (by decide),
    fun _ _ _ h => next_ctl h (by decide),
    fun iface p s h hearly => ?_,
    fun _ _ _ hp hearly => if_pos ⟨hp, hearly⟩,
    fun _ _ k _ h => next_commit h ?_ (by omega),
    fun _ _ angle cyc _ h => next_commit h ?_ (by omega),
    fun _ _ h => next_alive h,
    fun _ _ h => next_alive h,
    fun _ _ _ h => next_arrayWrite h (by decide) (by decide) (specialWrite_endOfInterrupt _ _ _ _),
    fun _ _ h => next_alive h,
    fun _ _ h => next_alive h,
    fun _ _ _ _ _ h => next_alive h,
    fun n rx v s h => ?_,
    fun _ _ _ _ h => next_alive h,
    fun _ _ h => next_arrayWrite h (by decide) (by decide) (specialWrite_ptp _ _ _ _),
    fun _ _ h => next_arrayWrite h (by decide) (by decide) (specialWrite_ptp _ _ _ _),
    fun _ _ _ hon hx hw => ?_,
    fun _ _ _ hon => ?_,
    fun _ h => next_alive h,
    fun _ _ _ _ _ _ h => next_alive h,
    fun _ _ _ _ h => next_alive h⟩
  · have hexec := exec_registerWrite_whole iface v s haligned
    refine ⟨fun r hm hf hr hh hs => ?_, fun x hm hf hh => ?_, fun x h hh hs => ?_⟩
    · rw [hexec, hostWrite_accepted hm, writeWord_store hf hr hh hs]
    · exact hexec.trans (next_headerCmd hm hf hh)
    · exact hexec.trans (next_hostWrite h hh hs)
  · intro o c h
    have hexec : exec (.rcRegisterRead iface off) s = .next (s.settled s.nv (hostReadBack s.time iface o s.nv s.chip)) := rfl
    have hsees : hostSees iface (hostAccess s.chip) o = true := h
    obtain ⟨-, -, -, -, -, -, hpba⟩ := hostSees_passed hsees
    rw [hexec]
    refine ⟨fun ho => (next_read (hostRead_id hsees ho) :), fun ho => (next_read (hostRead_cap hsees ho) :),
      fun ho => (next_read (hostRead_irqPend hsees ho) :), fun r h0 h4 h18 hs hr => (next_read (hostRead_word hsees h0 h4 h18 hs hr) :),
      fun x h0 h4 h18 hs => (next_read (hostRead_special hsees h0 h4 h18 (ne_of_beq_false hpba) hs) :)⟩
  · exact (if_neg fun hp => hp.2 (hearly hp.1)).trans (next_commit h (by decide) (by decide))
  · have hk : ∀ k : Fin 8, (2 + 16 * k.val) % 256 &&& 0x8C = 0 := by decide
    exact hk k
  · have hlow : (3 + 256 * cyc.toNat + 65536 * angle.toNat) % 256 = 3 := by omega
    rw [hlow]; decide
  · refine next_hostWrite h (headerWrite_none _ _ _ _ _ _ ?_) ?_
    · cases rx <;> simp
    · rw [noticed_ne _ _ (by cases rx <;> simp <;> omega), specialWrite_macTail]
  · exact congrArg (fun x : Nv × Chip => (.next (State.settled _ x.1 x.2) : Host.Outcome State Fault Refusal)) (spiWrite_taken hon hx hw)
  · exact congrArg (fun c => (.next (State.settled _ _ c) : Host.Outcome State Fault Refusal)) (spiRead_taken hon)

/-- Settles O45, a command at a time: each of them runs where its page does, and a register command is its register's
own operation. -/
theorem angleCommandsComplete : Obligations.AngleCommandsComplete := by
  refine ⟨fun _ _ h => next_alive_pair h,
    fun _ _ h => next_alive_pair h,
    fun _ _ h => next_alive_pair h,
    fun _ _ h => next_alive_pair h,
    fun _ _ h => next_alive_pair h,
    fun _ _ h => next_alive_pair h,
    fun _ _ h => next_alive_pair h,
    fun _ _ h => next_alive_pair h,
    fun _ _ h => next_alive_pair h,
    fun _ _ h => next_alive_pair h,
    fun _ h => next_alive h,
    fun _ _ h => next_hostWrite h rfl rfl,
    fun _ _ h => next_hostWrite h rfl rfl,
    fun _ _ h => next_hostWrite h rfl rfl,
    fun _ h => next_alive_pair h,
    fun _ h => next_alive_pair h,
    fun _ h => next_alive_pair h,
    fun _ h => next_alive_pair h,
    fun _ _ h => next_alive_pair h,
    fun _ h => next_alive_pair h,
    fun _ h => next_alive h,
    fun _ h => next_alive_pair h,
    fun _ h => next_alive_pair h,
    fun _ h => next_alive_pair h,
    fun _ h => next_alive h,
    fun _ h => next_alive h,
    fun _ h => next_hostRead h (by decide) (by decide) (by decide) (by decide) rfl,
    fun _ _ h => next_hostWrite h rfl rfl,
    fun _ _ h => next_hostWrite h rfl rfl⟩

/-- Settles O46, a command at a time: each of them runs where its page does. -/
theorem legAndSensingCommandsComplete : Obligations.LegAndSensingCommandsComplete := by
  refine ⟨fun _ _ _ h => next_alive h,
    fun _ _ _ h => next_alive h,
    fun _ _ h => next_alive h,
    fun _ _ h => next_hostWrite h rfl rfl,
    fun _ _ h => next_alive h,
    fun _ _ _ h => next_alive h,
    fun fast n _ _ h hf => (next_alive h).trans (by
      have hn : (fast && decide (16 ≤ n.val)) = false := by cases fast <;> simp_all
      dsimp only; rw [if_neg (by rw [hn]; decide)]),
    fun _ _ h => next_alive h,
    fun _ _ h => next_alive h,
    fun _ _ h => next_hostWrite h rfl rfl,
    fun _ _ h => next_alive h,
    fun _ _ h => next_alive h,
    fun _ _ h => next_alive h,
    fun _ _ h => next_alive h,
    fun _ _ h => next_alive h,
    fun _ _ h => next_alive h,
    fun _ h => next_alive h⟩

/-- Settles O47, a command at a time: each runs where its page does, or is an accepted write of its own register. -/
theorem engineCommandsComplete : Obligations.EngineCommandsComplete := by
  refine ⟨fun _ _ h => next_hostWrite h rfl rfl,
    fun _ _ h => next_alive h,
    fun _ h => next_alive_pair h,
    fun _ _ h => next_hostWrite h rfl rfl,
    fun _ _ h => next_hostWrite h rfl rfl,
    fun _ h => next_hostRead h (by decide) (by decide) (by decide) (by decide) rfl⟩

/-- Settles O48, a command at a time: each runs where its page does, or is an accepted write of its own register. -/
theorem busCommandsComplete : Obligations.BusCommandsComplete := by
  refine ⟨fun _ h => next_alive h,
    fun _ h => next_alive h,
    fun _ h => next_alive h,
    fun _ _ h => next_alive h,
    fun _ h => next_alive h,
    fun _ _ h => next_alive h,
    fun _ h => next_alive h,
    fun _ h => next_alive h,
    fun _ h => next_alive h,
    fun _ h => next_alive h,
    fun _ h => next_alive h,
    fun _ h => next_alive h,
    fun _ h => next_alive h,
    fun form id dur s h =>
      next_hostWrite h rfl (congrArg (fun x => some (s.nv, x)) (noticeOp_post _ _ form.isLt id.isLt dur.isLt)),
    fun id s h => next_hostWrite h rfl (congrArg (fun x => some (s.nv, x)) (noticeOp_cancel _ _ id.isLt)),
    fun _ h => next_alive h⟩

/-- Settles O49, a command at a time: an object of CAP is taken where its frame is accepted. -/
theorem cappingCommandsComplete : Obligations.CappingCommandsComplete := by
  refine ⟨fun _ h => next_alive h,
    fun f b c g i s h hb hg hr => by subst hb hg; refine (next_alive h).trans ?_; dsimp only; rw [hr],
    fun f b c g i s h hb hg hr => by subst hb hg; refine (next_alive h).trans ?_; dsimp only; rw [hr],
    fun _ _ h => next_alive_pair h,
    fun _ _ h => next_alive h,
    fun _ h => next_alive h,
    fun _ h => next_alive h,
    fun _ _ h => next_hostWrite h rfl rfl,
    fun f b c g i s h hb hg hr => by subst hb hg; refine (next_alive h).trans ?_; dsimp only; rw [hr],
    fun _ h => next_alive h,
    fun _ h => next_alive h,
    fun _ _ h => next_hostWrite h rfl rfl,
    fun _ h => next_alive h,
    fun _ _ h => next_alive h,
    fun _ h => next_hostWrite h rfl rfl,
    fun _ h => next_hostWrite h rfl rfl,
    fun _ h => next_hostWrite h rfl rfl⟩

/-- Settles O50, a command at a time: each runs where its page does, or is an accepted write of its own register. -/
theorem fuseCommandsComplete : Obligations.FuseCommandsComplete := by
  refine ⟨fun _ _ h => next_alive h,
    fun _ _ _ h => next_alive h,
    fun _ _ h => next_hostWrite h rfl rfl,
    fun _ _ h => next_hostWrite h rfl rfl,
    fun _ _ h => next_alive h,
    fun _ _ h => next_alive h,
    fun _ _ h => next_alive h,
    fun _ _ h => next_alive h,
    fun _ _ h => next_alive h,
    fun _ _ h => next_alive h,
    fun _ _ h => next_alive h,
    fun _ _ h => next_alive h,
    fun _ _ h => next_alive h,
    fun _ _ h => next_alive h,
    fun _ _ h => next_alive h,
    fun _ _ h => next_alive h,
    fun _ _ _ h => next_alive h⟩

/-- A state in the tick in which the host has written BAT_RIDX: word 3 of the record buffer, moving on by itself. -/
def ridxWritten : State :=
  { State.reset with chip :=
    { ((State.reset.chip.wr F.BAT_RIDX_WORD 3).wrB F.BAT_RIDX_AUTOINC true) with
        same := { tick := State.reset.time.tick, wrote := [(R.BAT_RIDX.addr, (0x300FF, 0x20003))] } } }

/-- The word index of the record buffer that a command leaves. -/
def ridxLeft : Host.Outcome State Fault Refusal → Nat
  | .next s => s.chip.rd F.BAT_RIDX_WORD
  | .fault _ => 0
  | .refused _ => 0

/-- Refutes O51, by its last clause: the host reads the record buffer in the tick in which it has written BAT_RIDX. The read is
a host access, so the index it moves on stays at 4; the stated chip leaves out that it is one, and the word that the host wrote
(index 3) is restored over it (R8). -/
theorem not_batteryCommandsComplete : ¬ Obligations.BatteryCommandsComplete := by
  unfold Obligations.BatteryCommandsComplete
  rintro ⟨-, -, -, -, -, -, -, -, -, -, -, -, -, -, -, -, hread⟩
  have hs : exec (.recordBufferAccess none) ridxWritten = _ := hread ridxWritten (by decide +kernel)
  exact absurd (congrArg ridxLeft hs) (by decide +kernel)

/-- Settles O52, a command at a time: each runs where its page does, or is an accepted write of its own register. -/
theorem portMessageCommandsComplete : Obligations.PortMessageCommandsComplete := by
  refine ⟨fun _ _ h => next_alive h,
    fun _ _ h => next_alive h,
    fun _ _ h => next_alive h,
    fun _ _ h => next_alive h,
    fun _ _ h => next_alive h,
    fun _ _ h => next_alive h,
    fun _ _ h => next_alive h,
    fun _ _ h => next_alive h,
    fun _ _ _ h => next_alive h,
    fun _ _ _ h => next_alive h,
    fun _ _ _ _ _ h => next_alive h,
    fun _ _ _ _ _ _ h => next_alive h,
    fun _ _ _ _ _ _ h => next_alive h,
    fun _ _ _ h => next_alive h,
    fun _ _ h => next_alive h⟩

/-- Settles O53, a command at a time: the commands of CPp_PCMD and CPT_TXOP are told apart by the bits of their word. -/
theorem portCommandsComplete : Obligations.PortCommandsComplete := by
  refine ⟨fun _ _ _ _ h => next_alive h,
    fun _ _ h => next_alive h,
    fun _ _ _ h => next_alive h,
    fun _ _ _ h => next_alive h,
    fun _ _ h => next_alive h,
    fun _ _ h => next_alive h,
    fun _ _ h => next_alive h,
    fun p s h => next_arrayWrite h (by omega) (by omega) (specialWrite_testStart _ _ _ p),
    fun _ _ _ h => next_alive h,
    fun _ _ _ h => next_alive h,
    fun _ _ h => next_alive h,
    fun _ _ h => next_alive h,
    fun _ _ h => next_alive h,
    fun _ _ _ _ _ h => next_alive h,
    fun _ _ h => next_alive h,
    fun _ _ _ h => next_alive h,
    fun _ _ h => next_alive h,
    fun _ _ h => next_alive h,
    fun _ _ h => next_alive h,
    fun _ _ h => next_alive h,
    fun _ _ h => next_alive h,
    fun _ _ h => next_alive h,
    fun _ _ h => next_alive h,
    fun _ _ h => next_alive h,
    fun _ _ h => next_alive h,
    fun _ _ h => next_alive h,
    fun _ _ h => next_alive h,
    fun _ _ h => next_alive h,
    fun _ _ h => next_alive h,
    fun _ _ h => next_alive h,
    fun _ _ h => next_alive h,
    fun _ _ h => next_alive h,
    fun _ _ h => next_alive h,
    fun _ _ h => next_portCommand h (portCommand_swap _ _ _),
    fun _ _ h => next_portCommand h (portCommand_reneg _ _ _),
    fun _ _ h => next_portCommand h (portCommand_sreset _ _ _),
    fun _ _ h => next_portCommand h (portCommand_hreset _ _ _),
    fun _ _ h => next_portCommand h (portCommand_unblock _ _ _),
    fun _ _ h => next_alive h,
    fun ports _ h => next_hostWrite h rfl (specialWrite_mailboxIntent _ _ _ ports.isLt),
    fun ports _ h => next_hostWrite h rfl (specialWrite_mailboxGap _ _ _ ports.isLt)⟩

/-- Settles O54, a command at a time: a frame is taken where its receipt accepts it. -/
theorem shelfLinkReceiptsComplete : Obligations.ShelfLinkReceiptsComplete := by
  refine ⟨fun _ _ h => next_alive h,
    fun f b c g i s h hb hg hr => by subst hb hg; exact next_taken h hr,
    fun f b c g i s h hb hg hr => by subst hb hg; exact next_taken h hr,
    fun _ _ h => next_alive h,
    fun f b c g i s h hb hg hr => by subst hb hg; exact next_taken h hr,
    fun f b c g i s h hb hg hr => by subst hb hg; exact next_taken h hr,
    fun f b c g i s h hb hg hr => by subst hb hg; exact next_taken h hr,
    fun _ _ h => next_alive h,
    fun _ _ h => next_alive h,
    fun _ _ _ h => next_alive h,
    fun _ _ h => next_alive h,
    fun _ _ h => next_alive h,
    fun _ _ h => next_alive h⟩

/-- Settles O55, a command at a time: each runs where its page does, or is an accepted write of its own register. -/
theorem shelfLinkAndPartnerCommandsComplete : Obligations.ShelfLinkAndPartnerCommandsComplete := by
  refine ⟨fun _ _ h => next_alive h,
    fun _ _ h => next_alive h,
    fun _ _ h => next_alive h,
    fun _ _ h => next_alive h,
    fun _ _ h => next_alive h,
    fun _ _ h => next_alive h,
    fun _ _ h => next_alive h,
    fun _ _ h => next_alive h,
    fun _ _ h => next_alive h,
    fun _ _ h => next_alive h,
    fun _ _ h => next_alive h,
    fun _ _ h => next_alive h,
    fun _ _ _ h => next_alive h,
    fun _ _ h => next_alive h,
    fun _ _ _ _ _ h => next_hostWrite h rfl rfl,
    fun _ _ h => next_alive h,
    fun _ _ h => next_hostWrite h rfl rfl,
    fun _ h => next_hostRead h (by decide) (by decide) (by decide) (by decide) rfl⟩

/-- Settles O56, a command at a time: each runs where its page does, or is an accepted write of its own register. -/
theorem recorderCommandsComplete : Obligations.RecorderCommandsComplete := by
  refine ⟨fun _ _ h => next_alive h,
    fun _ h => next_alive h,
    fun _ _ h => next_alive h,
    fun _ h => next_hostRead h (by decide) (by decide) (by decide) (by decide) rfl,
    fun k v s h => next_arrayWrite h (by omega) (by omega) (specialWrite_hostReadIndex _ _ _ k _),
    fun _ h => next_alive h,
    fun _ _ h => next_alive h,
    fun _ h => next_alive h,
    fun len s h => next_hostWrite h rfl (congrArg (fun n => some (s.nv, noteWrite s.time n _)) (bits_eq_self len.isLt)),
    fun _ _ h => next_hostWrite h rfl rfl,
    fun _ _ h => next_alive h,
    fun _ h => next_alive h,
    fun _ h => next_alive_pair h,
    fun _ h => next_alive_pair h,
    fun _ h => next_alive h,
    fun _ h => next_alive h,
    fun _ h => next_alive_pair h,
    fun _ h => next_hostWrite h rfl rfl,
    fun _ h => next_hostRead h (by decide) (by decide) (by decide) (by decide) rfl⟩

/-- Settles O57, a command at a time: each runs where its page does, or is an accepted write of its own register. -/
theorem pairCommandsComplete : Obligations.PairCommandsComplete := by
  refine ⟨fun _ _ h => next_alive h,
    fun _ _ h => next_alive h,
    fun _ h => next_alive h,
    fun _ h => next_alive h,
    fun _ h => next_alive h,
    fun _ _ h => next_alive h,
    fun _ _ _ h => next_alive h,
    fun _ _ h => next_alive h,
    fun _ _ _ _ h => next_alive h,
    fun _ _ _ h => next_alive_pair h,
    fun _ _ _ _ _ h hp hr ht => (next_alive h).trans (congrArg _ (congrArg _ (fireReceived_entry hp hr ht))),
    fun _ _ _ h => next_alive_pair h,
    fun _ _ h => next_alive h,
    fun _ _ h => next_alive h,
    fun _ h => next_alive h,
    fun _ h => next_alive h,
    fun _ h => next_alive h,
    fun _ h => next_alive h,
    fun _ _ h => next_alive h,
    fun _ h => next_alive h,
    fun _ h => next_alive h,
    fun _ _ _ h => next_alive h,
    fun _ _ _ h => next_alive h,
    fun _ h => next_alive h,
    fun _ _ h => next_hostWrite h rfl rfl,
    fun _ _ h => next_hostWrite h rfl rfl,
    fun _ h => next_alive h,
    fun _ h => next_alive h,
    fun _ h => next_alive h,
    fun _ _ h => next_alive h,
    fun _ h => next_alive h,
    fun _ h => next_alive h⟩

/-- Settles O58, a command at a time: each runs where its page does, or is an accepted write of its own register. -/
theorem faultAndWatchdogCommandsComplete : Obligations.FaultAndWatchdogCommandsComplete := by
  refine ⟨fun source kind addr s h hs hk => (next_alive h).trans (by dsimp only; rw [if_neg (not_or.2 ⟨hs, hk⟩)]),
    fun _ h => next_alive h,
    fun _ _ _ h => next_hostWrite h rfl rfl,
    fun _ _ h => next_alive h,
    fun _ _ h => next_alive h,
    fun _ h => next_alive h,
    fun _ h => next_alive h,
    fun _ _ _ h => next_hostWrite h rfl rfl,
    fun _ _ h => next_hostWrite h rfl rfl,
    fun _ _ _ _ h => next_hostWrite h rfl rfl,
    fun _ _ h => next_hostRead h (by decide) (by decide) (by decide) (by decide) rfl,
    fun _ _ => rfl,
    fun _ _ => rfl,
    fun _ k v s h => next_arrayWrite h (by omega) (by omega) (specialWrite_checkIn _ _ _ k _),
    fun _ h => next_alive h,
    fun _ _ _ _ h => next_hostWrite h rfl rfl,
    fun _ => rfl,
    fun _ => rfl,
    fun _ => rfl⟩

/-- Settles O59, a command at a time: each runs where its page does, or is an accepted write of its own register. -/
theorem updateCommandsComplete : Obligations.UpdateCommandsComplete := by
  refine ⟨fun _ kind _ h => next_hostWrite h rfl (congrArg some (updOp_start _ _ _ kind.isLt)),
    fun _ _ h => next_alive_pair h,
    fun _ _ h => next_hostWrite h rfl rfl,
    fun _ _ h => next_alive_pair h,
    fun _ _ h => next_hostWrite h rfl rfl,
    fun _ h => next_alive_pair h,
    fun _ _ h => next_hostWrite h rfl rfl,
    fun _ tgt _ h => next_hostWrite h rfl (congrArg some (updOp_activate _ _ _ tgt.isLt)),
    fun _ _ h => next_hostWrite h rfl rfl,
    fun _ h => next_alive h,
    fun _ _ _ h => next_hostWrite h rfl rfl,
    fun _ _ h => next_alive h,
    fun _ h => next_alive h,
    fun _ h => next_alive h⟩

/-- Settles O60, a command at a time: each runs where its page does, or is an accepted write of its own register. -/
theorem supplyAndResetCommandsComplete : Obligations.SupplyAndResetCommandsComplete := by
  refine ⟨fun _ _ => rfl,
    fun _ _ => rfl,
    fun _ => rfl,
    fun _ => rfl,
    fun _ _ h => next_hostWrite h rfl rfl,
    fun _ s h hr => next_hostWrite h rfl (congrArg (fun x => some (s.nv, x)) (rstCmd_supReset _
      (by rw [noticed_ne _ _ (by decide), hostTaken_pwr, hr]))),
    fun _ => rfl,
    fun _ => rfl,
    fun _ _ _ => rfl,
    fun _ _ _ _ ha hp => rfl,
    fun _ _ => rfl,
    fun _ _ h => next_hostWrite h rfl rfl,
    fun _ => rfl,
    fun _ => rfl,
    fun _ _ => rfl,
    fun _ _ => rfl,
    fun _ h => next_alive h,
    fun _ h => next_alive h,
    fun _ _ _ h => next_alive h,
    fun _ _ h => next_alive h,
    fun _ _ h => next_alive h,
    fun _ _ _ _ _ _ h => next_alive h,
    fun _ h => next_alive h,
    fun _ h => next_alive h,
    fun _ h => next_alive h⟩

end Sys2Proof.Machine

/-! SUPPORT. Words as bytes and bytes as symbols, and back: SPI write frames (R449) and packets on CL (R245–R252). -/

namespace Sys2Proof.Machine

/-! ### Words as bytes -/

@[simp] theorem length_bytesLE (n v : Nat) : (bytesLE n v).length = n := by
  induction n generalizing v with
  | zero => rfl
  | succ n ih => simp [bytesLE, ih]

theorem leNat_bytesLE (n v : Nat) : leNat (bytesLE n v) = v % 256 ^ n := by
  induction n generalizing v with
  | zero => simp [bytesLE, leNat, Nat.mod_one]
  | succ n ih =>
    have hpow : 256 ^ (n + 1) = 256 * 256 ^ n := Nat.pow_succ'
    rw [bytesLE, leNat, ih, BitVec.toNat_ofNat, hpow, Nat.mod_mul]

/-- Items of `k` bytes each, one after another, are found again at the multiples of `k`. -/
theorem chunks_flatMap {α β : Type} {k : Nat} (f : α → List Byte) (g : List Byte → β) (hf : ∀ a, (f a).length = k) (l : List α)
    (tail : List Byte) :
    (List.range l.length).map (fun i => g (((l.flatMap f ++ tail).drop (k * i)).take k)) = l.map fun a => g (f a) := by
  induction l with
  | nil => rfl
  | cons a l ih =>
    have hstep : ∀ i, (((a :: l).flatMap f ++ tail).drop (k * (i + 1))).take k = ((l.flatMap f ++ tail).drop (k * i)).take k := by
      intro i
      rw [List.flatMap_cons, List.append_assoc, Nat.mul_succ, Nat.add_comm, ← List.drop_drop, ← hf a, List.drop_left]
    rw [List.length_cons, List.range_succ_eq_map, List.map_cons, List.map_map, List.map_cons, ← ih]
    congr 1
    · rw [Nat.mul_zero, List.drop_zero, List.flatMap_cons, List.append_assoc, ← hf a, List.take_left]
    · exact List.map_congr_left fun i _ => congrArg g (hstep i)

theorem length_flatMap_const {α β : Type} {k : Nat} {f : α → List β} (hf : ∀ a, (f a).length = k) (l : List α) :
    (l.flatMap f).length = k * l.length := by
  rw [List.length_flatMap, List.map_congr_left (g := fun _ => k) fun a _ => hf a, List.map_const', List.sum_replicate_nat, Nat.mul_comm]

/-! ### SPI write frames (R449) -/

/-- A word as a write frame carries it. -/
def spiBytes (w : Word) : List Byte := [w.extractLsb' 0 8, w.extractLsb' 8 8, w.extractLsb' 16 8, w.extractLsb' 24 8]

theorem length_spiBytes (w : Word) : (spiBytes w).length = 4 := rfl

theorem leNat_spiBytes (w : Word) : leNat (spiBytes w) = w.toNat := by
  simp only [spiBytes, leNat, BitVec.extractLsb'_toNat, Nat.shiftRight_eq_div_pow]
  omega

/-- The three bytes of an address, most significant first. -/
theorem addrBytes_toNat (a : BitVec 24) :
    (a.extractLsb' 16 8).toNat * 65536 + (a.extractLsb' 8 8).toNat * 256 + (a.extractLsb' 0 8).toNat = a.toNat := by
  simp only [BitVec.extractLsb'_toNat, Nat.shiftRight_eq_div_pow]
  omega

/-- A write frame without its CRC. -/
def spiBody (addr : BitVec 24) (ws : List Word) : List Byte :=
  [0x02, addr.extractLsb' 16 8, addr.extractLsb' 8 8, addr.extractLsb' 0 8, BitVec.ofNat 8 ws.length] ++ ws.flatMap spiBytes

/-- A write frame is read as its address and words exactly when its last byte is the CRC of the rest. -/
theorem spiWriteParse_body {addr : BitVec 24} {ws : List Word} (ha : addr.toNat % 4 = 0) (h1 : 1 ≤ ws.length) (h64 : ws.length ≤ 64)
    (x : Byte) :
    spiWriteParse (spiBody addr ws ++ [x]) = if crc8 (spiBody addr ws) = x then some (addr.toNat, ws.map BitVec.toNat) else none := by
  have hlen : (ws.flatMap spiBytes).length = 4 * ws.length := length_flatMap_const length_spiBytes ws
  have hcnt : (BitVec.ofNat 8 ws.length).toNat = ws.length := by rw [BitVec.toNat_ofNat]; omega
  have htake : (spiBody addr ws ++ [x]).take ((spiBody addr ws ++ [x]).length - 1) = spiBody addr ws := by
    rw [List.length_append, List.length_singleton, Nat.add_sub_cancel, List.take_left]
  have hlast : (ws.flatMap spiBytes ++ [x]).getD (4 * ws.length) 0 = x := by
    rw [List.getD_eq_getElem?_getD, List.getElem?_append_right (Nat.le_of_eq hlen), hlen, Nat.sub_self]; rfl
  have hwords : (List.range ws.length).map (fun i => leNat (((ws.flatMap spiBytes ++ [x]).drop (4 * i)).take 4)) = ws.map BitVec.toNat :=
    (chunks_flatMap spiBytes leNat (fun _ => rfl) ws [x]).trans (List.map_congr_left fun w _ => leNat_spiBytes w)
  have hparse : spiWriteParse (spiBody addr ws ++ [x])
      = if ((addr.extractLsb' 16 8).toNat * 65536 + (addr.extractLsb' 8 8).toNat * 256 + (addr.extractLsb' 0 8).toNat) % 4 = 0
          ∧ 1 ≤ (BitVec.ofNat 8 ws.length).toNat ∧ (BitVec.ofNat 8 ws.length).toNat ≤ 64
          ∧ (ws.flatMap spiBytes ++ [x]).length = 4 * (BitVec.ofNat 8 ws.length).toNat + 1
          ∧ crc8 ((spiBody addr ws ++ [x]).take ((spiBody addr ws ++ [x]).length - 1))
            = (ws.flatMap spiBytes ++ [x]).getD (4 * (BitVec.ofNat 8 ws.length).toNat) 0 then
          some ((addr.extractLsb' 16 8).toNat * 65536 + (addr.extractLsb' 8 8).toNat * 256 + (addr.extractLsb' 0 8).toNat,
            (List.range (BitVec.ofNat 8 ws.length).toNat).map fun i => leNat (((ws.flatMap spiBytes ++ [x]).drop (4 * i)).take 4))
        else none := rfl
  rw [hparse, hcnt, addrBytes_toNat, htake, hlast, hwords]
  simp only [ha, h1, h64, hlen, List.length_append, List.length_singleton, true_and]

theorem exec_spiWriteFrame (bytes : List Byte) (s : State) :
    exec (.spiWriteFrame bytes) s
      = .next (s.settled (spiWrite s.time bytes s.nv s.chip).1 (spiWrite s.time bytes s.nv s.chip).2) := rfl

/-- Settles O28: the frame is read word by word, and the words at their places are those sent. -/
theorem spiWriteFramesRoundTrip : Obligations.SpiWriteFramesRoundTrip := by
  unfold Obligations.SpiWriteFramesRoundTrip
  intro addr ws ha h1 h64
  show spiWriteParse (spiBody addr ws ++ [crc8 (spiBody addr ws)]) = some (addr.toNat, ws.map BitVec.toNat) ∧
    ∀ (x : Byte) (s : State), x ≠ crc8 (spiBody addr ws) → spiOn s.chip = true →
      exec (.spiWriteFrame (spiBody addr ws ++ [x])) s = .next (s.settled s.nv (spiDiscard s.time s.chip))
  have hparse : ∀ x, spiWriteParse (spiBody addr ws ++ [x]) = if crc8 (spiBody addr ws) = x then some (addr.toNat, ws.map BitVec.toNat) else none :=
    spiWriteParse_body ha h1 h64
  refine ⟨by rw [hparse, if_pos rfl], fun x s hx hon => ?_⟩
  have hnone : spiWriteParse (spiBody addr ws ++ [x]) = none := by rw [hparse, if_neg fun h => hx h.symm]
  have hwrite : spiWrite s.time (spiBody addr ws ++ [x]) s.nv s.chip = (s.nv, spiDiscard s.time s.chip) := by
    simp only [spiWrite, hon, hnone, Bool.not_true, Bool.false_eq_true, if_false]
  rw [exec_spiWriteFrame, hwrite]

/-! ### Symbols (R245, R246) -/

theorem nibbleOf_symOf : ∀ n < 16, nibbleOf (symOf n) = some n := by decide

theorem bytesOf_symsOf (l : List Byte) : bytesOf (symsOf l) = some l := by
  induction l with
  | nil => rfl
  | cons b l ih =>
    have hlo := nibbleOf_symOf (b.toNat % 16) (by omega)
    have hhi := nibbleOf_symOf (b.toNat / 16) (by omega)
    have hb : BitVec.ofNat 8 (b.toNat % 16 + 16 * (b.toNat / 16)) = b := by rw [Nat.mod_add_div, BitVec.ofNat_toNat, BitVec.setWidth_eq]
    show (match nibbleOf (symOf (b.toNat % 16)), nibbleOf (symOf (b.toNat / 16)), bytesOf (symsOf l) with
      | some x, some y, some r => some (BitVec.ofNat 8 (x + 16 * y) :: r)
      | _, _, _ => none) = some (b :: l)
    rw [hlo, hhi, ih]
    exact congrArg (fun b => some (b :: l)) hb

/-- No symbol of one ordered set stands at its place in the other. -/
theorem start_apart_reset : ∀ a : Sym,
    (symSA == a).toNat + (symHA == a).toNat ≤ 1 ∧ (symSB == a).toNat + (symHB == a).toNat ≤ 1 := by decide

theorem isSet_four (w x y z a b c d : Sym) :
    isSet [w, x, y, z] [a, b, c, d] = decide (3 ≤ (w == a).toNat + (x == b).toNat + (y == c).toNat + (z == d).toNat) := by
  cases hw : w == a <;> cases hx : x == b <;> cases hy : y == c <;> cases hz : z == d <;> simp [isSet, hw, hx, hy, hz]

/-- Four symbols are recognised as one of the ordered sets at most. -/
theorem isSet_reset_of_start {set : List Sym} (h : isSet startSet set = true) : isSet resetSet set = false := by
  have hlen : set.length = 4 := by
    simp only [isSet, Bool.and_eq_true, decide_eq_true_eq] at h
    exact h.1
  match set, hlen with
  | [a, b, c, d], _ =>
    obtain ⟨ha, -⟩ := start_apart_reset a
    obtain ⟨-, hb⟩ := start_apart_reset b
    obtain ⟨-, hc⟩ := start_apart_reset c
    obtain ⟨hd, -⟩ := start_apart_reset d
    rw [startSet, isSet_four, decide_eq_true_eq] at h
    rw [resetSet, isSet_four, decide_eq_false_iff_not]
    omega

/-! ### Packets (R247, R248, R251, R252) -/

theorem length_objects (objs : List Nat) : (objs.flatMap (bytesLE 4)).length = 4 * objs.length :=
  length_flatMap_const (length_bytesLE 4) objs

theorem length_packetBytes (hdr : Nat) (objs : List Nat) : (packetBytes hdr objs).length = 2 + 4 * objs.length := by
  rw [packetBytes, List.length_append, length_bytesLE, length_objects]

/-- A body with its end is the packet it was made of, or bad, as its CRC is the packet's. -/
theorem heard_packet {hdr : Nat} {objs : List Nat} {set : List Sym} {x : Nat} (hh : hdr < 2 ^ 16) (hn : objs.length = hdrObjs hdr)
    (ho : ∀ x ∈ objs, x < 2 ^ 32) (hset : isSet startSet set = true) (hx : x < 2 ^ 32) :
    heard set (symsOf (packetBytes hdr objs ++ bytesLE 4 x)) true
      = if x = (crc32 (packetBytes hdr objs)).toNat then .packet hdr objs else .bad := by
  have hhdr : leNat ((packetBytes hdr objs ++ bytesLE 4 x).take 2) = hdr := by
    have htake : (packetBytes hdr objs ++ bytesLE 4 x).take 2 = bytesLE 2 hdr := by
      rw [packetBytes, List.append_assoc]
      exact List.take_left' (length_bytesLE 2 hdr)
    rw [htake, leNat_bytesLE, Nat.mod_eq_of_lt (by omega)]
  have hobjs : (List.range (hdrObjs hdr)).map (fun i => leNat (((packetBytes hdr objs ++ bytesLE 4 x).drop (2 + 4 * i)).take 4)) = objs := by
    have hdrop : ∀ i, (packetBytes hdr objs ++ bytesLE 4 x).drop (2 + 4 * i) = (objs.flatMap (bytesLE 4) ++ bytesLE 4 x).drop (4 * i) := by
      intro i
      rw [← List.drop_drop, packetBytes, List.append_assoc, List.drop_left' (length_bytesLE 2 hdr)]
    simp only [hdrop, ← hn]
    rw [chunks_flatMap (bytesLE 4) leNat (length_bytesLE 4) objs (bytesLE 4 x)]
    refine (List.map_congr_left fun a ha => ?_).trans (List.map_id objs)
    have := ho a ha
    rw [leNat_bytesLE, Nat.mod_eq_of_lt (by omega), id]
  have hcrc : leNat ((packetBytes hdr objs ++ bytesLE 4 x).drop (2 + 4 * hdrObjs hdr)) = x := by
    rw [List.drop_left' (by rw [length_packetBytes, hn]), leNat_bytesLE, Nat.mod_eq_of_lt (by omega)]
  have hlen : (packetBytes hdr objs ++ bytesLE 4 x).length = 2 + 4 * hdrObjs hdr + 4 := by
    rw [List.length_append, length_packetBytes, length_bytesLE, hn]
  unfold heard
  rw [if_neg (by rw [isSet_reset_of_start hset]; decide), if_neg (by rw [hset]; decide), bytesOf_symsOf]
  simp only [hhdr, hobjs, hcrc, hlen, true_and]

/-- Before ET has come no packet is heard. -/
theorem heard_unended {set body : List Sym} (hset : isSet startSet set = true) : heard set body false = .bad := by
  rw [heard, if_neg (by rw [isSet_reset_of_start hset]; decide), if_pos (by rw [Bool.not_false, Bool.or_true])]

theorem length_symsOf (l : List Byte) : (symsOf l).length = 2 * l.length :=
  length_flatMap_const (k := 2) (f := fun b : Byte => [symOf (b.toNat % 16), symOf (b.toNat / 16)]) (fun _ => rfl) l

theorem length_symBits (l : List Sym) : (symBits l).length = 5 * l.length :=
  length_flatMap_const (fun _ => by rw [List.length_map, List.length_range]) l

theorem length_packetBits (hdr : Nat) (objs : List Nat) :
    (packetBits hdr objs).length = 64 + 20 + 10 * (6 + 4 * objs.length) + 5 := by
  have hpre : preamble.length = 64 := by rw [preamble, List.length_map, List.length_range]
  have hsyms : (packetSyms hdr objs).length = 4 + 2 * (2 + 4 * objs.length + 4) + 1 := by
    simp only [packetSyms, List.length_append, length_symsOf, length_packetBytes, length_bytesLE, List.length_singleton]
    rfl
  rw [packetBits, List.length_append, hpre, length_symBits, hsyms]
  omega

/-- Settles O39: what is heard of a packet is decided by its CRC alone. -/
theorem packetsReadBackAsSent : Obligations.PacketsReadBackAsSent := by
  refine ⟨fun hdr objs hh hn ho => ⟨rfl, length_packetBits hdr objs, fun set hset => ⟨?_, heard_unended hset⟩,
    fun set x hset hx hne => ?_⟩, fun set hset => isSet_reset_of_start hset⟩
  · rw [heard_packet hh hn ho hset (BitVec.isLt _), if_pos rfl]
  · rw [heard_packet hh hn ho hset hx, if_neg hne]

end Sys2Proof.Machine

/-! SUPPORT. Which registers an operation keeps, and what one clock, pin, lock or message of the chip comes to. -/

namespace Sys2Proof.Machine

/-! ### Registers kept -/

theorem RegsKept.refl (as : List Nat) (c : Chip) : RegsKept as c c := fun _ _ => rfl

theorem RegsKept.trans {as : List Nat} {a b c : Chip} (h : RegsKept as a b) (h' : RegsKept as b c) : RegsKept as a c :=
  fun r hr => (h' r hr).trans (h r hr)

/-- A write of a listed register. -/
theorem RegsKept.wrR {as : List Nat} (c : Chip) {r : Reg} (v : Nat) (h : r.addr ∈ as) : RegsKept as c (c.wrR r v) :=
  fun _ hg => Chip.rdR_wrR_ne c v fun e => hg (e ▸ h)

theorem RegsKept.wr {as : List Nat} (c : Chip) {f : Fld} (v : Nat) (h : f.reg.addr ∈ as) : RegsKept as c (c.wr f v) := .wrR c _ h

theorem RegsKept.wrB {as : List Nat} (c : Chip) {f : Fld} (b : Bool) (h : f.reg.addr ∈ as) : RegsKept as c (c.wrB f b) := .wrR c _ h

/-- The same table of registers. -/
theorem RegsKept.of_regs {as : List Nat} {c c' : Chip} (h : c'.regs = c.regs) : RegsKept as c c' := fun r _ => by
  simp only [Chip.rdR, h]

theorem RegsKept.ite {as : List Nat} {a b c : Chip} {p : Prop} [Decidable p] (h : RegsKept as a b) (h' : RegsKept as a c) :
    RegsKept as a (if p then b else c) := by split <;> assumption

theorem RegsKept.mono {as bs : List Nat} {a b : Chip} (h : RegsKept as a b) (hs : as ⊆ bs) : RegsKept bs a b :=
  fun r hr => h r fun hm => hr (hs hm)

theorem RegsKept.rd {as : List Nat} {c c' : Chip} (h : RegsKept as c c') {f : Fld} (hf : f.reg.addr ∉ as) : c'.rd f = c.rd f := by
  rw [Chip.rd, h _ hf, Chip.rd]

theorem RegsKept.flag {as : List Nat} {c c' : Chip} (h : RegsKept as c c') {f : Fld} (hf : f.reg.addr ∉ as) : c'.flag f = c.flag f := by
  rw [Chip.flag, h.rd hf, Chip.flag]

theorem Reported.regsKept {ps as : List Nat} {c c' : Chip} (h : Reported ps c c') (hs : reportRegs ps ⊆ as) : RegsKept as c c' :=
  fun r hr => h.1 r fun hm => hr (hs hm)

/-- A flag reads back as what was written. -/
theorem Chip.flag_wrB_self (c : Chip) {f : Fld} (b : Bool) (h : f.hi = f.lo) (h32 : f.hi < 32) : (c.wrB f b).flag f = b := by
  have hw : f.hi + 1 - f.lo = 1 := by omega
  rw [Chip.flag, Chip.wrB, Chip.rd_wr_self c f _ (by omega) h32, hw]
  cases b <;> rfl

theorem Chip.flag_wrB_apart (c : Chip) {f g : Fld} (b : Bool) (h : f.lo ≤ f.hi) (h32 : f.hi < 32) (hr : g.reg = f.reg)
    (ha : f.hi < g.lo ∨ g.hi < f.lo) : (c.wrB f b).flag g = c.flag g := by
  rw [Chip.flag, Chip.wrB, Chip.rd_wr_apart c _ h h32 hr ha, Chip.flag]

theorem Chip.flag_wr_apart (c : Chip) {f g : Fld} (v : Nat) (h : f.lo ≤ f.hi) (h32 : f.hi < 32) (hr : g.reg = f.reg)
    (ha : f.hi < g.lo ∨ g.hi < f.lo) : (c.wr f v).flag g = c.flag g := by
  rw [Chip.flag, Chip.rd_wr_apart c _ h h32 hr ha, Chip.flag]

/-- A field of a word that is written as a whole. -/
theorem Chip.rd_wrR (c : Chip) (r : Reg) (v : Nat) (hi lo : Nat) : (c.wrR r v).rd ⟨r, hi, lo⟩ = bits (v % 2 ^ 32) hi lo := by
  rw [Chip.rd, Chip.rdR_wrR_self]

/-! ### Numbers (R10, R88) -/

/-- Settles O10, from the distance of the two stamps and its complement. -/
theorem stampOrderIsSerial : Obligations.StampOrderIsSerial := by
  intro a b
  have hswap : (b - a).toNat = (2 ^ 48 - (a - b).toNat) % 2 ^ 48 := by
    rw [BitVec.toNat_sub, BitVec.toNat_sub]; omega
  have hlt : (a - b).toNat < 2 ^ 48 := (a - b).isLt
  have hself : (a - b).toNat = 2 ^ 47 → a ≠ b := by
    rintro h rfl
    rw [BitVec.sub_self] at h
    exact absurd h (by decide)
  simp only [Stamp.later, Stamp.reached, Bool.and_eq_true, decide_eq_true_eq, hswap]
  refine ⟨trivial, by omega, fun h => ⟨?_, ?_⟩⟩
  · rw [h]; decide
  · rw [h, beq_false_of_ne (hself h)]; decide

/-- A quotient with its remainder is what the division by the power gives back. -/
theorem divEven_parts {sh : Nat} {q r : Int} (h0 : 0 ≤ r) (hr : r < 2 ^ sh) :
    divEven (q * 2 ^ sh + r) (2 ^ sh) = if 2 * r < 2 ^ sh then q else if 2 ^ sh < 2 * r then q + 1 else if q % 2 = 0 then q else q + 1 := by
  have hpos : (0 : Int) < 2 ^ sh := Int.pow_pos (by decide)
  have hcast : ((2 ^ sh : Nat) : Int) = 2 ^ sh := by norm_cast
  have hq : (q * 2 ^ sh + r) / 2 ^ sh = q := by
    rw [Int.add_comm, Int.add_mul_ediv_right _ _ (Int.ne_of_gt hpos), Int.ediv_eq_zero_of_lt h0 hr, Int.zero_add]
  have hm : (q * 2 ^ sh + r) % 2 ^ sh = r := by rw [Int.add_comm, Int.add_mul_emod_self_right, Int.emod_eq_of_lt h0 hr]
  simp only [divEven, hcast, hq, hm]

/-- Settles O13: the value that is rounded is the one of `divEven`. -/
theorem writeBackRoundsHalfToEven : Obligations.WriteBackRoundsHalfToEven := by
  intro sh q r _ h0 hr
  have hx := divEven_parts (q := q) h0 hr
  refine ⟨divEven (q * 2 ^ sh + r) (2 ^ sh), fun h => by rw [hx, if_pos h], fun h => by rw [hx, if_neg (by omega), if_pos h],
    fun h => ?_, rfl, ?_⟩
  · rw [hx, if_neg (by omega), if_neg (by omega)]
    split <;> omega
  · rw [writeBack, Bool.or_eq_true, decide_eq_true_eq, decide_eq_true_eq, Or.comm]

/-! ### Pins (R57, R172, R393) -/

/-- A leg that is not live drives both gates low. -/
theorem gatePins_low {t : Time} {c : Chip} {n : Nat} (h : (legDrive c n).live = false) : gatePins t c n = (false, false) := by
  rw [gatePins, h, if_neg (by decide)]

theorem legDrive_live (c : Chip) (n : Nat) (h : groupOfLeg c n = none ∨ legLive c n = false ∨ acts c = false) :
    (legDrive c n).live = false := by
  unfold legDrive
  split
  · rfl
  · rename_i k hk
    rcases h with h | h | h
    · rw [hk] at h; cases h
    · simp [h]
    · simp [h]

/-- Settles O19: the low-side command is masked by the high-side one, and what is not live drives neither. -/
theorem gatesAreNeverBothHigh : Obligations.GatesAreNeverBothHigh := by
  refine fun t c n => ⟨?_, fun h => gatePins_low (legDrive_live c n h)⟩
  unfold gatePins
  split
  · cases (legNow t c n).gh <;> simp
  · decide

theorem efCh_modEf_self (n : Nat) (f : EfCh → EfCh) (c : Chip) : efCh (modEf n f c) n = f (efCh c n) :=
  Tab.get_upd_self ({} : EfCh) c.efu.chans n f

theorem efCh_modEf_ne {n m : Nat} (f : EfCh → EfCh) (c : Chip) (h : m ≠ n) : efCh (modEf n f c) m = efCh c m :=
  Tab.get_upd_ne ({} : EfCh) c.efu.chans f h

/-- Settles O20: the trip is a change of the channel's own state. -/
theorem overcurrentLowersEnableAtOnce : Obligations.OvercurrentLowersEnableAtOnce := by
  intro n s ha
  refine ⟨next_alive ha, fun hp hs => ?_, fun hp => ?_, fun m hm => ?_, ?_, ?_⟩
  · rw [efOvercurrent, hp, hs, if_pos (by decide)]
    exact efCh_modEf_self _ _ _
  · rw [efOvercurrent, hp, Bool.false_and, if_neg Bool.false_ne_true]
  · unfold efOvercurrent
    split
    · exact efCh_modEf_ne _ _ hm
    · rfl
  · unfold efOvercurrent; split <;> rfl
  · unfold efOvercurrent; split <;> rfl

/-- ERR_N at its update: a cause asserts it and starts its width; without one it is released when no width runs. -/
theorem errUpdate_stands {t : Time} {c : Chip} (h : errCause c = true) (he : c.flag F.FLT_STAT_ERR = true) : errUpdate t c = c := by
  rw [errUpdate, if_pos h, if_pos he]

@[inherit_doc errUpdate_stands]
theorem errUpdate_asserts {t : Time} {c : Chip} (h : errCause c = true) (he : c.flag F.FLT_STAT_ERR = false) :
    errUpdate t c = ({ c with flt := { c.flt with minRun := true, errAt := t.tick } } : Chip).wrB F.FLT_STAT_ERR true := by
  rw [errUpdate, if_pos h, he, if_neg Bool.false_ne_true]

@[inherit_doc errUpdate_stands]
theorem errUpdate_waits {t : Time} {c : Chip} (h : errCause c = false) (hm : c.flt.minRun = true) : errUpdate t c = c := by
  rw [errUpdate, h, if_neg Bool.false_ne_true, if_pos hm]

@[inherit_doc errUpdate_stands]
theorem errUpdate_releases {t : Time} {c : Chip} (h : errCause c = false) (hm : c.flt.minRun = false) :
    errUpdate t c = c.wrB F.FLT_STAT_ERR false := by
  rw [errUpdate, h, if_neg Bool.false_ne_true, hm, if_neg Bool.false_ne_true]

theorem flag_err_wrB (c : Chip) (b : Bool) : (c.wrB F.FLT_STAT_ERR b).flag F.FLT_STAT_ERR = b := c.flag_wrB_self b rfl (by decide)

/-- The update touches the registers, and of FLT the running of the width. -/
theorem errUpdate_only (t : Time) (c : Chip) :
    ∃ r m e, errUpdate t c = { c with regs := r, flt := { c.flt with minRun := m, errAt := e } } := by
  have hwrB : ∀ d : Chip, ∀ b, d.wrB F.FLT_STAT_ERR b = { d with regs := (d.wrB F.FLT_STAT_ERR b).regs } := fun _ _ => rfl
  unfold errUpdate
  split
  · split
    · exact ⟨_, _, _, rfl⟩
    · exact ⟨_, true, t.tick, hwrB _ _⟩
  · split
    · exact ⟨_, _, _, rfl⟩
    · exact ⟨_, c.flt.minRun, c.flt.errAt, hwrB _ _⟩

theorem errUpdate_rest (t : Time) (c : Chip) :
    { errUpdate t c with regs := c.regs, flt := { (errUpdate t c).flt with minRun := c.flt.minRun, errAt := c.flt.errAt } } = c := by
  obtain ⟨r, m, e, h⟩ := errUpdate_only t c
  rw [h]

theorem errUpdate_regsKept (t : Time) (c : Chip) : RegsKept [F.FLT_STAT_ERR.reg.addr] c (errUpdate t c) := by
  have hkept : ∀ (d : Chip) b, d.regs = c.regs → RegsKept [F.FLT_STAT_ERR.reg.addr] c (d.wrB F.FLT_STAT_ERR b) :=
    fun d b hd => (RegsKept.of_regs hd).trans (.wrB d b (List.mem_singleton_self _))
  unfold errUpdate
  exact .ite (.ite (.refl _ _) (hkept _ _ rfl)) (.ite (.refl _ _) (hkept _ _ rfl))

/-- Settles O30, by what the update is in each of its four cases. -/
theorem errPinFollowsItsCauses : Obligations.ErrPinFollowsItsCauses := by
  refine fun t c => ⟨fun hc => ?_, fun hc he => ?_, fun hc hm => ?_, fun hc hm => errUpdate_waits hc hm, errUpdate_regsKept t c,
    errUpdate_rest t c⟩
  · cases he : c.flag F.FLT_STAT_ERR with
    | true => rw [errUpdate_stands hc he, he]
    | false => rw [errUpdate_asserts hc he, flag_err_wrB]
  · rw [errUpdate_asserts hc he]
    exact ⟨rfl, rfl⟩
  · rw [errUpdate_releases hc hm, flag_err_wrB]

/-! ### Locks, counts and the nanosecond time (R52, R396, R423) -/

/-- Settles O25: the lock is a part of UPD's own state, and UPD_LOCK shows whether it is held. -/
theorem ownerLockNeedsItsCode : Obligations.OwnerLockNeedsItsCode := by
  refine ⟨fun _ _ _ h => next_hostWrite h rfl rfl, fun code c => ⟨?_, ?_, ?_, rfl⟩⟩
  · rw [ownerLock]
    cases hl : c.upd.lock with
    | none => simp only [modUpd, Chip.wrR]
    | some k => simp only [modUpd, Chip.wrR, eq_comm]
  · show ((c.wrR R.UPD_LOCK _).rdR R.UPD_LOCK) = _
    rw [Chip.rdR_wrR_self]
    exact Nat.mod_eq_of_lt (Nat.lt_of_le_of_lt (Bool.toNat_le _) (by decide))
  · exact (RegsKept.wrR c _ (List.mem_singleton_self _)).trans (.of_regs rfl)

/-- A counter that saturates. -/
theorem Chip.rd_count (c : Chip) (f : Fld) (h : f.lo ≤ f.hi) (h32 : f.hi < 32) :
    (c.count f).rd f = min (2 ^ (f.hi + 1 - f.lo) - 1) (c.rd f + 1) := by
  have hpos : 0 < 2 ^ (f.hi + 1 - f.lo) := Nat.pow_pos (by decide)
  rw [Chip.count, Chip.rd_wr_self c f _ h h32, satAdd, Nat.mod_eq_of_lt (by omega)]

/-- Within the Bivouac the host's command is one more entry. -/
theorem bivCommand_again {t : Time} {c : Chip} (h : c.flt.biv = true) : bivCommand t 0xB1F00001 c = c.count F.FLT_BIVST_COUNT := by
  rw [bivCommand, if_pos rfl, bivEnter, if_pos h, bivAgain, if_neg (by omega), if_neg (by omega)]

theorem bivCommand_keyless {t : Time} {c : Chip} {key : Nat} (h : key ≠ 0xB1F00001) : bivCommand t key c = c := if_neg h

/-- Settles O31: the command writes FLT_BIVST alone. -/
theorem bivouacEntryWithinOnlyCounts : Obligations.BivouacEntryWithinOnlyCounts := by
  refine ⟨fun iface key s h => ⟨fun hk hb => ?_, fun hk => ?_⟩,
    fun c => ⟨c.rd_count _ (by decide) (by decide), .wr c _ (List.mem_singleton_self _)⟩⟩
  · subst hk
    exact next_hostWrite h rfl (congrArg (fun x => some (s.nv, x)) (bivCommand_again hb))
  · refine next_hostWrite h rfl (congrArg (fun x => some (s.nv, x)) (bivCommand_keyless fun e => hk ?_))
    exact BitVec.eq_of_toNat_eq e

/-- The signed step of two words is the step of their 64 bits. -/
theorem ofInt_toInt64 (hi : Word) (lo : Nat) (h : lo < 2 ^ 32) :
    BitVec.ofInt 64 (toInt 64 (lo + 2 ^ 32 * (hi.toNat % 2 ^ 32))) = hi ++ BitVec.ofNat 32 lo := by
  have hx : lo + 2 ^ 32 * (hi.toNat % 2 ^ 32) = (hi ++ BitVec.ofNat 32 lo).toNat := by
    rw [BitVec.toNat_append, BitVec.toNat_ofNat, ← Nat.shiftLeft_add_eq_or_of_lt (Nat.mod_lt _ (by decide)), Nat.shiftLeft_eq]
    omega
  have hlt : (hi ++ BitVec.ofNat 32 lo).toNat < 2 ^ 64 := (hi ++ BitVec.ofNat 32 lo).isLt
  have hint : toInt 64 (hi ++ BitVec.ofNat 32 lo).toNat = (hi ++ BitVec.ofNat 32 lo).toInt := by
    rw [toInt, Nat.mod_eq_of_lt hlt, BitVec.toInt_eq_toNat_cond]
    split <;> split <;> omega
  rw [hx, hint, BitVec.ofInt_toInt]

/-- Where nothing waits, what is asked of the time base is done. -/
theorem settled_time_of_quiet {s : State} {nv : Nv} {c : Chip} (h : c.due = []) : (s.settled nv c).time = s.time.asked c.timeReq := by
  have hreq : (portsFollow s.time s.chip (hostKept s.time (settle s.time nv settleFuel c))).timeReq = c.timeReq := by
    obtain ⟨r, x, hk⟩ := hostKept_only s.time (settle s.time nv settleFuel c)
    rw [portsFollow_timeReq, hk, settle_quiet h]
  rw [← hreq]
  exact applyTime_time _

/-- Settles O33: the step asks the time base for its 64 bits. -/
theorem nanosecondStepAddsItsStep : Obligations.NanosecondStepAddsItsStep := by
  refine ⟨fun hi s hinv h => ⟨next_hostWrite h rfl rfl, ?_⟩, fun hi c => ⟨?_, ?_, ?_, rfl⟩⟩
  · obtain ⟨-, -, hq⟩ := hinv
    obtain ⟨hd, -⟩ := quiet_parts hq
    obtain ⟨⟨r, x, w, l, htaken⟩, hregs⟩ := hostTaken_only s.time .pcie 0xA0AC s.chip
    have hdue : (nsStep hi.toNat (hostTaken s.time .pcie 0xA0AC s.chip)).due = [] := by rw [htaken]; exact hd
    have hlo : (hostTaken s.time .pcie 0xA0AC s.chip).rdR R.ANG_NSSTEP_LO = s.chip.rdR R.ANG_NSSTEP_LO := hregs _ (by decide)
    rw [settled_time_of_quiet hdue, ← ofInt_toInt64 hi _ (Chip.rdR_lt _ _), ← hlo]
    rfl
  · exact Chip.flag_wrB_self _ _ rfl (by decide)
  · have hne : R.ANG_NSSTEP_HI.addr ≠ F.ANG_STAT_NSDISC.reg.addr := by decide
    show ((c.wrR R.ANG_NSSTEP_HI hi.toNat).wrB F.ANG_STAT_NSDISC true).rdR R.ANG_NSSTEP_HI = hi.toNat
    rw [Chip.wrB, Chip.wr, Chip.rdR_wrR_ne _ _ hne, Chip.rdR_wrR_self, Nat.mod_eq_of_lt hi.isLt]
  · exact ((RegsKept.wrR c _ (by decide)).trans (.wrB _ _ (by decide))).trans (.of_regs rfl)

end Sys2Proof.Machine

/-! SUPPORT. Messages, acknowledgements, host transactions, frames and writes that are turned away, what reset leaves, and times that
have not run out. -/

namespace Sys2Proof.Tab

/-- A write of several values reads back at each of their keys. -/
theorem get_setMany_inside {α : Type} [DecidableEq α] (d : α) (l : Tab α) (n : Nat) (vs : List α) {i : Nat} (hi : i < vs.length) :
    get d (setMany d l n vs) (n + i) = vs.getD i d := by
  induction vs generalizing l n i with
  | nil => exact absurd hi (Nat.not_lt_zero i)
  | cons v vs ih =>
    rw [setMany]
    cases i with
    | zero => rw [get_setMany_outside d _ (n + 1) vs (.inl (by omega)), Nat.add_zero, get_set_self]; rfl
    | succ i =>
      have hi' : i < vs.length := Nat.lt_of_succ_lt_succ hi
      rw [show n + (i + 1) = n + 1 + i by omega, ih _ _ hi']; rfl

end Sys2Proof.Tab

namespace Sys2Proof.Machine

/-! ### Messages of MSI-X (R441) -/

theorem getD_bytesLE {n i : Nat} (v : Nat) (h : i < n) : (bytesLE n v).getD i 0 = BitVec.ofNat 8 (v / 2 ^ (8 * i)) := by
  induction n generalizing v i with
  | zero => omega
  | succ n ih =>
    cases i with
    | zero => rw [Nat.mul_zero, Nat.pow_zero, Nat.div_one]; rfl
    | succ i =>
      have hstep : (bytesLE (n + 1) v).getD (i + 1) 0 = (bytesLE n (v / 256)).getD i 0 := rfl
      have hpow : 2 ^ (8 * (i + 1)) = 256 * 2 ^ (8 * i) := by rw [Nat.mul_succ, Nat.pow_add]; exact Nat.mul_comm _ _
      rw [hstep, ih (v / 256) (by omega), hpow, Nat.div_div_eq_div_mul]

theorem bit_setBit_false_self (v i : Nat) : bit (setBit v i false) i = false := by
  rw [bit_eq_testBit, setBit, testBit_setBits _ _ _ _ _ (Nat.le_refl i), if_pos ⟨Nat.le_refl i, Nat.le_refl i⟩, Nat.sub_self]
  exact Nat.zero_testBit 0

/-- Settles O35: the four bytes go to the four addresses from the vector's own. -/
theorem messageReachesHostMemoryOnce : Obligations.MessageReachesHostMemoryOnce := by
  intro v s ha c word addr may
  refine ⟨next_alive ha, fun hm => if_neg (ne_true_of_eq_false hm), fun hm => ?_⟩
  have hsend : msixSend v.val c = toHost addr (bytesLE 4 (word 2)) { c with msixDue := setBit c.msixDue v false } := if_pos hm
  rw [hsend]
  refine ⟨fun i hi => ?_, fun a h => ?_, bit_setBit_false_self _ _, rfl⟩
  · rw [← getD_bytesLE (word 2) hi]
    exact Tab.get_setMany_inside 0 c.hostMem addr _ (by rwa [length_bytesLE])
  · exact Tab.get_setMany_outside 0 c.hostMem addr _ (by rwa [length_bytesLE])

/-! ### Acknowledgements of CL (R255) -/

theorem port_modPort_self (p : Nat) (f : Port → Port) (c : Chip) : port (modPort p f c) p = f (port c p) :=
  Tab.get_upd_self ({} : Port) c.cpt.ports p f

theorem port_modPort_ne {p q : Nat} (f : Port → Port) (c : Chip) (h : q ≠ p) : port (modPort p f c) q = port c q :=
  Tab.get_upd_ne ({} : Port) c.cpt.ports f h

/-- Settles O37: an acknowledgement is taken by the number of the packet that waits. -/
theorem acknowledgementsMatchTheirPacket : Obligations.AcknowledgementsMatchTheirPacket := by
  intro p id c
  refine ⟨fun hw => ?_, fun k hl hw => ⟨fun hid => ?_, fun hid => ?_⟩⟩
  · rw [ackReceived, hw, ite_self]
  · rw [ackReceived, if_pos hl, hw]; exact if_neg hid
  · have hack : ackReceived p id c = (nextId p k (c.count (F.CPp_CNT2_TXOK p)), some k) := by
      rw [ackReceived, if_pos hl, hw]; exact if_pos hid
    rw [hack]
    refine ⟨rfl, ?_, ?_, ?_, fun q hq => port_modPort_ne _ _ hq, ?_⟩
    · rw [nextId, port_modPort_self]
    · rw [nextId, port_modPort_self]
    · rw [nextId, port_modPort_self]; rfl
    · exact (RegsKept.wr c _ (List.mem_singleton_self _)).trans (.of_regs rfl)

/-! ### Host transactions of PMBus (R322) -/

/-- A field below GO's bits 31 to 20 of the word of a host transaction. -/
theorem bits_low20 (v : Nat) {hi lo : Nat} (h : hi < 20) : bits (v % 2 ^ 20 % 2 ^ 32) hi lo = bits v hi lo := by
  apply Nat.eq_of_testBit_eq
  intro i
  rw [testBit_bits, testBit_bits, Nat.testBit_mod_two_pow, Nat.testBit_mod_two_pow]
  by_cases hi' : i < hi + 1 - lo
  · rw [decide_eq_true (by omega : i + lo < 32), decide_eq_true (by omega : i + lo < 20), Bool.true_and, Bool.true_and]
  · rw [decide_eq_false hi', Bool.false_and, Bool.false_and]

section
variable {t : Time} {v : Nat} {c : Chip}

/-- What the command word's store leaves of the gates of a host transaction. -/
theorem hcmdStored (c : Chip) (w : Nat) : RegsKept [R.PMB_HCMD.addr] c (c.wrR R.PMB_HCMD w) ∧
    pmbOn (c.wrR R.PMB_HCMD w) = pmbOn c ∧ (c.wrR R.PMB_HCMD w).flag F.PMB_HRES_BUSY = c.flag F.PMB_HRES_BUSY
      ∧ sealOnly (c.wrR R.PMB_HCMD w) = sealOnly c := by
  have hk : RegsKept [R.PMB_HCMD.addr] c (c.wrR R.PMB_HCMD w) := .wrR c w (List.mem_singleton_self _)
  have hon : pmbOn (c.wrR R.PMB_HCMD w) = pmbOn c := by
    rw [pmbOn, Chip.blockOn, isStandby, acts, hk.flag (by decide), hk.flag (by decide), hk.flag (by decide), hk.rd (by decide)]; rfl
  exact ⟨hk, hon, hk.flag (by decide), hk.flag (by decide)⟩

/-- A host transaction that is not taken leaves its word stored. -/
theorem pmbHost_refused (h : pmbOn c = false ∨ c.flag F.PMB_HRES_BUSY = true ∨ sealOnly c = true) :
    pmbHost t v c = c.wrR R.PMB_HCMD (v % 2 ^ 20) := by
  obtain ⟨-, hon, hbusy, hseal⟩ := hcmdStored c (v % 2 ^ 20)
  unfold pmbHost
  simp only [hon, hbusy, hseal]
  refine if_neg ?_
  rcases h with h | h | h <;> simp [h]

/-- A host transaction that is taken. -/
theorem pmbHost_taken (hgo : bit v 31 = true) (hon : pmbOn c = true) (hb : c.flag F.PMB_HRES_BUSY = false) (hs : sealOnly c = false) :
    pmbHost t v c = setXacts t
      (aheadOfCycles ⟨none, bits v 18 16, bits v 15 8, bits v 6 0, bit v 19, c.rd F.PMB_HDATA_DATA, false⟩ c.xacts)
      ((c.wrR R.PMB_HCMD (v % 2 ^ 20)).wrB F.PMB_HRES_BUSY true) := by
  obtain ⟨hk, hon', hbusy, hseal⟩ := hcmdStored c (v % 2 ^ 20)
  have hfield : ∀ hi lo, hi < 20 → (c.wrR R.PMB_HCMD (v % 2 ^ 20)).rd ⟨R.PMB_HCMD, hi, lo⟩ = bits v hi lo := fun hi lo h => by
    rw [Chip.rd_wrR, bits_low20 v h]
  have hpec : (c.wrR R.PMB_HCMD (v % 2 ^ 20)).flag F.PMB_HCMD_PEC = bit v 19 := by
    rw [Chip.flag, F.PMB_HCMD_PEC, hfield 19 19 (by decide), bit, bits]
    generalize v / 2 ^ 19 = q
    rcases Nat.mod_two_eq_zero_or_one q with h | h <;> simp [h]
  unfold pmbHost
  simp only [hon', hbusy, hseal, hon, hb, hs, hgo, Bool.not_false, Bool.and_self, if_true, hk.rd (f := F.PMB_HDATA_DATA) (by decide), hpec]
  rw [F.PMB_HCMD_OP, F.PMB_HCMD_CODE, F.PMB_HCMD_ADDR, hfield 18 16 (by decide), hfield 15 8 (by decide), hfield 6 0 (by decide)]
  rfl

end

theorem aheadOfCycles_nil (x : Xact) : aheadOfCycles x [] = [x] := rfl

/-- Settles O34: what is taken goes into the queue by `aheadOfCycles`; what is not is a stored word. -/
theorem hostTransactionWaitsItsTurn : Obligations.HostTransactionWaitsItsTurn := by
  intro t v c hgo
  refine ⟨fun hon hb hs => ?_, fun h => ?_, ?_⟩
  · rw [pmbHost_taken hgo hon hb hs]
    refine ⟨?_, rfl, fun hx => ?_, ?_⟩
    · exact Chip.flag_wrB_self (c.wrR R.PMB_HCMD (v % 2 ^ 20)) true rfl (by decide)
    · rw [hx, aheadOfCycles_nil, setXacts]
      exact if_neg (by show ¬ (some _ = c.xacts.head?); rw [hx]; exact nofun)
    · exact ((RegsKept.wrR c _ (by decide)).trans (.wrB _ _ (by decide))).trans (.of_regs rfl)
  · rw [pmbHost_refused h]
    exact ⟨rfl, .wrR c _ (List.mem_singleton_self _)⟩
  · by_cases h : pmbOn c = false ∨ c.flag F.PMB_HRES_BUSY = true ∨ sealOnly c = true
    · rw [pmbHost_refused h]; rfl
    · simp only [not_or, Bool.not_eq_false, Bool.not_eq_true] at h
      obtain ⟨hon, hb, hs⟩ := h
      rw [pmbHost_taken hgo hon hb hs]; rfl

/-! ### Reset (R470) -/

/-- Settles O38: the registers listed after reset are the three excepted ones. -/
theorem resetLeavesWhatTheSpecSays : Obligations.ResetLeavesWhatTheSpecSays := by
  refine ⟨rfl, rfl, by decide, rfl, rfl, rfl, rfl, rfl, rfl, rfl, rfl, rfl, by decide, fun r hr => ?_⟩
  simp only [List.mem_cons, List.not_mem_nil, or_false, not_or] at hr
  obtain ⟨h1, h2, h3⟩ : r.addr ≠ 0x4044 ∧ r.addr ≠ 0x4048 ∧ r.addr ≠ 0x4058 := hr
  have hget : Tab.get r.reset [(0x4044, 1), (0x4048, 0xFF140F), (0x4058, 0x10001)] r.addr = r.reset := by
    rw [Tab.get, if_neg h1, Tab.get, if_neg h2, Tab.get, if_neg h3, Tab.get]
  exact congrArg BitVec.toNat hget

/-! ### Times that have not run out (R41, R47, R65, R118, R159, R231, R255, R308, R427, R437, R444, R470, R475) -/

theorem heldFor_early {t : Time} {n a : Nat} (h : t.tick < a + n) : heldFor t n (some a) = false :=
  decide_eq_false (Nat.not_le.2 h)

/-- Settles O43: the time is a part of each event's own condition. -/
theorem eventsThatComeEarlyChangeNothing : Obligations.EventsThatComeEarlyChangeNothing := by
  refine fun t c => ⟨fun a ha h => ?_, fun h => ?_, fun k h => ?_, fun a ha h => ?_, fun level h => ?_, fun a ha h => ?_, fun p h => ?_,
    fun n g a hg hs h => ?_, fun h => ?_, fun h => ?_, fun iface p h => ?_, fun h => ?_, fun h => ?_, fun h => ?_⟩
  · exact if_neg fun hx => by rw [ha, heldFor_early h] at hx; exact Bool.false_ne_true hx.2
  · exact if_neg fun hx => Nat.not_le.2 h hx.2
  · exact if_neg (by rw [decide_eq_false (Nat.not_le.2 h), Bool.and_false]; exact Bool.false_ne_true)
  · exact if_neg (by rw [ha, heldFor_early h, Bool.and_false, Bool.false_and]; exact Bool.false_ne_true)
  · exact if_neg (by rw [decide_eq_false (Nat.not_le.2 h), Bool.and_false, Bool.false_and, Bool.false_and, Bool.false_and]; exact Bool.false_ne_true)
  · exact if_neg (by rw [ha, heldFor_early h, Bool.and_false]; exact Bool.false_ne_true)
  · rw [ackTimeout, if_neg (Nat.not_le.2 h)]
  · have hheld : heldFor t 1001 g.sentAt = false := by rw [hs]; exact heldFor_early (by omega)
    rw [missedPoll, hg]
    exact if_pos (by rw [hheld, Bool.not_false, Bool.or_true])
  · exact if_neg (by rw [decide_eq_false (Nat.not_lt.2 h)]; simp)
  · exact if_neg (by rw [decide_eq_false (Nat.not_le.2 h), Bool.and_false]; exact Bool.false_ne_true)
  · exact if_neg (by rw [decide_eq_false (Nat.not_le.2 h), Bool.and_false]; exact Bool.false_ne_true)
  · unfold resetApply
    split
    · exact if_neg (Nat.not_le.2 h)
    · rfl
  · exact if_neg (by rw [decide_eq_false (Nat.not_le.2 h), Bool.and_false]; exact Bool.false_ne_true)
  · exact if_neg (by rw [decide_eq_false (Nat.not_le.2 h), Bool.and_false]; exact Bool.false_ne_true)

/-! ### Writes that are turned away (R5, R6, R443, R444) -/

section
variable {t : Time} {iface : Iface} {off v : Nat} {nv : Nv} {c : Chip} {r : MapRow}

/-- A write to a page whose unlock is missing is reported and no more. -/
theorem hostWrite_locked (hr : hostReaches iface c off = true) (hk : keyless off = false) (hu : unlocked iface c (off / 4096) = false)
    (hl : lapsedNow t iface c (off / 4096) = false) (hb : (hostStandby c && !standbyTakes off) = false) :
    hostWrite t iface off v nv c = (nv, hostAccess (lockFault t off c)) := by
  obtain ⟨ha, hm, hp, hi⟩ := hostReaches_parts hr
  have hn : (iface == .spi && !spiOn c) = false := by cases iface <;> simp_all
  have hpage : (iface == .spi && !pageReach .spi c (off / 4096)) = false := by cases iface <;> simp_all
  have hspi : (iface == .spi && !c.flag F.HIF_CTL_SPIWR) = false := by cases iface <;> simp_all
  have hgate : writeGate t iface off c = (lockFault t off c, false) := by
    simp only [writeGate, ha, hp, hn, hpage, hspi, hk, hu, hl, hb, Bool.not_true, Bool.not_false, Bool.or_self, Bool.and_self, if_true,
      Bool.false_eq_true, if_false, Bool.false_and]
  simp only [hostWrite, ha, hm, hgate, Bool.and_false, Bool.false_eq_true, if_false]

/-- A word outside its field ranges is reported and no more. -/
theorem writeWord_outOfRange (hr : accessRow off = some r) (hw : r.rw ||| r.rws ||| r.w1c ||| r.wo ≠ 0) (ho : outOfRange off v = true) :
    writeWord t iface nv off v c = (nv, accessFault t off c) := by
  simp only [writeWord, hr, hw, ho, if_false, if_true]

/-- A word with a 1 in a reserved bit takes effect in its fields and is reported. -/
theorem writeWord_reserved (hr : accessRow off = some r) (hw : r.rw ||| r.rws ||| r.w1c ||| r.wo ≠ 0) (ho : outOfRange off v = false)
    (hv : v &&& (0xFFFFFFFF ^^^ (r.rw ||| r.rws ||| r.w1c ||| r.wo ||| r.rc ||| r.ro)) ≠ 0)
    (hh : headerWrite t iface nv (off / 4096) (off % 4096) v (noticed t off c) = none) (hs : specialWrite t off v nv (noticed t off c) = none) :
    writeWord t iface nv off v c
      = (nv, accessFault t off (noteSpi t iface off (storeWord t off (spiStands t iface off v r (noticed t off c)) r (noticed t off c)))) := by
  simp only [writeWord, hr, hw, ho, hh, hs, ite_self, Bool.false_eq_true, if_false]
  exact if_pos hv

end

/-- Settles O15, a gate of a host write at a time. -/
theorem writesTurnedAwayAreReported : Obligations.WritesTurnedAwayAreReported := by
  refine ⟨fun iface off v s ha hi => ?_, fun iface off v s h hr hk hu hl hb => ?_, fun iface off v r s h hm hr hw ho => ?_,
    fun iface off v r s h hm hr hw ho hv => ?_⟩
  · have hreport : (awake s.chip && (iface == .pcie || spiOn s.chip)) = true := by
      rcases hi with rfl | hspi
      · rw [ha]; rfl
      · rw [ha, hspi, Bool.or_true]; rfl
    exact congrArg (fun c => (.next (s.settled s.nv c) : Host.Outcome State Fault Refusal)) (if_pos hreport)
  · rw [exec_registerWrite_whole iface v s h, hostWrite_locked hr hk hu hl hb]
  · rw [exec_registerWrite_whole iface v s h, hostWrite_accepted hm, writeWord_outOfRange hr hw ho]
  · intro c hh hs
    rw [exec_registerWrite_whole iface v s h, hostWrite_accepted hm, writeWord_reserved hr hw ho hv hh hs]

/-! ### Frames that are dropped (R445) -/

section
variable {t : Time} {n addr : Nat} {frame : List Byte} {fcs : Nat} {c : Chip}

/-- The MAC is on, its link up, and seal-only mode off. -/
def MacListens (c : Chip) (n : Nat) : Prop := macOn c n = true ∧ c.flag (F.HIF_Mn_STAT_LINK n) = true ∧ sealOnly c = false

theorem macReceive_bad (h : MacListens c n) (hf : fcs ≠ (crc32 frame).toNat ∨ 1518 < frame.length) :
    macReceive t n addr frame fcs c = irq t (n + 1) 4 (raise t 0x16 0x08 n (c.count (F.HIF_Mn_CNT_RXERR n))) := by
  obtain ⟨hon, hl, hs⟩ := h
  rw [macReceive, hon, hl, hs, if_neg (by decide), if_pos hf]

theorem macReceive_full (h : MacListens c n) (hf : fcs = (crc32 frame).toNat) (hlong : frame.length ≤ 1518) (hshort : 60 ≤ frame.length)
    (ha : macAccepts c n frame = true) (ho : rxOwned c n = 0) :
    macReceive t n addr frame fcs c = irq t (n + 1) 2 (c.count (F.HIF_Mn_CNT_RXDROP n)) := by
  obtain ⟨hon, hl, hs⟩ := h
  rw [macReceive, hon, hl, hs, if_neg (by decide), if_neg (by omega), if_neg (by rw [ha]; simp; omega), if_pos ho]

/-- What a report leaves of host memory and of the frames that wait. -/
theorem Reported.host {ps : List Nat} {a b : Chip} (h : Reported ps a b) : b.hostMem = a.hostMem ∧ b.hif.macWait = a.hif.macWait := by
  obtain ⟨-, -, hrest⟩ := h
  rw [← hrest]
  exact ⟨rfl, rfl⟩

/-- Settles O27: a frame that is dropped is a count and a report. -/
theorem unusableFramesAreDropped : Obligations.UnusableFramesAreDropped := by
  intro n addr frame fcs s ha hon hl hs
  have hlisten : MacListens s.chip n.val := ⟨hon, hl, hs⟩
  refine ⟨fun hf => (next_alive ha).trans (by dsimp only; rw [macReceive_bad hlisten hf]),
    fun hf hlong hshort hacc ho => (next_alive ha).trans (by dsimp only; rw [macReceive_full hlisten hf hlong hshort hacc ho]), fun h => ?_⟩
  by_cases hf : fcs.toNat ≠ (crc32 frame).toNat ∨ 1518 < frame.length
  · rw [macReceive_bad hlisten hf]
    have hrep := (raise_reported s.time 0x16 0x08 n.val (s.chip.count (F.HIF_Mn_CNT_RXERR n.val)) false (ps := [8, n.val + 1]) (by simp)).trans
      (irq_reported s.time (p := n.val + 1) 4 _ (by simp))
    exact hrep.host
  · obtain ⟨hshort, hacc, ho⟩ := h.resolve_left hf
    rw [macReceive_full hlisten (by omega) (by omega) hshort hacc ho]
    exact (irq_reported s.time 2 (s.chip.count (F.HIF_Mn_CNT_RXDROP n.val)) (List.mem_singleton_self _)).host

end

end Sys2Proof.Machine

/-! SUPPORT. Registers by their access codes (R5, R452), the ring port (R330) and the coefficient memory (R90). -/

namespace Sys2Proof.Machine

/-! ### Access codes -/

theorem testBit_ones32 {i : Nat} (h : i < 32) : Nat.testBit 0xFFFFFFFF i = true := by
  have : (0xFFFFFFFF : Nat) = 2 ^ 32 - 1 := by decide
  rw [this, Nat.testBit_two_pow_sub_one, decide_eq_true h]

/-- A word written as a whole, bit by bit. -/
theorem Chip.testBit_rdR_wrR (c : Chip) (r : Reg) (v : Nat) {i : Nat} (h : i < 32) : ((c.wrR r v).rdR r).testBit i = v.testBit i := by
  rw [Chip.rdR_wrR_self, Nat.testBit_mod_two_pow, decide_eq_true h, Bool.true_and]

theorem Chip.testBit_shR_wrShR (c : Chip) (r : Reg) (v : Nat) {i : Nat} (h : i < 32) :
    ((c.wrShR r v).shR r).testBit i = v.testBit i := by
  rw [Chip.shR_wrShR_self, Nat.testBit_mod_two_pow, decide_eq_true h, Bool.true_and]

/-- A bit of a word that takes the bits of a mask from another. -/
theorem testBit_masked {a m v i : Nat} (h : i < 32) :
    ((a &&& (0xFFFFFFFF ^^^ m)) ||| (v &&& m)).testBit i = if m.testBit i then v.testBit i else a.testBit i := by
  simp only [Nat.testBit_or, Nat.testBit_and, Nat.testBit_xor, testBit_ones32 h]
  cases m.testBit i <;> simp

theorem testBit_cleared {a m i : Nat} (h : i < 32) :
    (a &&& (0xFFFFFFFF ^^^ m)).testBit i = if m.testBit i then false else a.testBit i := by
  simp only [Nat.testBit_and, Nat.testBit_xor, testBit_ones32 h]
  cases m.testBit i <;> simp

theorem wordAt_addr (off : Nat) : (wordAt off).addr = off := by
  unfold wordAt irqRaw
  split
  · split
    · show 0x5010 = off; omega
    · show off / 4096 * 0x1000 + 0x10 = off; omega
  · rfl

/-- What the host writes in a clock is noted beside what the hardware sets in it. -/
theorem sameOf_sets_noteHost (t : Time) (off m v : Nat) (c : Chip) :
    (sameOf t (noteHost t off m v c)).sets = (sameOf t c).sets := by
  have htick : (noteHost t off m v c).same.tick = t.tick := by
    show (sameOf t c).tick = t.tick
    unfold sameOf; split
    · assumption
    · rfl
  rw [sameOf, if_pos htick]; rfl

/-- The active word after a store: RW bits from the word written, then W1C bits cleared that the hardware has not set. -/
def storedWord (t : Time) (off v : Nat) (r : MapRow) (c : Chip) : Nat :=
  ((c.rdR (wordAt off) &&& (0xFFFFFFFF ^^^ r.rw)) ||| (v &&& r.rw)) &&&
    (0xFFFFFFFF ^^^ (v &&& r.w1c &&& (0xFFFFFFFF ^^^ Tab.get 0 (sameOf t c).sets off)))

/-- The shadow word after a store: RWS bits from the word written. -/
def storedShadow (off v : Nat) (r : MapRow) (c : Chip) : Nat :=
  (c.shR (wordAt off) &&& (0xFFFFFFFF ^^^ r.rws)) ||| (v &&& r.rws)

/-- A store writes the active word where it has RW or W1C bits. -/
theorem storeWord_rdR (t : Time) (off v : Nat) (r : MapRow) (c : Chip) (g : Reg) :
    (storeWord t off v r c).rdR g = (if r.rw = 0 ∧ r.w1c = 0 then c else c.wrR (wordAt off) (storedWord t off v r c)).rdR g := by
  have hshadow : ∀ d : Chip, ∀ w, (if r.rws = 0 then d else d.wrShR (wordAt off) w).rdR g = d.rdR g := fun d w => by split <;> rfl
  unfold storeWord
  rw [hshadow]
  by_cases hrw : r.rw = 0
  · simp only [hrw, if_true, storedWord]
  · simp only [hrw, if_false, false_and, sameOf_sets_noteHost]
    rfl

/-- A store writes the shadow word where it has RWS bits. -/
theorem storeWord_shR (t : Time) (off v : Nat) (r : MapRow) (c : Chip) (g : Reg) :
    (storeWord t off v r c).shR g = (if r.rws = 0 then c else c.wrShR (wordAt off) (storedShadow off v r c)).shR g := by
  unfold storeWord
  by_cases hrw : r.rw = 0 <;> by_cases hw : r.w1c = 0 <;> by_cases hs : r.rws = 0 <;>
    simp only [hrw, hw, hs, if_true, if_false, and_self, and_true, and_false] <;> rfl

theorem storeWord_rest (t : Time) (off v : Nat) (r : MapRow) (c : Chip) :
    { storeWord t off v r c with regs := c.regs, shadow := c.shadow, same := c.same } = c := by
  unfold storeWord
  by_cases hrw : r.rw = 0 <;> by_cases hw : r.w1c = 0 <;> by_cases hs : r.rws = 0 <;>
    simp only [hrw, hw, hs, if_true, if_false, and_self, and_true, and_false] <;> rfl

/-- A bit of the active word after a store. -/
theorem testBit_storedWord {t : Time} {off v i : Nat} {r : MapRow} {c : Chip} (h : i < 32) :
    (storedWord t off v r c).testBit i =
      if r.w1c.testBit i && v.testBit i && !(Tab.get 0 (sameOf t c).sets off).testBit i then false
      else if r.rw.testBit i then v.testBit i else (c.rdR (wordAt off)).testBit i := by
  have hclear : (v &&& r.w1c &&& (0xFFFFFFFF ^^^ Tab.get 0 (sameOf t c).sets off)).testBit i
      = (r.w1c.testBit i && v.testBit i && !(Tab.get 0 (sameOf t c).sets off).testBit i) := by
    rw [Nat.testBit_and, Nat.testBit_and, Nat.testBit_xor, testBit_ones32 h, Bool.true_xor, Bool.and_comm (v.testBit i)]
  rw [storedWord, testBit_cleared h, testBit_masked h, hclear]

/-- A read of a register that is no operation of its own clears its RC bits. -/
theorem loadWord_rdR (off : Nat) (r : MapRow) (c : Chip) {i : Nat} (h : i < 32) :
    ((loadWord off r c).1.rdR (wordAt off)).testBit i = if r.rc.testBit i then false else (c.rdR (wordAt off)).testBit i := by
  by_cases hrc : r.rc = 0
  · simp only [loadWord, hrc, if_true, Nat.zero_testBit, Bool.false_eq_true, if_false]
  · simp only [loadWord, hrc, if_false]
    rw [Chip.testBit_rdR_wrR _ _ _ h, testBit_cleared h]

/-- Settles O14, a bit at a time. -/
theorem registerBitsFollowAccessCodes : Obligations.RegisterBitsFollowAccessCodes := by
  refine ⟨fun t off v i r c h => ⟨?_, ?_⟩, fun t off v r c => ⟨fun g hg => ?_, fun g hg => ?_, storeWord_rest t off v r c⟩,
    fun off i r c h => ⟨?_, loadWord_rdR off r c h⟩, fun off r c => ⟨?_, ?_⟩⟩
  · rw [storeWord_rdR]
    split
    · rename_i h0
      obtain ⟨hrw, hw⟩ := h0
      simp only [hrw, hw, Nat.zero_testBit, Bool.false_and, Bool.false_eq_true, if_false]
    · rw [Chip.testBit_rdR_wrR _ _ _ h, testBit_storedWord h]
  · rw [storeWord_shR]
    split
    · rename_i hs
      simp only [hs, Nat.zero_testBit, Bool.false_eq_true, if_false]
    · rw [Chip.testBit_shR_wrShR _ _ _ h, storedShadow, testBit_masked h]
  · have hne : g.addr ≠ (wordAt off).addr := by rw [wordAt_addr]; exact fun e => hg (List.mem_singleton.2 e)
    rw [storeWord_rdR]
    split
    · rfl
    · exact Chip.rdR_wrR_ne _ _ hne
  · rw [storeWord_shR]
    split
    · rfl
    · exact Chip.shR_wrShR_ne _ _ (by rwa [wordAt_addr])
  · simp only [loadWord, Nat.testBit_or, Nat.testBit_and, Bool.and_comm]
  · unfold loadWord
    exact .ite (.refl _ _) (.wrR c _ (by rw [wordAt_addr]; exact List.mem_singleton_self _))
  · unfold loadWord
    dsimp only
    split <;> rfl

/-! ### The ring port (R330) -/

/-- What a report leaves of the rings and their memory. -/
theorem Reported.rings {ps : List Nat} {a b : Chip} (h : Reported ps a b) :
    b.rings = a.rings ∧ b.ringMem = a.ringMem ∧ b.hostMem = a.hostMem := by
  obtain ⟨-, -, hrest⟩ := h
  rw [← hrest]
  exact ⟨rfl, rfl, rfl⟩

theorem ringNotify_reported (t : Time) (k : Nat) (was c : Chip) : Reported [0x18] c (ringNotify t k was c) := by
  have hmark : Reported [0x18] c (if ringMark c k && !ringMark was k then irq t 0x18 1 c else c) :=
    .ite (irq_reported t 1 c (List.mem_singleton_self _)) (.refl _ _)
  exact .ite (hmark.trans (vecDue_reported _ _ _)) hmark

theorem setRing_rings (k : Nat) (r : Ring) (c : Chip) :
    (setRing k r c).rings = Tab.set {} c.rings k r ∧ (setRing k r c).ringMem = c.ringMem ∧ (setRing k r c).hostMem = c.hostMem := by
  unfold setRing
  dsimp only
  split <;> exact ⟨rfl, rfl, rfl⟩

/-- Bytes taken from a ring move its read index alone. -/
theorem ringTake_rings (t : Time) (k n : Nat) (c : Chip) :
    (ringTake t k n c).rings = Tab.set {} c.rings k { ring c k with outW := (ring c k).outW + n } ∧
      (ringTake t k n c).ringMem = c.ringMem ∧ (ringTake t k n c).hostMem = c.hostMem := by
  obtain ⟨hr, hm, hh⟩ := (ringNotify_reported t k c (setRing k { ring c k with outW := (ring c k).outW + n } c)).rings
  obtain ⟨hr', hm', hh'⟩ := setRing_rings k { ring c k with outW := (ring c k).outW + n } c
  exact ⟨hr.trans hr', hm.trans hm', hh.trans hh'⟩

/-- What is left of the ages of a ring's bytes once they are read. -/
def agesLeft (c : Chip) (k : Nat) (r : Ring) : Ring := { r with wrote := r.wrote.filter fun e => decide (ringReadTo c k < e.1) }

theorem ringAges_rings (t : Time) (k : Nat) (c : Chip) : (ringAges t k c).rings = Tab.upd {} c.rings k (agesLeft c k) := rfl

theorem outW_ringAges (t : Time) (k : Nat) (c : Chip) : (ring (ringAges t k c) k).outW = (ring c k).outW := by
  rw [ring, ringAges_rings, Tab.get_upd_self]; rfl

theorem ring_ringAges_ne (t : Time) {k j : Nat} (c : Chip) (h : j ≠ k) : ring (ringAges t k c) j = ring c j := by
  rw [ring, ringAges_rings, Tab.get_upd_ne _ _ _ h]; rfl

/-- Settles O17: four bytes are taken of the selected ring, or the answer is 0. -/
theorem ringPortReadsWholeWords : Obligations.RingPortReadsWholeWords := by
  refine ⟨fun s h => ?_, fun s h hfill => ?_⟩
  · intro c k hon hcons hfill
    have hread : readPort s.time c = (ringAges s.time k (ringTake s.time k 4 c), leNat (ringPeek c k (ring c k).outW 4)) :=
      if_pos (by rw [hon, hcons, decide_eq_true hfill]; rfl)
    obtain ⟨hr, hm, hh⟩ := ringTake_rings s.time k 4 c
    refine ⟨next_hostRead h (by decide) (by decide) (by decide) (by decide) (congrArg some (by rw [hread])), ?_⟩
    rw [hread]
    refine ⟨?_, fun j hj => ?_, hm, hh⟩
    · rw [outW_ringAges, ring, hr, Tab.get_set_self]
    · rw [ring_ringAges_ne _ _ hj, ring, hr, Tab.get_set_ne _ _ _ _ hj, ring]
  · have hread : readPort s.time (hostAccess s.chip) = (hostAccess s.chip, 0) :=
      if_neg (by
        have hlow : ¬ 4 ≤ ringFill (hostAccess s.chip) ((hostAccess s.chip).rd F.RNG_RPSEL_RING) := Nat.not_le.2 hfill
        rw [decide_eq_false hlow, Bool.and_false]; exact Bool.false_ne_true)
    exact next_hostRead h (by decide) (by decide) (by decide) (by decide) (congrArg some hread)

/-! ### The coefficient memory (R90) -/

theorem caddrNext_mem (c : Chip) : (caddrNext c).cenMem = c.cenMem ∧ (caddrNext c).cenSt = c.cenSt := by
  unfold caddrNext
  split <;> exact ⟨rfl, rfl⟩

/-- A coefficient write that is refused is a report. -/
theorem cdataWrite_refused {t : Time} {v : Nat} {c : Chip} (h : cdataReserved c = false) (hr : cdataRefused c = true) :
    cdataWrite t v c = caddrNext (raise t 0x06 0x20 (c.rdR R.CEN_CADDR) (irq t 0x0E 6 c)) := by
  rw [cdataWrite, h, hr, if_neg Bool.false_ne_true, if_pos rfl]

theorem cdataWrite_state {t : Time} {v : Nat} {c : Chip} (h : cdataReserved c = false) (hr : cdataRefused c = false)
    (hs : c.flag F.CEN_CADDR_REGION = true) :
    cdataWrite t v c = caddrNext { c with
      cenSt := Tab.set 0 c.cenSt (32 * c.rd F.CEN_CADDR_SLOT + c.rd F.CEN_CADDR_WORD) (BitVec.ofNat 32 v) } := by
  rw [cdataWrite, h, hr, if_neg Bool.false_ne_true, if_neg Bool.false_ne_true, if_pos hs]

theorem cdataWrite_coefficient {t : Time} {v : Nat} {c : Chip} (h : cdataReserved c = false) (hr : cdataRefused c = false)
    (hs : c.flag F.CEN_CADDR_REGION = false) :
    cdataWrite t v c = caddrNext { c with
      cenMem := Tab.set 0 c.cenMem (coefKey (c.rd F.CEN_CADDR_SLOT) (c.rd F.CEN_CADDR_SET) (c.rd F.CEN_CADDR_WORD))
        (coefStore (c.rd F.CEN_CADDR_WORD) v) } := by
  rw [cdataWrite, h, hr, hs, if_neg Bool.false_ne_true, if_neg Bool.false_ne_true, if_neg Bool.false_ne_true]

theorem Reported.cen {ps : List Nat} {a b : Chip} (h : Reported ps a b) : b.cenMem = a.cenMem ∧ b.cenSt = a.cenSt := by
  obtain ⟨-, -, hrest⟩ := h
  rw [← hrest]
  exact ⟨rfl, rfl⟩

/-- Settles O18, by whether the address is reserved, refused or free. -/
theorem coefficientWritesAreGuarded : Obligations.CoefficientWritesAreGuarded := by
  intro t v c s w states inUse
  refine ⟨fun h => ?_, fun hs hw hu => ?_, fun hs hw hon => ?_⟩
  · have hgate : cdataReserved c = false ∧ cdataRefused c = true := by
      rcases h with ⟨hs, hw, hu⟩ | ⟨hs, hw, hu⟩
      · refine ⟨?_, ?_⟩
        · rw [cdataReserved, if_neg (ne_true_of_eq_false hs)]; exact decide_eq_false (Nat.not_le.2 hw)
        · rw [cdataRefused]; exact (if_neg (ne_true_of_eq_false hs)).trans hu
      · refine ⟨?_, ?_⟩
        · rw [cdataReserved, if_pos hs]; exact decide_eq_false (Nat.not_le.2 hw)
        · rw [cdataRefused]
          refine (if_pos hs).trans ?_
          rcases hu with hu | hu
          · exact Bool.or_eq_true_iff.2 (.inl hu)
          · exact Bool.or_eq_true_iff.2 (.inr (decide_eq_true hu))
    obtain ⟨hres, href⟩ := hgate
    rw [cdataWrite_refused hres href]
    have hrep : Reported [8, 0x0E] c (raise t 0x06 0x20 (c.rdR R.CEN_CADDR) (irq t 0x0E 6 c)) :=
      (irq_reported t 6 c (by decide)).trans (raise_reported t _ _ _ _ false (by decide))
    obtain ⟨hm, hst⟩ := hrep.cen
    obtain ⟨hm', hst'⟩ := caddrNext_mem (raise t 0x06 0x20 (c.rdR R.CEN_CADDR) (irq t 0x0E 6 c))
    exact ⟨hm'.trans hm, hst'.trans hst, rfl⟩
  · have hres : cdataReserved c = false := by
      rw [cdataReserved, if_neg (ne_true_of_eq_false hs)]; exact decide_eq_false (Nat.not_le.2 hw)
    have href : cdataRefused c = false := by rw [cdataRefused]; exact (if_neg (ne_true_of_eq_false hs)).trans hu
    obtain ⟨hm, hst⟩ := caddrNext_mem { c with cenMem := Tab.set 0 c.cenMem (coefKey s (c.rd F.CEN_CADDR_SET) w) (coefStore w v) }
    rw [cdataWrite_coefficient hres href hs]
    refine ⟨?_, fun k hk => ?_, hst⟩
    · rw [hm]; exact Tab.get_set_self _ _ _ _
    · rw [hm]; exact Tab.get_set_ne _ _ _ _ hk
  · have hres : cdataReserved c = false := by
      rw [cdataReserved, if_pos hs]; exact decide_eq_false (by omega)
    have href : cdataRefused c = false := by
      rw [cdataRefused]
      refine (if_pos hs).trans (Bool.or_eq_false_iff.2 ⟨hon, decide_eq_false (by omega)⟩)
    obtain ⟨hm, hst⟩ := caddrNext_mem { c with cenSt := Tab.set 0 c.cenSt (32 * s + w) (BitVec.ofNat 32 v) }
    rw [cdataWrite_state hres href hs]
    refine ⟨?_, fun k hk => ?_, hm⟩
    · rw [hst]; exact Tab.get_set_self _ _ _ _
    · rw [hst]; exact Tab.get_set_ne _ _ _ _ hk

end Sys2Proof.Machine

/-! SUPPORT. A trip of a channel (R183, R186), the lapse of a lease (R353) and the service of the supervisor (R402). -/

namespace Sys2Proof.Machine

/-! ### The state of a channel through an off and its reports -/

theorem efStat_unreported : ∀ n : Fin 16, (R.EFU_CHn_STAT n.val).addr ∉ reportRegs [8, 0x11] := by decide

/-- What a report leaves of the channels. -/
theorem Reported.efCh {ps : List Nat} {a b : Chip} (h : Reported ps a b) (n : Nat) : efCh b n = efCh a n := by
  obtain ⟨-, -, hrest⟩ := h
  rw [Machine.efCh, Machine.efCh, ← hrest]

/-- A report leaves the fields of EFU_CHn_STAT. -/
theorem Reported.rd_efStat {a b : Chip} (h : Reported [8, 0x11] a b) (n : Fin 16) {hi lo : Nat} :
    b.rd ⟨R.EFU_CHn_STAT n.val, hi, lo⟩ = a.rd ⟨R.EFU_CHn_STAT n.val, hi, lo⟩ := by
  obtain ⟨hregs, -, -⟩ := h
  rw [Chip.rd, hregs _ (efStat_unreported n), Chip.rd]

/-- A flag of EFU_CHm_STAT apart from a field of EFU_CHn_STAT. -/
theorem rd_efStat_wrB (c : Chip) (b : Bool) {m n i hi lo : Nat} (hi32 : i < 32) (ha : i < lo ∨ hi < i) :
    (c.wrB ⟨R.EFU_CHn_STAT m, i, i⟩ b).rd ⟨R.EFU_CHn_STAT n, hi, lo⟩ = c.rd ⟨R.EFU_CHn_STAT n, hi, lo⟩ := by
  by_cases hmn : n = m
  · subst hmn
    exact c.rd_wr_apart _ (Nat.le_refl i) hi32 rfl ha
  · exact c.rd_wr_ne _ (by show 0x11120 + 0x40 * n ≠ 0x11120 + 0x40 * m; omega)

/-- A change of a channel that leaves its pin. -/
theorem pin_modEf {f : EfCh → EfCh} (hf : ∀ e, (f e).pin = e.pin) (m n : Nat) (c : Chip) :
    (efCh (modEf m f c) n).pin = (efCh c n).pin := by
  by_cases h : n = m
  · rw [h, efCh_modEf_self, hf]
  · rw [efCh_modEf_ne _ _ h]

theorem efIlim_pin (m n : Nat) (c : Chip) : (efCh (efIlim m c) n).pin = (efCh c n).pin := by
  unfold efIlim
  apply pin_modEf
  exact fun _ => rfl

/-- A write of a register leaves the channels. -/
theorem efCh_wrB (c : Chip) (f : Fld) (b : Bool) (n : Nat) : efCh (c.wrB f b) n = efCh c n := rfl

theorem efUnshare_pin (m n : Nat) (c : Chip) : (efCh (efUnshare m c) n).pin = (efCh c n).pin := by
  have hstep : ∀ k d, (efCh (efIlim k ((modEf k (fun e => { e with share := none }) d).wrB (F.EFU_CHn_STAT_HELD k) false)) n).pin
      = (efCh d n).pin := by
    intro k d
    rw [efIlim_pin, efCh_wrB]
    apply pin_modEf
    exact fun _ => rfl
  exact forAll_keeps (fun c => (efCh c n).pin) hstep _ c

theorem modEf_rd (n : Nat) (f : EfCh → EfCh) (c : Chip) (g : Fld) : (modEf n f c).rd g = c.rd g := rfl

theorem efUnshare_rd (m : Nat) {n hi lo : Nat} (h : hi < 9 ∨ 9 < lo) (c : Chip) :
    (efUnshare m c).rd ⟨R.EFU_CHn_STAT n, hi, lo⟩ = c.rd ⟨R.EFU_CHn_STAT n, hi, lo⟩ := by
  have hstep : ∀ k d, (efIlim k ((modEf k (fun e => { e with share := none }) d).wrB (F.EFU_CHn_STAT_HELD k) false)).rd
      ⟨R.EFU_CHn_STAT n, hi, lo⟩ = d.rd ⟨R.EFU_CHn_STAT n, hi, lo⟩ := fun k d => by
    rw [efIlim, modEf_rd, F.EFU_CHn_STAT_HELD, rd_efStat_wrB _ false (by omega) (by omega), modEf_rd]
  exact forAll_keeps (fun c : Chip => c.rd ⟨R.EFU_CHn_STAT n, hi, lo⟩) hstep _ c

theorem setPg_pin (t : Time) (n : Nat) (b : Bool) (c : Chip) : (efCh (setPg t n b c) n).pin = (efCh c n).pin := by
  have hmod : ∀ d, (efCh (modEf n (fun e => { e with pgT := 0, pgOn := 0 }) d) n).pin = (efCh d n).pin := fun d => by
    rw [efCh_modEf_self]
  unfold setPg
  split
  · rfl
  · rw [(irq_reported t 4 _ (List.mem_singleton_self 0x11)).efCh]
    exact hmod ((c.wrB (F.EFU_CHn_STAT_PG n) b).wr F.EFU_PGSTAT_CH (setBit (c.rd F.EFU_PGSTAT_CH) n b))

theorem setPg_rd (t : Time) (n : Fin 16) (b : Bool) {hi lo : Nat} (h : hi < 4 ∨ 4 < lo) (c : Chip) :
    (setPg t n.val b c).rd ⟨R.EFU_CHn_STAT n.val, hi, lo⟩ = c.rd ⟨R.EFU_CHn_STAT n.val, hi, lo⟩ := by
  have hne : (R.EFU_CHn_STAT n.val).addr ≠ R.EFU_PGSTAT.addr := by show 0x11120 + 0x40 * n.val ≠ 0x11050; omega
  have hw : ∀ (d : Chip) (f : Fld) v, f.reg = R.EFU_PGSTAT → (d.wr f v).rd ⟨R.EFU_CHn_STAT n.val, hi, lo⟩ = d.rd ⟨R.EFU_CHn_STAT n.val, hi, lo⟩ :=
    fun d f v hf => d.rd_wr_ne v (by rw [hf]; exact hne)
  unfold setPg
  split
  · rfl
  · rw [(irq_reported t 4 _ (by decide : (0x11 : Nat) ∈ [8, 0x11])).rd_efStat n]
    refine (hw _ F.EFU_PGSTAT_PIN _ rfl).trans ((hw _ F.EFU_PGSTAT_CH _ rfl).trans ?_)
    exact rd_efStat_wrB c b (by decide) (by omega)

/-- The words that show the states of all channels are none of EFU_CHn_STAT. -/
theorem efState_addr_ne (m n : Nat) : (R.EFU_CHn_STAT n).addr ≠ (if m < 8 then R.EFU_STATE0 else R.EFU_STATE1).addr := by
  split
  · show 0x11120 + 0x40 * n ≠ 0x11048; omega
  · show 0x11120 + 0x40 * n ≠ 0x1104c; omega

/-- A state entered that is not ON. -/
theorem setEf_rd {n st hi lo : Nat} (hon : st ≠ efON) (h : hi < 9 ∨ 9 < lo) (c : Chip) :
    (setEf n st c).rd ⟨R.EFU_CHn_STAT n, hi, lo⟩ = (c.wr (F.EFU_CHn_STAT_STATE n) st).rd ⟨R.EFU_CHn_STAT n, hi, lo⟩ := by
  unfold setEf
  rw [if_neg hon, efUnshare_rd n h]
  rw [Chip.rd, Chip.rdR_wrR_ne _ _ (efState_addr_ne n n), Chip.rd]

/-- A state entered that is not ON is shown, and leaves the pin and the retries. -/
theorem setEf_effect {n st : Nat} (hon : st ≠ efON) (hst : st < 16) (c : Chip) :
    efState (setEf n st c) n = st ∧ (setEf n st c).rd (F.EFU_CHn_STAT_RLEFT n) = c.rd (F.EFU_CHn_STAT_RLEFT n)
      ∧ (efCh (setEf n st c) n).pin = (efCh c n).pin := by
  refine ⟨?_, ?_, ?_⟩
  · rw [efState, F.EFU_CHn_STAT_STATE, setEf_rd hon (by omega), F.EFU_CHn_STAT_STATE, Chip.rd_wr_self _ _ _ (by simp) (by simp)]
    exact Nat.mod_eq_of_lt hst
  · rw [F.EFU_CHn_STAT_RLEFT, setEf_rd hon (by omega), F.EFU_CHn_STAT_STATE]
    exact c.rd_wr_apart _ (by simp) (by simp) rfl (by simp)
  · unfold setEf
    rw [if_neg hon, efUnshare_pin]
    rfl

/-- A channel switched off: its pin is low, its state shown, its retries as they were. -/
theorem efOff_effect (t : Time) (n : Fin 16) {st : Nat} (hon : st ≠ efON) (hst : st < 16) (c : Chip) :
    efState (efOff t n.val st c) n.val = st ∧ (efOff t n.val st c).rd (F.EFU_CHn_STAT_RLEFT n.val) = c.rd (F.EFU_CHn_STAT_RLEFT n.val)
      ∧ (efCh (efOff t n.val st c) n.val).pin = false := by
  unfold efOff
  obtain ⟨hstate, hleft, hpin⟩ := setEf_effect (n := n.val) hon hst ((modEf n.val (fun e => { e with
    pin := false, rev := 0, clean := 0, under := 0, cleared := 0, gateT := 0, gateRun := 0, gateDone := false, gateLost := 0, offI := 0
    ft := 0, ftDiv := 0, short := 0, oc := false, pgT := 0, pgOn := 0 }) (setPg t n.val false c)).wrB (F.EFU_CHn_STAT_FTRUN n.val) false)
  refine ⟨hstate, hleft.trans ?_, hpin.trans ?_⟩
  · rw [F.EFU_CHn_STAT_FTRUN, F.EFU_CHn_STAT_RLEFT, rd_efStat_wrB _ false (by omega) (by omega), modEf_rd, setPg_rd t n false (by omega)]
  · rw [efCh_wrB, efCh_modEf_self]

/-- What a report leaves of a channel, its state and its retries. -/
theorem Reported.efu {a b : Chip} (h : Reported [8, 0x11] a b) (n : Fin 16) :
    Machine.efCh b n.val = Machine.efCh a n.val ∧ efState b n.val = efState a n.val
      ∧ b.rd (F.EFU_CHn_STAT_RLEFT n.val) = a.rd (F.EFU_CHn_STAT_RLEFT n.val) :=
  ⟨h.efCh n.val, h.rd_efStat n, h.rd_efStat n⟩

theorem tripReport (t : Time) (kinds : Nat) (n b : Nat) (c : Chip) : Reported [8, 0x11] c (irq t 0x11 b (raise t 0x09 kinds n c)) :=
  (raise_reported t _ _ _ c false (by decide)).trans (irq_reported t b _ (by decide))

/-- A trip with no retries left: off, reported, and reported as latched. -/
theorem efTrip_latched {t : Time} {n kinds : Nat} {c : Chip} (hl : c.rd (F.EFU_CHn_STAT_RLEFT n) = 0)
    (hr : efRd c n (F.EFU_CHn_RTY_RCNT n) ≠ 255) :
    efTrip t n kinds c = irq t 0x11 3 (raise t 0x09 0x20 n
      (irq t 0x11 0 (raise t 0x09 kinds n (efOff t n efLATCHED (c.count (F.EFU_CHn_CNT_TRIPS n)))))) := by
  simp only [efTrip, hl, hr, not_false_eq_true, and_self, if_true]

/-- A trip with retries left: off and reported, a retry less unless they are unlimited, and the wait. -/
theorem efTrip_waits {t : Time} {n kinds : Nat} {c : Chip}
    (h : c.rd (F.EFU_CHn_STAT_RLEFT n) ≠ 0 ∨ efRd c n (F.EFU_CHn_RTY_RCNT n) = 255) :
    efTrip t n kinds c =
      modEf n (fun e => { e with wait := max (efRd c n (F.EFU_CHn_RTY_RMIN n) * 100000) (99 * (efCh c n).on) })
        (if efRd c n (F.EFU_CHn_RTY_RCNT n) = 255 then
            irq t 0x11 0 (raise t 0x09 kinds n (efOff t n efTRIPWAIT (c.count (F.EFU_CHn_CNT_TRIPS n))))
          else (irq t 0x11 0 (raise t 0x09 kinds n (efOff t n efTRIPWAIT (c.count (F.EFU_CHn_CNT_TRIPS n))))).wr (F.EFU_CHn_STAT_RLEFT n)
            (c.rd (F.EFU_CHn_STAT_RLEFT n) - 1)) := by
  have hno : ¬ (c.rd (F.EFU_CHn_STAT_RLEFT n) = 0 ∧ ¬ efRd c n (F.EFU_CHn_RTY_RCNT n) = 255) := by
    rintro ⟨h0, h255⟩
    exact h.elim (fun h => h h0) h255
  simp only [efTrip, hno, if_false]

/-- A trip's count leaves EFU_CHn_STAT. -/
theorem rd_efStat_count (n : Nat) {hi lo : Nat} (c : Chip) :
    (c.count (F.EFU_CHn_CNT_TRIPS n)).rd ⟨R.EFU_CHn_STAT n, hi, lo⟩ = c.rd ⟨R.EFU_CHn_STAT n, hi, lo⟩ :=
  c.rd_wr_ne _ (by show 0x11120 + 0x40 * n ≠ 0x1112c + 0x40 * n; omega)

/-- A retry less leaves the rest of the channel. -/
theorem retry_taken (n : Nat) (d : Chip) {k : Nat} (hk : k < 2 ^ 8) :
    efCh (d.wr (F.EFU_CHn_STAT_RLEFT n) k) n = efCh d n ∧ efState (d.wr (F.EFU_CHn_STAT_RLEFT n) k) n = efState d n
      ∧ (d.wr (F.EFU_CHn_STAT_RLEFT n) k).rd (F.EFU_CHn_STAT_RLEFT n) = k := by
  have hw : 16 ≤ 23 ∧ 23 < 32 ∧ (23 < 0 ∨ 3 < 16) := by decide
  obtain ⟨hlo, h32, hapart⟩ := hw
  refine ⟨rfl, d.rd_wr_apart _ hlo h32 rfl hapart, ?_⟩
  rw [d.rd_wr_self (F.EFU_CHn_STAT_RLEFT n) k hlo h32]
  exact Nat.mod_eq_of_lt hk

/-- Settles O21: an off to the state that the retries left decide, its reports, and in the retry wait its time. -/
theorem tripFollowsRetryPolicy : Obligations.TripFollowsRetryPolicy := by
  intro t n kinds c left rcnt c'
  -- the off of a trip and its report
  have hoff : ∀ st, st ≠ efON → st < 16 →
      efState (irq t 0x11 0 (raise t 0x09 kinds n.val (efOff t n.val st (c.count (F.EFU_CHn_CNT_TRIPS n.val))))) n.val = st ∧
      (irq t 0x11 0 (raise t 0x09 kinds n.val (efOff t n.val st (c.count (F.EFU_CHn_CNT_TRIPS n.val))))).rd (F.EFU_CHn_STAT_RLEFT n.val) = left ∧
      (efCh (irq t 0x11 0 (raise t 0x09 kinds n.val (efOff t n.val st (c.count (F.EFU_CHn_CNT_TRIPS n.val))))) n.val).pin = false := by
    intro st hon hst
    obtain ⟨hch, hs, hl⟩ := (tripReport t kinds n.val 0 (efOff t n.val st (c.count (F.EFU_CHn_CNT_TRIPS n.val)))).efu n
    obtain ⟨hs', hl', hp⟩ := efOff_effect t n hon hst (c.count (F.EFU_CHn_CNT_TRIPS n.val))
    exact ⟨hs.trans hs', hl.trans (hl'.trans (rd_efStat_count n.val c)), by rw [hch, hp]⟩
  have hwaits : left ≠ 0 ∨ rcnt = 255 → (efCh c' n.val).pin = false ∧ efState c' n.val = 4
      ∧ c'.rd (F.EFU_CHn_STAT_RLEFT n.val) = (if rcnt = 255 then left else left - 1)
      ∧ (efCh c' n.val).wait = max (efRd c n.val (F.EFU_CHn_RTY_RMIN n.val) * 100000) (99 * (efCh c n.val).on) := by
    intro h
    obtain ⟨hs, hl, hp⟩ := hoff efTRIPWAIT (by decide) (by decide)
    have hc' : c' = _ := efTrip_waits h
    rw [hc', efCh_modEf_self]
    by_cases hr : efRd c n.val (F.EFU_CHn_RTY_RCNT n.val) = 255
    · have hrcnt : rcnt = 255 := hr
      rw [if_pos hr, if_pos hrcnt]
      exact ⟨hp, hs, hl, rfl⟩
    · have hrcnt : ¬ rcnt = 255 := hr
      have hlt : left - 1 < 2 ^ 8 := by
        have : left < 2 ^ 8 := Nat.mod_lt _ (Nat.pow_pos (by decide))
        omega
      obtain ⟨hch, hst, hrd⟩ := retry_taken n.val (irq t 0x11 0 (raise t 0x09 kinds n.val
        (efOff t n.val efTRIPWAIT (c.count (F.EFU_CHn_CNT_TRIPS n.val))))) hlt
      rw [if_neg hr, if_neg hrcnt, hch, efState, modEf_rd, modEf_rd]
      exact ⟨hp, hst.trans hs, hrd, rfl⟩
  have hlatched : left = 0 → rcnt ≠ 255 → (efCh c' n.val).pin = false ∧ efState c' n.val = 5 := by
    intro hl hr
    obtain ⟨hs, -, hp⟩ := hoff efLATCHED (by decide) (by decide)
    obtain ⟨hch, hs', -⟩ := (tripReport t 0x20 n.val 3
      (irq t 0x11 0 (raise t 0x09 kinds n.val (efOff t n.val efLATCHED (c.count (F.EFU_CHn_CNT_TRIPS n.val)))))).efu n
    have hc' : c' = _ := efTrip_latched hl hr
    rw [hc', hch]
    exact ⟨hp, hs'.trans hs⟩
  refine ⟨?_, fun hl hr => (hlatched hl hr).2, fun h => (hwaits h).2⟩
  by_cases h : left ≠ 0 ∨ rcnt = 255
  · exact (hwaits h).1
  · rw [not_or, Decidable.not_not] at h
    obtain ⟨hl, hr⟩ := h
    exact (hlatched hl hr).1

/-! ### A lease that lapses (R353, R355) -/

/-- PAR_STAKE is another word than PAR_STAT. -/
theorem rd_parStat_left (c : Chip) (v : Nat) {f : Fld} (h : f.reg = R.PAR_STAT) : (c.wr F.PAR_STAKE_LEFT v).rd f = c.rd f :=
  c.rd_wr_ne v (by rw [h]; decide)

/-- GUY and the Stake released: their flags, and what else PAR_STAT shows. -/
theorem releaseGuy_flags (c : Chip) : (releaseGuy c).rd F.PAR_STAT_GUYDRV = 0 ∧ hasStake (releaseGuy c) = false ∧ acts (releaseGuy c) = acts c := by
  have hguy : (c.wrB F.PAR_STAT_GUYDRV false).rd F.PAR_STAT_GUYDRV = 0 := Chip.rd_wr_self c _ _ (by decide) (by decide)
  have hstake : ((c.wrB F.PAR_STAT_GUYDRV false).wrB F.PAR_STAT_STAKE false).flag F.PAR_STAT_STAKE = false :=
    Chip.flag_wrB_self _ false rfl (by decide)
  have hkeep : ∀ f : Fld, f.reg = R.PAR_STAT → (F.PAR_STAT_GUYDRV.hi < f.lo ∨ f.hi < F.PAR_STAT_GUYDRV.lo) →
      (F.PAR_STAT_STAKE.hi < f.lo ∨ f.hi < F.PAR_STAT_STAKE.lo) →
      ((c.wrB F.PAR_STAT_GUYDRV false).wrB F.PAR_STAT_STAKE false).rd f = c.rd f := fun f hf hg hs =>
    (Chip.rd_wr_apart _ _ (by decide) (by decide) hf hs).trans (Chip.rd_wr_apart c _ (by decide) (by decide) hf hg)
  unfold releaseGuy
  refine ⟨?_, ?_, ?_⟩
  · rw [rd_parStat_left _ _ rfl, ← hguy]
    exact Chip.rd_wr_apart _ _ (by decide) (by decide) rfl (.inl (by decide))
  · rw [hasStake, Chip.flag, rd_parStat_left _ _ rfl]
    exact hstake
  · rw [acts, Chip.flag, rd_parStat_left _ _ rfl, rd_parStat_left _ _ rfl, hkeep _ rfl (.inr (by decide)) (.inr (by decide)),
      hkeep _ rfl (.inr (by decide)) (.inl (by decide))]
    rfl

theorem releaseGuy_regsKept (c : Chip) : RegsKept [F.PAR_STAT_ACT.reg.addr, F.PAR_STAKE_LEFT.reg.addr] c (releaseGuy c) :=
  ((RegsKept.wrB c _ (by decide)).trans (.wrB _ _ (by decide))).trans (.wr _ _ (by decide))

theorem stopActing_regsKept (t : Time) (c : Chip) : RegsKept [F.PAR_STAT_ACT.reg.addr, F.PAR_STAKE_LEFT.reg.addr] c (stopActing t c) :=
  (RegsKept.wrB c false (by decide)).trans (.of_regs rfl)

/-- Settles O23: ACT, GUY and the Stake go, and a chip that does not act drives no gate. -/
theorem lapsedLeaseStopsTheChip : Obligations.LapsedLeaseStopsTheChip := by
  refine ⟨fun s ha hp hs he => ⟨next_alive ha, ?_⟩,
    fun t c h => if_neg (by rw [decide_eq_false (Nat.not_le.2 h), Bool.and_false]; exact Bool.false_ne_true)⟩
  have hlapse : leaseLapse s.time s.chip = releaseGuy (stopActing s.time s.chip) :=
    if_pos (by rw [hp, hs, decide_eq_true he]; rfl)
  have hsolo : prState s.chip ≠ prSOLO := by
    rw [pairOn, Bool.and_eq_true, bne_iff_ne] at hp
    exact hp.2
  obtain ⟨hguy, hstake, hsame⟩ := releaseGuy_flags (stopActing s.time s.chip)
  have hacts := hsame.trans (acts_stopActing s.time hsolo)
  rw [hlapse]
  exact ⟨hacts, hguy, hstake, fun n => gatePins_low (legDrive_live _ n (.inr (.inr hacts))),
    (stopActing_regsKept s.time s.chip).trans (releaseGuy_regsKept _)⟩

/-! ### The service of the supervisor (R402) -/

theorem Reported.wdg {ps : List Nat} {a b : Chip} (h : Reported ps a b) : b.wdg = a.wdg := by
  obtain ⟨-, -, hrest⟩ := h
  rw [← hrest]

theorem tellGive_wdg (t : Time) (cause : Nat) (c : Chip) : (tellGive t cause c).wdg = c.wdg := by
  have hlatch : (latchGive cause c).wdg = c.wdg := by unfold latchGive; split <;> rfl
  have hrep : Reported [8, 9] (latchGive cause c) (tellGive t cause c) :=
    (raise_reported t _ _ _ _ false (by decide)).trans (irq_reported t 1 _ (by decide))
  exact hrep.wdg.trans hlatch

/-- A give-up is no matter of the watchdog. -/
theorem giveUp_wdg (t : Time) (cause : Nat) (c : Chip) : (giveUp t cause c).wdg = c.wdg := by
  by_cases hb : giveUpBarred c
  · rw [giveUp_barred t cause hb]
  by_cases hact : prState c = prCLAIM ∨ prState c = prACTIVE
  · obtain ⟨p, n, hsend, -⟩ := pairSend_only t 0x04 [cause] (beginGiving t cause (tellGive t cause c))
    rw [giveUp_acting t cause hb hact, hsend]
    exact tellGive_wdg t cause c
  by_cases hstart : prState c = prSTART
  · rw [giveUp_start t cause hb hstart, tellGive_wdg]
  · have hsync : ∀ d, (setSynced t false d).wdg = d.wdg := fun d => by
      unfold setSynced
      split
      · rfl
      · exact (irq_reported t 2 _ (List.mem_singleton_self 9)).wdg
    have htake : ∀ d, (takeWithdrawn t d).wdg = d.wdg := fun d => by unfold takeWithdrawn; split <;> rfl
    rw [giveUp_shadowing t cause hb hact hstart, hsync]
    exact (htake _).trans (tellGive_wdg t cause c)

theorem count_wdg (c : Chip) (f : Fld) : (c.count f).wdg = c.wdg := rfl

/-- The words of evidence are registers. -/
theorem evidence_wdg (c : Chip) (r₁ r₂ r₃ r₄ : Reg) (v₁ v₂ v₃ v₄ o o' : Nat) (s s' : Stamps) :
    (putStamps o s (putStamps o' s' ((((c.wrR r₁ v₁).wrR r₂ v₂).wrR r₃ v₃).wrR r₄ v₄))).wdg = c.wdg := rfl

theorem putEvidence_wdg (x : Caught) (c : Chip) : (putEvidence x c).wdg = c.wdg := by
  by_cases h : c.flag (F.WDG_EVe_KIND_VALID x.block) = true
  · rw [putEvidence, if_pos h]
    exact count_wdg _ _
  · rw [putEvidence, if_neg h]
    exact evidence_wdg _ _ _ _ _ _ _ _ _ _ _ _ _

/-- The count of the watchdog is told by its base and its clock. -/
theorem wdgTick_congr (t : Time) {c d : Chip} (hb : d.wdg.base = c.wdg.base) (ha : d.wdg.baseAt = c.wdg.baseAt)
    (hf : d.wdg.fallback = c.wdg.fallback) : wdgTick t d = wdgTick t c := by
  rw [wdgTick, wdgTick, hb, ha, hf]

/-- What is caught leaves the watchdog's count. -/
theorem wdgTick_capture (t : Time) (block kind slots code : Nat) (last : Option Stamps) (hib : Bool) (c : Chip) :
    wdgTick t (capture t block kind slots code last hib c) = wdgTick t c := by
  have hw : ∃ l, (capture t block kind slots code last hib c).wdg = { c.wdg with caught := l } := ⟨_, putEvidence_wdg _ _⟩
  obtain ⟨l, hw⟩ := hw
  exact wdgTick_congr t (by rw [hw]) (by rw [hw]) (by rw [hw])

/-- A failure starts a new window. -/
theorem supFailure_sAt (t : Time) (kind pc : Nat) (c : Chip) : (supFailure t kind pc c).wdg.sAt = wdgTick t c := by
  have hrep : ∀ (b : Nat) (d : Chip), Reported [8, 7] d (irq t 7 b (raise t 0x13 kind 0x80 d)) := fun b d =>
    (raise_reported t _ _ _ _ false (by decide)).trans (irq_reported t b _ (by decide))
  have htick : ∀ {d e : Chip}, e.wdg = d.wdg → wdgTick t e = wdgTick t d := fun h => by rw [wdgTick, wdgTick, h]
  rw [supFailure, giveUp_wdg]
  exact (htick (hrep _ _).wdg).trans (wdgTick_capture t _ _ _ _ _ _ c)

section
variable {t : Time} {pc : Nat} {c : Chip}

/-- The chip once a service has ended the start window, except in recovery mode. -/
def startEnded (c : Chip) : Chip := c.wrB F.WDG_SSTAT_START (c.flag F.WDG_SSTAT_START && c.flag F.UPD_STAT_RECOV)

/-- A service from the close tick on, before the open tick, and between them. -/
theorem supService_late (h : supClose c ≤ supAge t c) : supService t pc c = supFailure t 1 pc (startEnded c) := if_pos h

@[inherit_doc supService_late]
theorem supService_early (h : supAge t c < supClose c) (hs : c.flag F.WDG_SSTAT_START = false) (ho : supAge t c < c.rd F.WDG_SWIN_SOPEN) :
    supService t pc c = supFailure t 2 pc c :=
  (if_neg (Nat.not_le.2 h)).trans (if_pos (by rw [hs, decide_eq_true ho]; rfl))

@[inherit_doc supService_late]
theorem supService_accepted (h : supAge t c < supClose c) (ho : c.flag F.WDG_SSTAT_START = true ∨ c.rd F.WDG_SWIN_SOPEN ≤ supAge t c) :
    supService t pc c = modWdg (fun w => { w with sAt := wdgTick t c, supLast := some t.stamps }) (startEnded c) := by
  refine (if_neg (Nat.not_le.2 h)).trans (if_neg ?_)
  rcases ho with hs | ho
  · rw [hs, Bool.not_true, Bool.false_and]; exact Bool.false_ne_true
  · rw [decide_eq_false (Nat.not_lt.2 ho), Bool.and_false]; exact Bool.false_ne_true

end

/-- Settles O24, by the age of the window at the service. -/
theorem supervisorWindowIsJudged : Obligations.SupervisorWindowIsJudged := by
  intro t pc c age first opens closes ended
  have hopen : age < opens → c.flag F.WDG_SSTAT_START = false ∧ age < c.rd F.WDG_SWIN_SOPEN := by
    intro h
    by_cases hs : c.flag F.WDG_SSTAT_START = true
    · have h0 : opens = 0 := if_pos hs
      omega
    · have ho : opens = c.rd F.WDG_SWIN_SOPEN := if_neg hs
      exact ⟨Bool.not_eq_true _ ▸ hs, ho ▸ h⟩
  have hopened : opens ≤ age → c.flag F.WDG_SSTAT_START = true ∨ c.rd F.WDG_SWIN_SOPEN ≤ age := by
    intro h
    by_cases hs : c.flag F.WDG_SSTAT_START = true
    · exact .inl hs
    · have ho : opens = c.rd F.WDG_SWIN_SOPEN := if_neg hs
      exact .inr (ho ▸ h)
  refine ⟨fun h => supService_late h, fun h hc => ?_, fun h hc => ?_, ?_⟩
  · obtain ⟨hs, ho⟩ := hopen h
    exact supService_early hc hs ho
  · rw [supService_accepted (t := t) hc (hopened h)]
    exact ⟨rfl, rfl, Chip.flag_wrB_self c _ rfl (by decide), rfl, (RegsKept.wrB c _ (List.mem_singleton_self _)).trans (.of_regs rfl)⟩
  · by_cases hc : closes ≤ age
    · rw [supService_late (t := t) hc, supFailure_sAt]; rfl
    by_cases h : age < opens
    · obtain ⟨hs, ho⟩ := hopen h
      rw [supService_early (t := t) (Nat.not_le.1 hc) hs ho, supFailure_sAt]
    · rw [supService_accepted (t := t) (Nat.not_le.1 hc) (hopened (Nat.not_lt.1 h))]
      rfl

end Sys2Proof.Machine

/-! SUPPORT. The division of the bus demand (R126–R128): what each class adds to the shares, and what is left. -/

namespace Sys2Proof.Machine

/-! ### Shares of a class -/

theorem clampI_bounds {lo hi x : Int} (h : lo ≤ hi) : lo ≤ clampI lo hi x ∧ clampI lo hi x ≤ hi := by
  unfold clampI
  split
  · omega
  · split <;> omega

/-- Every source of a class has one share, within its limits where they are in order. -/
theorem allocateClass_shares (l : List Nat) (w : Nat → Nat) (lim : Nat → Int × Int) (r : Int) : ∃ g : Nat → Int,
    allocateClass (l.map fun i => (i, w i, lim i)) r = l.map (fun i => (i, g i)) ∧
      ∀ i, (lim i).1 ≤ (lim i).2 → (lim i).1 ≤ g i ∧ g i ≤ (lim i).2 := by
  unfold allocateClass
  simp only [List.map_map]
  refine ⟨_, rfl, fun i h => ?_⟩
  simp only [Function.comp]
  split
  · exact clampI_bounds h
  · exact clampI_bounds h

theorem foldl_add_sum (l : List Int) : l.foldl (· + ·) 0 = l.sum := (List.sum_eq_foldl).symm

/-- A list of shares set in a table: its sources read them, every other one reads as before. -/
theorem get_foldl_set {l : List Nat} (g : Nat → Int) (t : Tab Int) (m : Nat) :
    Tab.get 0 ((l.map fun i => (i, g i)).foldl (fun t y => Tab.set 0 t y.1 y.2) t) m = if m ∈ l then g m else Tab.get 0 t m := by
  induction l generalizing t with
  | nil => rfl
  | cons a l ih =>
    rw [List.map_cons, List.foldl_cons, ih]
    by_cases hm : m ∈ l
    · rw [if_pos hm, if_pos (List.mem_cons_of_mem a hm)]
    · rw [if_neg hm]
      by_cases hma : m = a
      · rw [hma, if_pos List.mem_cons_self, Tab.get_set_self]
      · rw [if_neg (by simp [hma, hm]), Tab.get_set_ne _ _ _ _ hma]

/-- The sum of a list where some of the items are replaced that were 0. -/
theorem sum_replaced {p : Nat → Bool} {g h : Nat → Int} {l : List Nat} (h0 : ∀ i ∈ l, p i = true → h i = 0) :
    (l.map fun i => if p i then g i else h i).sum = (l.map h).sum + ((l.filter p).map g).sum := by
  induction l with
  | nil => rfl
  | cons a l ih =>
    have hl := ih fun i hi => h0 i (List.mem_cons_of_mem a hi)
    cases hp : p a with
    | true =>
      have ha := h0 a List.mem_cons_self hp
      simp only [List.map_cons, List.sum_cons, List.filter_cons, hp, if_true, ha, hl]
      omega
    | false =>
      simp only [List.map_cons, List.sum_cons, List.filter_cons, hp, Bool.false_eq_true, if_false, hl]
      omega

/-! ### Shares of all classes -/

/-- The shares of the eight sources together. -/
def shareSum (t : Tab Int) : Int := ((List.range 8).map fun i => Tab.get 0 t i).sum

/-- A source takes part in class `k` where it is available and no exported power of worth `x` occupies it. -/
def inClass (c : Chip) (x : Int) (k i : Nat) : Bool :=
  srcAvail c i && c.rd (F.BUS_Si_CFG_CLASS i) == k && !(decide (0 < x) && srcKind c i == 1)

/-- A class takes its shares of the demand that is left. -/
def classTurn (c : Chip) (x : Int) (a : Tab Int × Int) (k : Nat) : Tab Int × Int :=
  let u := ((List.range 8).filter (inClass c x k)).map fun i => (i, c.rd (F.BUS_Si_CFG_WEIGHT i), limitsOf c i)
  let l := allocateClass u a.2
  (l.foldl (fun t y => Tab.set 0 t y.1 y.2) a.1, a.2 - (l.map Prod.snd).foldl (· + ·) 0)

/-- A class's turn: its own sources read shares within their limits, every other one reads as before; and where its sources had
none, shares and rest come to what they came to. -/
theorem classTurn_effect (c : Chip) (x : Int) (a : Tab Int × Int) (k : Nat) :
    (∀ i, ¬ (i < 8 ∧ inClass c x k i = true) → Tab.get 0 (classTurn c x a k).1 i = Tab.get 0 a.1 i) ∧
    (∀ i < 8, inClass c x k i = true → (limitsOf c i).1 ≤ (limitsOf c i).2 →
      (limitsOf c i).1 ≤ Tab.get 0 (classTurn c x a k).1 i ∧ Tab.get 0 (classTurn c x a k).1 i ≤ (limitsOf c i).2) ∧
    ((∀ i < 8, inClass c x k i = true → Tab.get 0 a.1 i = 0) → shareSum (classTurn c x a k).1 + (classTurn c x a k).2 = shareSum a.1 + a.2) := by
  obtain ⟨g, hl, hb⟩ := allocateClass_shares ((List.range 8).filter (inClass c x k)) (fun i => c.rd (F.BUS_Si_CFG_WEIGHT i)) (limitsOf c) a.2
  have hturn : classTurn c x a k = ((((List.range 8).filter (inClass c x k)).map fun i => (i, g i)).foldl (fun t y => Tab.set 0 t y.1 y.2) a.1,
      a.2 - (((List.range 8).filter (inClass c x k)).map g).sum) := by
    rw [classTurn, hl, List.map_map, foldl_add_sum]; rfl
  have hmem : ∀ i, i ∈ (List.range 8).filter (inClass c x k) ↔ i < 8 ∧ inClass c x k i = true := fun i => by
    rw [List.mem_filter, List.mem_range]
  rw [hturn]
  refine ⟨fun i hi => ?_, fun i h8 hi hlim => ?_, fun h0 => ?_⟩
  · rw [get_foldl_set, if_neg (by rwa [hmem])]
  · rw [get_foldl_set, if_pos ((hmem i).2 ⟨h8, hi⟩)]
    exact hb i hlim
  · have hsum : shareSum (((List.range 8).filter (inClass c x k)).map (fun i => (i, g i)) |>.foldl (fun t y => Tab.set 0 t y.1 y.2) a.1)
        = shareSum a.1 + (((List.range 8).filter (inClass c x k)).map g).sum := by
      unfold shareSum
      rw [← sum_replaced (p := inClass c x k) (g := g) (h := fun i => Tab.get 0 a.1 i) fun i hi => h0 i (List.mem_range.1 hi)]
      refine congrArg List.sum (List.map_congr_left fun i hi => ?_)
      rw [get_foldl_set]
      simp only [hmem, List.mem_range.1 hi, true_and]
    rw [hsum]
    omega

/-- A source takes part in one class alone. -/
theorem inClass_unique {c : Chip} {x : Int} {k k' i : Nat} (h : inClass c x k i = true) (h' : inClass c x k' i = true) : k = k' := by
  simp only [inClass, Bool.and_eq_true, beq_iff_eq] at h h'
  obtain ⟨⟨-, hk⟩, -⟩ := h
  obtain ⟨⟨-, hk'⟩, -⟩ := h'
  exact hk.symm.trans hk'

/-- The turns of several classes, one after another. -/
theorem classTurns_effect (c : Chip) (x : Int) {ks : List Nat} (hks : ks.Nodup) (a : Tab Int × Int) :
    (∀ i, (∀ k ∈ ks, ¬ (i < 8 ∧ inClass c x k i = true)) → Tab.get 0 (ks.foldl (classTurn c x) a).1 i = Tab.get 0 a.1 i) ∧
    (∀ k ∈ ks, ∀ i < 8, inClass c x k i = true → (limitsOf c i).1 ≤ (limitsOf c i).2 →
      (limitsOf c i).1 ≤ Tab.get 0 (ks.foldl (classTurn c x) a).1 i ∧ Tab.get 0 (ks.foldl (classTurn c x) a).1 i ≤ (limitsOf c i).2) ∧
    ((∀ k ∈ ks, ∀ i < 8, inClass c x k i = true → Tab.get 0 a.1 i = 0) →
      shareSum (ks.foldl (classTurn c x) a).1 + (ks.foldl (classTurn c x) a).2 = shareSum a.1 + a.2) := by
  induction ks generalizing a with
  | nil => exact ⟨fun _ _ => rfl, nofun, fun _ => rfl⟩
  | cons k ks ih =>
    obtain ⟨hk, hks⟩ := List.nodup_cons.1 hks
    obtain ⟨hout, hin, hsum⟩ := classTurn_effect c x a k
    obtain ⟨hout', hin', hsum'⟩ := ih hks (classTurn c x a k)
    -- a source of class `k` is in no class still to come
    have hlater : ∀ i, i < 8 → inClass c x k i = true → ∀ k' ∈ ks, ¬ (i < 8 ∧ inClass c x k' i = true) :=
      fun i _ hi k' hk' h => hk (inClass_unique hi h.2 ▸ hk')
    refine ⟨fun i hi => ?_, fun k' hk' i h8 hi hlim => ?_, fun h0 => ?_⟩
    · rw [List.foldl_cons, hout' i fun k' hk' => hi k' (List.mem_cons_of_mem k hk'), hout i (hi k List.mem_cons_self)]
    · rw [List.foldl_cons]
      rcases List.mem_cons.1 hk' with rfl | hk'
      · rw [hout' i (hlater i h8 hi)]
        exact hin i h8 hi hlim
      · exact hin' k' hk' i h8 hi hlim
    · rw [List.foldl_cons, hsum' fun k' hk' i h8 hi => ?_, hsum (h0 k List.mem_cons_self)]
      have hne : ¬ (i < 8 ∧ inClass c x k i = true) := fun h => hk (inClass_unique h.2 hi ▸ hk')
      rw [hout i hne]
      exact h0 k' (List.mem_cons_of_mem k hk') i h8 hi

/-! ### What is exported (R128) -/

/-- Two sums over the same list are added item by item. -/
theorem sum_map_added (f g : Nat → Int) (l : List Nat) : (l.map fun m => f m + g m).sum = (l.map f).sum + (l.map g).sum := by
  induction l with
  | nil => rfl
  | cons a l ih =>
    simp only [List.map_cons, List.sum_cons, ih]
    omega

theorem shareSum_single {i : Nat} (h : i < 8) (v : Int) : shareSum [(i, v)] = v := by
  have hget : ∀ m, Tab.get 0 [(i, v)] m = if m = i then v else 0 := fun m => rfl
  have hcases : ∀ i < 8, ((List.range 8).map fun m => if m = i then v else 0).sum = v := by
    intro i hi
    match i, hi with
    | 0, _ | 1, _ | 2, _ | 3, _ | 4, _ | 5, _ | 6, _ | 7, _ => simp [List.range_succ]
  simp only [shareSum, hget]
  exact hcases i h

theorem shareSum_upd {i : Nat} (h : i < 8) (t : Tab Int) (v : Int) : shareSum (Tab.upd 0 t i (· + v)) = shareSum t + v := by
  have hget : ∀ m, Tab.get 0 (Tab.upd 0 t i (· + v)) m = Tab.get 0 t m + if m = i then v else 0 := fun m => by
    by_cases hm : m = i
    · rw [hm, Tab.get_upd_self, if_pos rfl]
    · rw [Tab.get_upd_ne _ _ _ hm, if_neg hm, Int.add_zero]
  have hsum : ((List.range 8).map fun m => if m = i then v else 0).sum = v := shareSum_single h v
  unfold shareSum
  simp only [hget]
  rw [sum_map_added, hsum]

/-- What is exported is worth this, and this source bears it. -/
def exportBorne (c : Chip) : Option Nat := (srcOfKind c 1).filter (srcAvail c)

@[inherit_doc exportBorne]
def exportWorth (c : Chip) : Int := if (exportBorne c).isSome then exportNow c else 0

/-- The shares before the classes take their turns: the source that bears what is exported gives it. -/
def exportShares (c : Chip) : Tab Int :=
  if 0 < exportWorth c then (match exportBorne c with | some i => [(i, -exportWorth c)] | none => []) else []

theorem exportBorne_some {c : Chip} {i : Nat} (h : exportBorne c = some i) : i < 8 ∧ srcKind c i = 1 ∧ srcAvail c i = true := by
  obtain ⟨hk, ha⟩ := Option.filter_eq_some_iff.1 h
  have hmem := List.mem_of_find?_eq_some hk
  have hp := List.find?_some hk
  exact ⟨List.mem_range.1 hmem, beq_iff_eq.1 hp, ha⟩

/-- The shares and what is left once every class has had its turn. -/
def classesDone (c : Chip) (d : Int) : Tab Int × Int :=
  (List.range 4).foldl (classTurn c (exportWorth c)) (exportShares c, d + exportWorth c)

/-- The division: what is left goes to the source that bears what is exported, up to its worth. -/
theorem divide_eq (c : Chip) (d : Int) :
    divide c d = (if 0 < exportWorth c ∧ 0 < (classesDone c d).2 then
        ((match exportBorne c with
          | some i => Tab.upd 0 (classesDone c d).1 i (· + min (exportWorth c) (classesDone c d).2)
          | none => (classesDone c d).1), (classesDone c d).2 - min (exportWorth c) (classesDone c d).2)
      else classesDone c d) := rfl

theorem divide_returned {c : Chip} {d : Int} {j : Nat} (h : 0 < exportWorth c ∧ 0 < (classesDone c d).2) (hj : exportBorne c = some j) :
    divide c d = (Tab.upd 0 (classesDone c d).1 j (· + min (exportWorth c) (classesDone c d).2),
      (classesDone c d).2 - min (exportWorth c) (classesDone c d).2) := by
  rw [divide_eq, if_pos h, hj]

theorem divide_kept {c : Chip} {d : Int} (h : ¬ (0 < exportWorth c ∧ 0 < (classesDone c d).2)) : divide c d = classesDone c d := by
  rw [divide_eq, if_neg h]

theorem exportWorth_nonneg (c : Chip) : 0 ≤ exportWorth c := by
  unfold exportWorth exportNow
  split
  · split
    · exact Int.natCast_nonneg _
    · exact Int.le_refl 0
  · exact Int.le_refl 0

theorem exportBorne_of_worth {c : Chip} (h : 0 < exportWorth c) : ∃ i, exportBorne c = some i := by
  unfold exportWorth at h
  split at h
  · exact Option.isSome_iff_exists.1 ‹_›
  · exact absurd h (Int.lt_irrefl 0)

/-- What each source reads before the turns. -/
theorem get_exportShares (c : Chip) (i : Nat) :
    Tab.get 0 (exportShares c) i = if 0 < exportWorth c ∧ exportBorne c = some i then -exportWorth c else 0 := by
  by_cases hx : 0 < exportWorth c
  · obtain ⟨j, hj⟩ := exportBorne_of_worth hx
    rw [exportShares, if_pos hx, hj]
    simp only [hx, true_and, Option.some.injEq, eq_comm (a := j)]
    rfl
  · rw [exportShares, if_neg hx, if_neg fun h => hx h.1]; rfl

theorem shareSum_exportShares (c : Chip) : shareSum (exportShares c) = -exportWorth c := by
  by_cases hx : 0 < exportWorth c
  · obtain ⟨j, hj⟩ := exportBorne_of_worth hx
    obtain ⟨hj8, -, -⟩ := exportBorne_some hj
    rw [exportShares, if_pos hx, hj]
    exact shareSum_single hj8 _
  · have h0 : exportWorth c = 0 := Int.le_antisymm (Int.not_lt.1 hx) (exportWorth_nonneg c)
    rw [exportShares, if_neg hx, h0]; rfl

/-- A source of a class gives nothing of what is exported. -/
theorem exportShares_inClass {c : Chip} {k i : Nat} (h : inClass c (exportWorth c) k i = true) : Tab.get 0 (exportShares c) i = 0 := by
  rw [get_exportShares, if_neg]
  rintro ⟨hx, hi⟩
  obtain ⟨-, hkind, -⟩ := exportBorne_some hi
  simp [inClass, hx, hkind] at h

theorem classesDone_sum (c : Chip) (d : Int) : shareSum (classesDone c d).1 + (classesDone c d).2 = d := by
  obtain ⟨-, -, hsum⟩ := classTurns_effect c (exportWorth c) (List.nodup_range (n := 4)) (exportShares c, d + exportWorth c)
  have h := hsum fun k _ i _ hi => exportShares_inClass hi
  rw [classesDone, h, shareSum_exportShares]
  omega

/-- A source that is not available has no share before what is left is given back. -/
theorem classesDone_unavailable (c : Chip) (d : Int) {i : Nat} (h : srcAvail c i = false) : Tab.get 0 (classesDone c d).1 i = 0 := by
  obtain ⟨hout, -, -⟩ := classTurns_effect c (exportWorth c) (List.nodup_range (n := 4)) (exportShares c, d + exportWorth c)
  rw [classesDone, hout i fun k _ hk => ?_, get_exportShares, if_neg]
  · rintro ⟨-, hi⟩
    obtain ⟨-, -, ha⟩ := exportBorne_some hi
    exact Bool.false_ne_true (h.symm.trans ha)
  · obtain ⟨-, hk⟩ := hk
    simp [inClass, h] at hk

/-- A source that nothing exported occupies has its share within its limits. -/
theorem classesDone_limits (c : Chip) (d : Int) {i : Nat} (h8 : i < 8) (ha : srcAvail c i = true)
    (hx : srcKind c i ≠ 1 ∨ exportWorth c ≤ 0) (hlim : (limitsOf c i).1 ≤ (limitsOf c i).2) :
    (limitsOf c i).1 ≤ Tab.get 0 (classesDone c d).1 i ∧ Tab.get 0 (classesDone c d).1 i ≤ (limitsOf c i).2 := by
  obtain ⟨-, hin, -⟩ := classTurns_effect c (exportWorth c) (List.nodup_range (n := 4)) (exportShares c, d + exportWorth c)
  have hclass : c.rd (F.BUS_Si_CFG_CLASS i) < 4 := Nat.mod_lt _ (Nat.pow_pos (by decide))
  refine hin (c.rd (F.BUS_Si_CFG_CLASS i)) (List.mem_range.2 hclass) i h8 ?_ hlim
  have hfree : (decide (0 < exportWorth c) && srcKind c i == 1) = false := by
    rcases hx with hk | hx
    · rw [beq_false_of_ne hk, Bool.and_false]
    · rw [decide_eq_false (Int.not_lt.2 hx), Bool.false_and]
  rw [inClass, ha, hfree, beq_self_eq_true]; rfl

/-- Settles O42: every class's turn keeps shares and rest together, and what is returned of an exported power goes to the source that bears it. -/
theorem sharesMakeUpTheDemand : Obligations.SharesMakeUpTheDemand := by
  intro c d
  have hlimited : ∀ i, srcKind c i ≠ 1 ∨ exportNow c ≤ 0 → srcKind c i ≠ 1 ∨ exportWorth c ≤ 0 := fun i hx => hx.imp_right fun h => by
    unfold exportWorth
    split
    · exact h
    · exact Int.le_refl 0
  by_cases h : 0 < exportWorth c ∧ 0 < (classesDone c d).2
  · obtain ⟨hpos, hrest⟩ := h
    obtain ⟨j, hj⟩ := exportBorne_of_worth hpos
    obtain ⟨hj8, hjk, hja⟩ := exportBorne_some hj
    rw [divide_returned ⟨hpos, hrest⟩ hj]
    refine ⟨?_, fun i ha => ?_, fun i h8 ha hx hlim => ?_⟩
    · have hsum := classesDone_sum c d
      have hupd := shareSum_upd hj8 (classesDone c d).1 (min (exportWorth c) (classesDone c d).2)
      simp only [shareSum] at hsum hupd
      simp only [hupd]
      omega
    · have hij : i ≠ j := fun e => Bool.false_ne_true (ha.symm.trans (e ▸ hja))
      simp only [Tab.get_upd_ne _ _ _ hij]
      exact classesDone_unavailable c d ha
    · have hij : i ≠ j := fun e => (hlimited i hx).elim (fun hk => hk (e ▸ hjk)) fun hw => absurd hpos (Int.not_lt.2 hw)
      simp only [Tab.get_upd_ne _ _ _ hij]
      exact classesDone_limits c d h8 ha (hlimited i hx) hlim
  · rw [divide_kept h]
    exact ⟨classesDone_sum c d, fun i ha => classesDone_unavailable c d ha,
      fun i h8 ha hx hlim => classesDone_limits c d h8 ha (hlimited i hx) hlim⟩

end Sys2Proof.Machine

/-! SUPPORT. The windows of a coupler port's wires (R230, R231): what else a change sets off leaves them. -/

namespace Sys2Proof.Machine

/-! ### The windows kept -/

/-- The bits of the words CPp_STAT that show the windows, and those above them, are as they were. -/
def WinKept (c c' : Chip) : Prop := ∀ n hi lo, 8 ≤ lo → c'.rd ⟨R.CPp_STAT n, hi, lo⟩ = c.rd ⟨R.CPp_STAT n, hi, lo⟩

theorem WinKept.refl (c : Chip) : WinKept c c := fun _ _ _ _ => rfl

theorem WinKept.trans {a b c : Chip} (h : WinKept a b) (h' : WinKept b c) : WinKept a c :=
  fun n hi lo hlo => (h' n hi lo hlo).trans (h n hi lo hlo)

theorem WinKept.ite {a b c : Chip} {p : Prop} [Decidable p] (h : WinKept a b) (h' : WinKept a c) : WinKept a (if p then b else c) := by
  split <;> assumption

/-- A field below the windows is written. -/
theorem WinKept.wrStat (c : Chip) (p : Nat) {i j : Nat} (v : Nat) (hij : j ≤ i) (hi8 : i < 8) :
    WinKept c (c.wr ⟨R.CPp_STAT p, i, j⟩ v) := by
  intro n hi lo hlo
  by_cases hnp : n = p
  · subst hnp
    exact c.rd_wr_apart _ hij (by show i < 32; omega) rfl (.inl (by show i < lo; omega))
  · exact c.rd_wr_ne _ (by show 0x13104 + 0x40 * n ≠ 0x13104 + 0x40 * p; omega)

/-- CPp_DIAG is another word. -/
theorem WinKept.wrDiag (c : Chip) (p : Nat) (v : Nat) : WinKept c (c.wr (F.CPp_DIAG_RUN p) v) := fun n _ _ _ =>
  c.rd_wr_ne _ (by simp only [F.CPp_DIAG_RUN, R.CPp_DIAG, R.CPp_STAT]; omega)

theorem WinKept.modPort (c : Chip) (p : Nat) (f : Port → Port) : WinKept c (modPort p f c) := fun _ _ _ _ => rfl

theorem WinKept.reported {c c' : Chip} (h : Reported [8, 0x13] c c') : WinKept c c' := by
  intro n hi lo _
  obtain ⟨hregs, -, -⟩ := h
  have hfar : ∀ a ∈ reportRegs [8, 0x13], a < 0x13104 := by decide
  rw [Chip.rd, hregs _ fun hm => ?_, Chip.rd]
  have hlow : 0x13104 + 0x40 * n < 0x13104 := hfar _ hm
  omega

/-! ### What a change sets off -/

theorem unmap_winKept (p : Nat) (c : Chip) : WinKept c (unmap p c) :=
  ((WinKept.wrStat c p _ (Nat.le_refl 5) (by decide)).trans (.wrStat _ p _ (Nat.le_refl 4) (by decide))).trans
    (.wrStat _ p _ (Nat.le_refl 6) (by decide))

theorem testStart_winKept (t : Time) (p : Nat) (c : Chip) : WinKept c (testStart t p c) := by
  unfold testStart
  exact .ite (.refl c) ((WinKept.wrDiag c p _).trans (.modPort _ p _))

theorem attachJudge_winKept (t : Time) (p : Nat) (c : Chip) : WinKept c (attachJudge t p c) := by
  have hatt : ∀ v, WinKept c (c.wr (F.CPp_STAT_ATT p) v) := fun v => .wrStat c p v (by decide) (by decide)
  have horient : ∀ d, WinKept d (d.wrB (F.CPp_STAT_ORIENT p) true) := fun d => .wrStat d p _ (Nat.le_refl 4) (by decide)
  unfold attachJudge
  refine .ite (.refl c) ?_
  split
  · exact .refl c
  · exact .ite ((hatt _).trans (horient _)) (hatt _)
  · exact horient c
  · exact .ite (.refl c) (((WinKept.wrStat c p _ (Nat.le_refl 6) (by decide)).trans (horient _)).trans
      (.reported (raise_reported t _ _ _ _ false (by decide))))
  · exact testStart_winKept t p c

theorem fitAgain_winKept (p : Nat) (c : Chip) : WinKept c (fitAgain p c) := by
  unfold fitAgain
  exact .ite ((WinKept.wrStat c p _ (by decide) (by decide)).trans (.modPort _ p _)) (.refl c)

theorem enterUnattached_winKept (t : Time) (p : Nat) (c : Chip) : WinKept c (enterUnattached t p c) := by
  unfold enterUnattached
  exact (((unmap_winKept p c).trans (.modPort _ p _)).trans (.wrStat _ p _ (by decide) (by decide))).trans (attachJudge_winKept t p _)

/-! ### The window of a wire -/

/-- Where CPp_STAT shows the window of a wire. -/
def winField (p w : Nat) : Fld := ⟨R.CPp_STAT p, 10 + 4 * w, 8 + 4 * w⟩

/-- The field of a wire, as the change of its window finds it. -/
def wireField (p wire : Nat) : Fld := match wire with | 0 => F.CPp_STAT_WINA p | 1 => F.CPp_STAT_WINB p | _ => F.CPp_STAT_WINCL p

theorem wireField_eq (p : Nat) (w : Fin 3) : wireField p w.val = winField p w.val := by
  match w with
  | 0 | 1 | 2 => rfl

theorem windowOf_lt (c : Chip) (mv : Nat) : windowOf c mv < 8 := by
  unfold windowOf
  repeat' split
  all_goals decide

theorem winField_bounds (p : Nat) (w : Fin 3) : (winField p w.val).lo ≤ (winField p w.val).hi ∧ (winField p w.val).hi < 32 := by
  show 8 + 4 * w.val ≤ 10 + 4 * w.val ∧ 10 + 4 * w.val < 32
  omega

/-- The window written reads back, and that of every other wire reads as before. -/
theorem rd_winField_wr (p : Nat) (w : Fin 3) {v : Nat} (hv : v < 8) (c : Chip) :
    (c.wr (winField p w.val) v).rd (winField p w.val) = v ∧
      ∀ (q : Nat) (w' : Fin 3), q ≠ p ∨ w' ≠ w → (c.wr (winField p w.val) v).rd (winField q w'.val) = c.rd (winField q w'.val) := by
  obtain ⟨hlo, h32⟩ := winField_bounds p w
  have hwidth : (winField p w.val).hi + 1 - (winField p w.val).lo = 3 := by
    show 10 + 4 * w.val + 1 - (8 + 4 * w.val) = 3
    omega
  refine ⟨?_, fun q w' h => ?_⟩
  · rw [c.rd_wr_self _ v hlo h32, hwidth]
    exact Nat.mod_eq_of_lt hv
  · by_cases hq : q = p
    · have hw : w'.val ≠ w.val := fun e => h.elim (fun hq' => hq' hq) fun hw => hw (Fin.ext e)
      subst hq
      refine c.rd_wr_apart v hlo h32 rfl ?_
      show 10 + 4 * w.val < 8 + 4 * w'.val ∨ 10 + 4 * w'.val < 8 + 4 * w.val
      omega
    · exact c.rd_wr_ne v (by show 0x13104 + 0x40 * q ≠ 0x13104 + 0x40 * p; omega)

section
variable {t : Time} {p wire mv : Nat} {c : Chip}

/-- A level in the window that stands changes nothing. -/
theorem windowChange_same (h : c.rd (wireField p wire) = windowOf c mv) : windowChange t p wire mv c = (c, false) := by
  unfold windowChange
  split
  · rfl
  · exact if_pos h

/-- A wire that chatters takes its port into FAULT (R231). -/
def chatterFault (t : Time) (p wire : Nat) (c : Chip) : Chip :=
  ((modPort p (fun x => { x with leaving := false, src := false, unfit := false })
    (unmap p (irq t 0x13 4 (raise t 0x0B 0x20 (p + wire * 16) c)))).wr (F.CPp_STAT_ATT p) atFAULT).wrB (F.CPp_STAT_HELD p) true

theorem chatterFault_winKept (t : Time) (p wire : Nat) (c : Chip) : WinKept c (chatterFault t p wire c) := by
  have hreport : WinKept c (irq t 0x13 4 (raise t 0x0B 0x20 (p + wire * 16) c)) :=
    .reported ((raise_reported t _ _ _ c false (by decide)).trans (irq_reported t 4 _ (by decide)))
  have hleft := (hreport.trans (unmap_winKept p _)).trans (.modPort _ p fun x => { x with leaving := false, src := false, unfit := false })
  exact (hleft.trans (.wrStat _ p _ (by decide) (by decide))).trans (.wrStat _ p _ (Nat.le_refl 7) (by decide))

/-- The chip once a wire has its new window shown in `f` and the change noted. -/
def windowNoted (t : Time) (p wire mv : Nat) (f : Fld) (c : Chip) : Chip :=
  modPort p (fun x => { x with changes := (wire, t.tick) :: recent t c x.changes
                               clAt := if wire = 2 then t.tick else x.clAt }) (c.wr f (windowOf c mv))

/-- What a noted change, of the chip `c` into `d`, sets off. -/
def windowFollowed (t : Time) (p wire : Nat) (c d : Chip) : Chip × Bool :=
  if d.rd F.CPT_DB_CHATCNT < ((port d p).changes.filter fun x => x.1 == wire).length ∧ !d.flag (F.CPp_STAT_HELD p) ∧ att d p ≠ atDISABLED then
    (chatterFault t p wire d, attached d p)
  else if (att d p = atWAITSRC ∨ att d p = atWAITSNK) ∧ (roleWin d p ≠ roleWin c p ∨ markerWin d p ≠ markerWin c p)
      ∧ !d.flag (F.CPp_STAT_SWAPHOLD p) then
    (if !fits c p && fits d p then d else enterUnattached t p d, false)
  else (attachJudge t p (fitAgain p d), false)

theorem windowChange_new (hon : portOn c p = true) (hb : bankUp c 2 = true) (h : c.rd (wireField p wire) ≠ windowOf c mv) :
    windowChange t p wire mv c = windowFollowed t p wire c (windowNoted t p wire mv (wireField p wire) c) :=
  (if_neg (by rw [hon, hb]; decide)).trans (if_neg h)

theorem windowFollowed_winKept (d : Chip) : WinKept d (windowFollowed t p wire c d).1 := by
  unfold windowFollowed
  split
  · exact chatterFault_winKept t p wire d
  · split
    · exact .ite (.refl d) (enterUnattached_winKept t p d)
    · exact (fitAgain_winKept p d).trans (attachJudge_winKept t p _)

/-- A change of window is shown, and what else it sets off leaves the windows. -/
theorem windowChange_winKept (hon : portOn c p = true) (hb : bankUp c 2 = true) (h : c.rd (wireField p wire) ≠ windowOf c mv) :
    WinKept (c.wr (wireField p wire) (windowOf c mv)) (windowChange t p wire mv c).1 := by
  rw [windowChange_new hon hb h]
  exact (WinKept.modPort _ p _).trans (windowFollowed_winKept _)

end

/-- With the thresholds in rising order each window has its own range of levels. -/
theorem windowOf_ranges (c : Chip) (mv : Nat) (hls : 20 * c.rd F.CPT_WIN_LOWTOP ≤ 20 * c.rd F.CPT_WIN_SINKTOP)
    (hsm : 20 * c.rd F.CPT_WIN_SINKTOP ≤ 20 * c.rd F.CPT_WIN_MARKTOP) (hmo : 20 * c.rd F.CPT_WIN_MARKTOP ≤ 20 * c.rd F.CPT_WIN_OPENTOP) :
    (windowOf c mv = 0 ↔ mv < 20 * c.rd F.CPT_WIN_LOWTOP) ∧
    (windowOf c mv = 1 ↔ 20 * c.rd F.CPT_WIN_LOWTOP ≤ mv ∧ mv < 20 * c.rd F.CPT_WIN_SINKTOP) ∧
    (windowOf c mv = 2 ↔ 20 * c.rd F.CPT_WIN_SINKTOP ≤ mv ∧ mv < 20 * c.rd F.CPT_WIN_MARKTOP) ∧
    (windowOf c mv = 3 ↔ 20 * c.rd F.CPT_WIN_MARKTOP ≤ mv ∧ mv < 20 * c.rd F.CPT_WIN_OPENTOP) ∧
    (windowOf c mv = 4 ↔ 20 * c.rd F.CPT_WIN_OPENTOP ≤ mv) := by
  unfold windowOf
  simp only [winLOW, winSINK, winMARKER, winOPEN, winHIGH]
  repeat' split
  all_goals omega

/-- Settles O40: the change writes the wire's window, and all that follows keeps to other bits. -/
theorem windowsFollowTheThresholds : Obligations.WindowsFollowTheThresholds := by
  refine ⟨windowOf_ranges, fun t p wire mv c hon hb => ?_⟩
  intro win
  have hwin : ∀ (q : Nat) (w : Fin 3), win q w.val = winField q w.val := fun q w => wireField_eq q w
  have hwire := wireField_eq p.val wire
  simp only [hwin]
  by_cases h : c.rd (wireField p.val wire.val) = windowOf c mv
  · rw [windowChange_same h]
    exact ⟨by rw [← hwire, h], fun _ _ _ => rfl, fun _ => rfl⟩
  · obtain ⟨hself, hother⟩ := rd_winField_wr p.val wire (windowOf_lt c mv) c
    have hkept : ∀ (q : Nat) (w : Fin 3), (windowChange t p.val wire.val mv c).1.rd (winField q w.val)
        = (c.wr (winField p.val wire.val) (windowOf c mv)).rd (winField q w.val) := fun q w => by
      rw [← hwire]
      exact windowChange_winKept hon hb h q _ _ (by omega)
    refine ⟨by rw [hkept, hself], fun q w hqw => ?_, fun hsame => absurd (hwire ▸ hsame) h⟩
    rw [hkept]
    exact hother q.val w (hqw.imp_left fun hq e => hq (Fin.ext e))

end Sys2Proof.Machine

/-! SUPPORT. What the ends of flash operations store and erase (R340, R350, R421). -/

namespace Sys2Proof.Machine

/-- What a command of a page leaves without power is what it computes, where the page runs. -/
theorem onPageNv_nv {p : Nat} {f : Time → Nv → Chip → Nv × Chip} {s t : State} (h : onPageNv p f s = .next t) :
    t.nv = if pageAlive s.chip p = true then (f s.time s.nv s.chip).1 else s.nv := by
  rw [onPageNv, onChipNv] at h
  cases h
  rw [settled_nv]
  split <;> rfl

/-- A byte outside a page that is programmed is as it was. -/
theorem pageProgrammed_outside (t : Time) (nv : Nv) (c : Chip) {a : Nat}
    (h : a < c.rdR R.REC_FBASE + c.recd.wpoint % max 1 (c.rdR R.REC_FSIZE) ∨
      c.rdR R.REC_FBASE + c.recd.wpoint % max 1 (c.rdR R.REC_FSIZE) + flashPage c ≤ a) :
    Tab.get 0xFF (pageProgrammed t nv c).1.flash a = Tab.get 0xFF nv.flash a := by
  unfold pageProgrammed
  split
  · have hlen : (c.recd.image.take (flashPage c)).length ≤ flashPage c := List.length_take_le _ _
    exact Tab.get_setMany_outside _ _ _ _ (h.imp_right fun h => by omega)
  · rfl

/-- A byte after an erase. -/
theorem get_flashErase (lo hi : Nat) (nv : Nv) (a : Nat) :
    Tab.get 0xFF (flashErase lo hi nv).flash a = if lo ≤ a ∧ a < hi then 0xFF else Tab.get 0xFF nv.flash a := by
  by_cases h : lo ≤ a ∧ a < hi
  · obtain ⟨hlo, hhi⟩ := h
    rw [if_pos ⟨hlo, hhi⟩]
    exact Tab.get_eraseRange_inside _ _ hlo hhi
  · rw [if_neg h]
    exact Tab.get_eraseRange_outside _ _ (by omega)

theorem eraseDone_format (t : Time) (nv : Nv) {c : Chip} (h : c.recd.formatting = true) :
    (eraseDone t nv c).1 = flashErase (c.rdR R.REC_FBASE) (c.rdR R.REC_FBASE + max 1 (c.rdR R.REC_FSIZE)) nv := by
  rw [eraseDone, if_pos h]

theorem eraseDone_block (t : Time) (nv : Nv) {c : Chip} (h : c.recd.formatting = false) (he : c.recd.erasing = true) :
    (eraseDone t nv c).1 = flashErase (c.rdR R.REC_FBASE + (c.recd.wpoint + c.recd.erased) % max 1 (c.rdR R.REC_FSIZE))
      (c.rdR R.REC_FBASE + (c.recd.wpoint + c.recd.erased) % max 1 (c.rdR R.REC_FSIZE) + flashBlock c) nv := by
  rw [eraseDone, h, if_neg Bool.false_ne_true, if_pos he]

/-- A bank erased for an update. -/
theorem bankErased_nv (t : Time) (nv : Nv) {c : Chip} (h : c.upd.op = some .erase) :
    (bankErased t true nv c).1 = flashErase (bankBase nv c.upd.bank) (bankBase nv c.upd.bank + bankSize nv c.upd.bank) nv := by
  rw [bankErased, if_pos h]
  rfl

/-- A block programmed for an update. -/
theorem blockProgrammed_nv (t : Time) (nv : Nv) {c : Chip} {ofs : Nat} (h : c.upd.op = some (.block ofs)) (hs : c.recd.sealing.isSome = false) :
    (blockProgrammed t true nv c).1 = { nv with flash := Tab.setMany 0xFF nv.flash (bankBase nv c.upd.bank + ofs) c.upd.block } := by
  rw [blockProgrammed, h]
  dsimp only
  rw [hs, if_neg Bool.false_ne_true]
  rfl

/-- A completion later than TOUT leaves what is kept without power. -/
theorem programEnds_late {t : Time} {nv : Nv} {c : Chip} (h : opLate t c = true) : (programEnds t nv c).1 = nv := by
  rw [programEnds, if_pos h]

@[inherit_doc programEnds_late]
theorem eraseEnds_late {t : Time} {nv : Nv} {c : Chip} (h : opLate t c = true) : (eraseEnds t nv c).1 = nv := by
  rw [eraseEnds, if_pos h]

theorem eraseEnds_timely {t : Time} {nv : Nv} {c : Chip} (h : opLate t c = false) : (eraseEnds t nv c).1 = (eraseDone t nv c).1 := by
  rw [eraseEnds, h, if_neg Bool.false_ne_true]

/-- What the end of a page program leaves without power. -/
theorem exec_flashPageProgrammed (s : State) : exec .flashPageProgrammed s = onPageNv 0x17 programEnds s := rfl

@[inherit_doc exec_flashPageProgrammed]
theorem flashPageProgrammed_nv {s t : State} (h : exec .flashPageProgrammed s = .next t) :
    t.nv = if pageAlive s.chip 0x17 = true then (programEnds s.time s.nv s.chip).1 else s.nv :=
  (onPageNv_nv (p := 0x17) (f := programEnds) ((exec_flashPageProgrammed s).symm.trans h) :)

/-- What the end of an erase leaves without power. -/
theorem exec_flashEraseDone (s : State) : exec .flashEraseDone s = onPageNv 0x17 eraseEnds s := rfl

@[inherit_doc exec_flashEraseDone]
theorem flashEraseDone_nv {s t : State} (h : exec .flashEraseDone s = .next t) :
    t.nv = if pageAlive s.chip 0x17 = true then (eraseEnds s.time s.nv s.chip).1 else s.nv :=
  (onPageNv_nv (p := 0x17) (f := eraseEnds) ((exec_flashEraseDone s).symm.trans h) :)

/-- What the end of an erase of a bank leaves without power. -/
theorem exec_bankEraseDone (ok : Bool) (s : State) :
    exec (.bankEraseDone ok) s = onPageNv 0x06 (fun t nv c => bankErased t ok nv c) s := rfl

@[inherit_doc exec_bankEraseDone]
theorem bankEraseDone_nv {ok : Bool} {s t : State} (h : exec (.bankEraseDone ok) s = .next t) :
    t.nv = if pageAlive s.chip 0x06 = true then (bankErased s.time ok s.nv s.chip).1 else s.nv :=
  (onPageNv_nv (p := 0x06) (f := fun t nv c => bankErased t ok nv c) ((exec_bankEraseDone ok s).symm.trans h) :)

/-- What the end of a block's program leaves without power. -/
theorem exec_blockProgrammed (ok : Bool) (s : State) :
    exec (.blockProgrammed ok) s = onPageNv 0x06 (fun t nv c => blockProgrammed t ok nv c) s := rfl

@[inherit_doc exec_blockProgrammed]
theorem blockProgrammed_kept {ok : Bool} {s t : State} (h : exec (.blockProgrammed ok) s = .next t) :
    t.nv = if pageAlive s.chip 0x06 = true then (blockProgrammed s.time ok s.nv s.chip).1 else s.nv :=
  (onPageNv_nv (p := 0x06) (f := fun t nv c => blockProgrammed t ok nv c) ((exec_blockProgrammed ok s).symm.trans h) :)

/-- Settles O9, an operation at a time: each stores or erases one range of the flash. -/
theorem flashBytesOutsideAreKept : Obligations.FlashBytesOutsideAreKept := by
  refine ⟨fun s t ha _ h a hout => ?_, fun s t ha hl hf h a => ?_, fun s t ha hl hf he h a => ?_, fun s t ha ho h a => ?_,
    fun s t ofs ha ho hs h a hout => ?_, fun s t hl h => ?_⟩
  · rw [flashPageProgrammed_nv h, if_pos ha]
    cases hl : opLate s.time s.chip with
    | true => rw [programEnds_late hl]
    | false =>
      rw [programEnds, hl, if_neg Bool.false_ne_true]
      exact pageProgrammed_outside _ _ _ hout
  · rw [flashEraseDone_nv h, if_pos ha, eraseEnds_timely hl, eraseDone_format _ _ hf, get_flashErase]
  · rw [flashEraseDone_nv h, if_pos ha, eraseEnds_timely hl, eraseDone_block _ _ hf he, get_flashErase]
  · rw [bankEraseDone_nv h, if_pos ha, bankErased_nv _ _ ho, get_flashErase]
  · rw [blockProgrammed_kept h, if_pos ha, blockProgrammed_nv _ _ ho hs]
    exact Tab.get_setMany_outside _ _ _ _ hout
  · rcases h with h | h
    · rw [flashPageProgrammed_nv h, programEnds_late hl, ite_self]
    · rw [flashEraseDone_nv h, eraseEnds_late hl, ite_self]

end Sys2Proof.Machine

/-! SUPPORT. A commit (R454): the merge of the shadow, what PGSTAT shows, and the judgement. -/

namespace Sys2Proof.Machine

/-! ### The merge of the shadow -/

/-- The word that a commit writes at an offset. -/
def commitReg (off : Nat) : Reg := ⟨off, resetWord off⟩

/-- A word that takes its shadow bits, bit by bit. -/
theorem testBit_takeShadow_self (off : Nat) (c : Chip) {i : Nat} (h : i < 32) :
    ((takeShadow off c).rdR (commitReg off)).testBit i =
      if (rwsMask off).testBit i then (c.shR (commitReg off)).testBit i else (c.rdR (commitReg off)).testBit i :=
  (Chip.testBit_rdR_wrR c (commitReg off) _ h).trans (testBit_masked h)

theorem rdR_takeShadow_ne {k off : Nat} (c : Chip) (h : off ≠ k) :
    (takeShadow k c).rdR (commitReg off) = c.rdR (commitReg off) := Chip.rdR_wrR_ne c _ h

theorem shR_takeShadow (k : Nat) (c : Chip) (r : Reg) : (takeShadow k c).shR r = c.shR r := rfl

/-- A word after the words of a list have taken their shadow bits. -/
theorem testBit_forAll_takeShadow (l : List Nat) (off : Nat) (c : Chip) {i : Nat} (h : i < 32) :
    ((c.forAll l takeShadow).rdR (commitReg off)).testBit i =
      if off ∈ l ∧ (rwsMask off).testBit i = true then (c.shR (commitReg off)).testBit i
      else (c.rdR (commitReg off)).testBit i := by
  induction l generalizing c with
  | nil => simp [Chip.forAll]
  | cons k l ih =>
    refine (ih (takeShadow k c)).trans ?_
    rw [shR_takeShadow]
    by_cases hk : off = k
    · rw [← hk, testBit_takeShadow_self _ _ h]
      cases hm : (rwsMask off).testBit i <;> simp
    · rw [rdR_takeShadow_ne _ hk]
      simp [hk]

/-- The listed words of a page are words of the page. -/
theorem page_of_mem_pageKeys {p off : Nat} {c : Chip} (h : off ∈ pageKeys p c) : off / 4096 = p := by
  simp only [pageKeys, List.mem_append, List.mem_filter, List.mem_map, beq_iff_eq] at h
  rcases h with ⟨_, ⟨_, hp⟩, rfl⟩ | ⟨⟨_, ⟨_, hp⟩, rfl⟩, _⟩ <;> exact hp

/-- A key that no entry of a table has reads as the default. -/
theorem get_of_unlisted {l : Tab Word} {k : Nat} (d : Word) (h : ∀ e ∈ l, e.1 ≠ k) : Tab.get d l k = d := by
  induction l with
  | nil => rfl
  | cons e l ih =>
    obtain ⟨k', v⟩ := e
    have hk : k' ≠ k := h (k', v) List.mem_cons_self
    exact (if_neg (Ne.symm hk)).trans (ih fun e he => h e (List.mem_cons_of_mem _ he))

/-- A word of a page that is listed neither as active nor as shadow reads the same in both. -/
theorem rdR_eq_shR_of_unlisted {off : Nat} {c : Chip} (h : off ∉ pageKeys (off / 4096) c) :
    c.rdR (commitReg off) = c.shR (commitReg off) := by
  simp only [pageKeys, List.mem_append, not_or, List.mem_filter, List.mem_map, beq_iff_eq] at h
  obtain ⟨hregs, hshadow⟩ := h
  have hr : ∀ e ∈ c.regs, e.1 ≠ off := fun e he hk => hregs ⟨e, ⟨he, by rw [hk]⟩, hk⟩
  have hs : ∀ e ∈ c.shadow, e.1 ≠ off := by
    refine fun e he hk => hshadow ⟨⟨e, ⟨he, by rw [hk]⟩, hk⟩, ?_⟩
    simpa using fun v hv => absurd rfl (hr _ hv)
  exact congrArg BitVec.toNat ((get_of_unlisted (resetWord off) hr).trans (get_of_unlisted (resetWord off) hs).symm)

/-- The merge of a page, bit by bit (CEN holds running slots on beside it, R263). -/
theorem testBit_mergeShadow {p : Nat} (off : Nat) (c : Chip) {i : Nat} (hp : p ≠ 0x0E) (h : i < 32) :
    ((mergeShadow p c).rdR (commitReg off)).testBit i =
      if off / 4096 = p ∧ (rwsMask off).testBit i = true then (c.shR (commitReg off)).testBit i
      else (c.rdR (commitReg off)).testBit i := by
  rw [mergeShadow, if_neg hp, testBit_forAll_takeShadow _ _ _ h]
  by_cases hpage : off / 4096 = p
  · by_cases hmem : off ∈ pageKeys p c
    · simp [hmem, hpage]
    · subst hpage
      rw [rdR_eq_shR_of_unlisted hmem, ite_self, ite_self]
  · rw [if_neg fun hm => hpage (page_of_mem_pageKeys hm.1), if_neg fun hm => hpage hm.1]

/-! ### What PGSTAT shows -/

theorem commitShow_regsKept (p tag : Nat) (done : Bool) (c : Chip) :
    RegsKept [(F.PGSTAT_PEND p).reg.addr] c (commitShow p tag done c) :=
  have own : (F.PGSTAT_PEND p).reg.addr ∈ [(F.PGSTAT_PEND p).reg.addr] := List.mem_singleton_self _
  ((((RegsKept.of_regs rfl).trans (.wrB _ _ own)).trans (.wrB (f := F.PGSTAT_DONE p) _ _ own)).trans
    (.wrB (f := F.PGSTAT_REFUSED p) _ _ own)).trans (.wr (f := F.PGSTAT_TAG p) _ _ own)

/-- A field of PGSTAT apart from the one written reads as before. -/
theorem rd_pgstat_apart {p : Nat} (f g : Fld) (c : Chip) (v : Nat) (hf : f.reg = R.PGSTAT p) (hg : g.reg = R.PGSTAT p)
    (h : f.lo ≤ f.hi ∧ f.hi < 32 ∧ (f.hi < g.lo ∨ g.hi < f.lo)) : (c.wr f v).rd g = c.rd g :=
  Chip.rd_wr_apart c v h.1 h.2.1 (hg.trans hf.symm) h.2.2

theorem commitShow_pend (p tag : Nat) (done : Bool) (c : Chip) : (commitShow p tag done c).rd (F.PGSTAT_PEND p) = 0 :=
  (rd_pgstat_apart (p := p) (F.PGSTAT_TAG p) (F.PGSTAT_PEND p) _ _ rfl rfl (by simp [F.PGSTAT_TAG, F.PGSTAT_PEND])).trans <|
  (rd_pgstat_apart (p := p) (F.PGSTAT_REFUSED p) (F.PGSTAT_PEND p) _ _ rfl rfl (by simp [F.PGSTAT_REFUSED, F.PGSTAT_PEND])).trans <|
  (rd_pgstat_apart (p := p) (F.PGSTAT_DONE p) (F.PGSTAT_PEND p) _ _ rfl rfl (by simp [F.PGSTAT_DONE, F.PGSTAT_PEND])).trans
  (Chip.rd_wr_self _ (F.PGSTAT_PEND p) _ (Nat.le_refl 3) (by simp [F.PGSTAT_PEND]))

theorem commitShow_done (p tag : Nat) (done : Bool) (c : Chip) :
    (commitShow p tag done c).rd (F.PGSTAT_DONE p) = done.toNat :=
  (rd_pgstat_apart (p := p) (F.PGSTAT_TAG p) (F.PGSTAT_DONE p) _ _ rfl rfl (by simp [F.PGSTAT_TAG, F.PGSTAT_DONE])).trans <|
  (rd_pgstat_apart (p := p) (F.PGSTAT_REFUSED p) (F.PGSTAT_DONE p) _ _ rfl rfl (by simp [F.PGSTAT_REFUSED, F.PGSTAT_DONE])).trans <|
  (Chip.rd_wr_self _ (F.PGSTAT_DONE p) _ (Nat.le_refl 6) (by simp [F.PGSTAT_DONE])).trans (by cases done <;> rfl)

theorem commitShow_refused (p tag : Nat) (done : Bool) (c : Chip) :
    (commitShow p tag done c).rd (F.PGSTAT_REFUSED p) = (!done).toNat :=
  (rd_pgstat_apart (p := p) (F.PGSTAT_TAG p) (F.PGSTAT_REFUSED p) _ _ rfl rfl (by simp [F.PGSTAT_TAG, F.PGSTAT_REFUSED])).trans <|
  (Chip.rd_wr_self _ (F.PGSTAT_REFUSED p) _ (Nat.le_refl 5) (by simp [F.PGSTAT_REFUSED])).trans (by cases done <;> rfl)

theorem commitShow_tag (p : Nat) {tag : Nat} (done : Bool) (c : Chip) (h : tag < 2 ^ 16) :
    (commitShow p tag done c).rd (F.PGSTAT_TAG p) = tag := by
  have hmod : tag % 2 ^ 16 = tag := Nat.mod_eq_of_lt h
  exact (Chip.rd_wr_self _ (F.PGSTAT_TAG p) tag (by simp [F.PGSTAT_TAG]) (by simp [F.PGSTAT_TAG])).trans hmod

/-! ### The judgement -/

/-- A commit that is refused shows it and raises the page's kind 0x80. -/
theorem applyCommit_refused {t : Time} {nv : Nv} {p tag off : Nat} {c : Chip}
    (h : judgePage nv p (commitMark t p c) (mergeShadow p (commitMark t p c)) = some off) :
    applyCommit t nv p tag c = ((refuseIrq p).map fun b => irq t p b).getD id
      (raise t (refuseSource p off) 0x80 off (commitShow p tag false (commitMark t p c))) := by
  simp only [applyCommit, h]
  cases refuseIrq p <;> rfl

/-- A commit that is accepted on a page whose logic is held is the merge, PGSTAT and the rings' producers. -/
theorem applyCommit_held {t : Time} {nv : Nv} {p tag : Nat} {c : Chip}
    (h : judgePage nv p (commitMark t p c) (mergeShadow p (commitMark t p c)) = none)
    (hheld : (commitShow p tag true (mergeShadow p (commitMark t p c))).blockOn p = false)
    (hmap : (commitShow p tag true (mergeShadow p (commitMark t p c))).rdR (R.FLTMAP p) = (commitMark t p c).rdR (R.FLTMAP p))
    (hpages : p ≠ 0x0A ∧ p ≠ 0x0B ∧ p ≠ 0x0E ∧ p ≠ 0x11) :
    applyCommit t nv p tag c = showProducers (commitShow p tag true (mergeShadow p (commitMark t p c))) := by
  obtain ⟨hang, hleg, hcen, hefu⟩ := hpages
  have hsum : ¬(p = 0x0A ∨ p = 0x0B ∨ p = 0x0E) := by simp [hang, hleg, hcen]
  simp only [applyCommit, h]
  rw [hheld, if_neg Bool.false_ne_true, if_neg hefu, if_neg hsum, if_pos hmap]

/-- Settles O16: a commit is judged once, on the merge of all its words. -/
theorem commitAppliesAllOrNothing : Obligations.CommitAppliesAllOrNothing := by
  refine ⟨fun p off i c hp h => testBit_mergeShadow off c hp h,
    fun p tag done c h => ⟨commitShow_regsKept _ _ _ _, commitShow_pend _ _ _ _, commitShow_done _ _ _ _, commitShow_refused _ _ _ _,
      commitShow_tag _ _ _ h, rfl⟩,
    fun iface p s h hearly => ?_⟩
  intro c shown
  have hexec : exec (.commitImmediate iface p) s = _ :=
    (if_neg fun hp => hp.2 (hearly hp.1)).trans (next_commit (v := 1) h (by decide) (by decide))
  refine ⟨fun off hoff => hexec.trans ?_, fun hnone hheld hmap hang hleg hcen hefu => hexec.trans ?_⟩
  · exact congrArg (fun x => (.next (s.settled s.nv (endUnlock iface p.val x)) : Host.Outcome State Fault Refusal))
      (applyCommit_refused hoff)
  · exact congrArg (fun x => (.next (s.settled s.nv (endUnlock iface p.val x)) : Host.Outcome State Fault Refusal))
      (applyCommit_held hnone hheld hmap ⟨hang, hleg, hcen, hefu⟩)

end Sys2Proof.Machine
